-- ==== Sys2Proof/Word.lean ====
section
/-! DEFINITION. The two word types of the ZT408: a byte of a serial line, and a stamp of the free-running
32-bit microsecond counter (00_scope.md, Conventions, Time). Everything else the manual counts is a `Nat` or an `Int`. -/

namespace Sys2Proof

/-- One byte on a station link, a MIDI port or inside a telegram. -/
abbrev Byte := BitVec 8

/-- A stamp of the free-running 32-bit microsecond counter (00_scope.md, Time). -/
abbrev Stamp := BitVec 32

end Sys2Proof
end

