-- ==== Sys2Proof/Syntax.lean ====
section
/-! DEFINITION. The commands of the ZT408: one constructor of `Instr` for each row of spec/opcode_table.json, with
the operands the row's step carries from outside the part (the link, input or output concerned, the payload of a
telegram, the data of a MIDI message). Names of ports and the small per-port containers stand here too. -/

namespace Sys2Proof

/-- The station links S0 to S3 (00_scope.md, The station roles). -/
inductive Link where
  | s0 | s1 | s2 | s3
  deriving DecidableEq, Repr

/-- The MIDI inputs IN0 to IN5. -/
inductive InPort where
  | in0 | in1 | in2 | in3 | in4 | in5
  deriving DecidableEq, Repr

/-- The MIDI outputs OUT0 to OUT3. -/
inductive OutPort where
  | out0 | out1 | out2 | out3
  deriving DecidableEq, Repr

/-- The sound stations A (on S0) and B (on S1). -/
inductive Station where
  | a | b
  deriving DecidableEq, Repr

/-- The click buses BAND and KEYS. -/
inductive Bus where
  | band | keys
  deriving DecidableEq, Repr

/-- A MIDI channel: channel n of the manual (1 to 16) is `n - 1` here, the low nibble of its status bytes (R41). -/
abbrev Chan := Fin 16

/-- A MIDI data byte, 0 to 127. -/
abbrev Val7 := Fin 128

/-- One value for each station link. -/
structure PerLink (α : Type) where
  s0 : α
  s1 : α
  s2 : α
  s3 : α
  deriving DecidableEq, Repr

/-- One value for each MIDI input. -/
structure PerIn (α : Type) where
  in0 : α
  in1 : α
  in2 : α
  in3 : α
  in4 : α
  in5 : α
  deriving DecidableEq, Repr

/-- One value for each MIDI output. -/
structure PerOut (α : Type) where
  out0 : α
  out1 : α
  out2 : α
  out3 : α
  deriving DecidableEq, Repr

/-- One value for each sound station. -/
structure PerStation (α : Type) where
  a : α
  b : α
  deriving DecidableEq, Repr

/-- One value for each click bus. -/
structure PerBus (α : Type) where
  band : α
  keys : α
  deriving DecidableEq, Repr

/-- The cause of a reset, told apart in the STARTUP record (R183). -/
inductive ResetCause where
  | powerOn | resetLine
  deriving DecidableEq, Repr

/-- How a show save ends: what the flash device did (R181). -/
inductive SaveEnd where
  /-- The read-back matches the copy and its CRC. -/
  | matched
  /-- The flash failed to erase or write; `onlyErased` when the erase alone was complete. -/
  | writeFailed (onlyErased : Bool)
  /-- The read-back differs from the copy. -/
  | differed
  deriving DecidableEq, Repr

/-- What a link's receiver sees in place of a good byte: a byte, or a byte whose stop bit is bad (R146). -/
inductive RxEvent where
  | byte (b : Byte)
  | badStop
  deriving DecidableEq, Repr

/-- The kind and controller number in a filter slot's key (R106). -/
inductive SlotKind where
  | control (number : Nat)
  | pressure
  deriving DecidableEq, Repr

/-- The key of a filter slot: input, channel, kind and controller number (R106). -/
structure SlotKey where
  input : InPort
  chan : Chan
  kind : SlotKind
  deriving DecidableEq, Repr

/-- A complete channel message as the parser collects it (R41). -/
inductive ChanMsg where
  | noteOff (key vel : Val7)
  | noteOn (key vel : Val7)
  | polyPressure (key value : Val7)
  | control (number value : Val7)
  | program (program : Val7)
  | pressure (value : Val7)
  | bend (lsb msb : Val7)
  deriving DecidableEq, Repr

/-- A system common message with its data bytes (R41). -/
inductive SysCommon where
  | f1 (d : Val7)
  | f2 (d e : Val7)
  | f3 (d : Val7)
  | f4 | f5 | f6 | f7
  deriving DecidableEq, Repr

/-- The real-time bytes other than FEh (R43). -/
inductive RealTime where
  | f8 | f9 | fa | fb | fc | fd | ff
  deriving DecidableEq, Repr

/-- The commands. A request or report row carries the link it arrives on and the payload bytes of its telegram
(chapter 11); the two STOP rows fix the mode byte, and `extra` is whatever payload follows it. -/
inductive Instr where
  | reset (cause : ResetCause) (detect : PerLink Bool)
  | startupImageRead
  | tick
  | samplePeriod
  | beatEdge
  | mark (l : Link) (pay : List Byte)
  | lastMarkExpiry
  | lostDeadline
  | start (l : Link) (pay : List Byte)
  | stopNow (l : Link) (extra : List Byte)
  | stopAtBar (l : Link) (extra : List Byte)
  | locate (l : Link) (pay : List Byte)
  | setTempo (l : Link) (pay : List Byte)
  | rampTempo (l : Link) (pay : List Byte)
  | setMeter (l : Link) (pay : List Byte)
  | setFollow (l : Link) (pay : List Byte)
  | writePattern (l : Link) (pay : List Byte)
  | setClick (l : Link) (pay : List Byte)
  | muteClick (l : Link) (pay : List Byte)
  | writeScene (l : Link) (pay : List Byte)
  | readScene (l : Link) (pay : List Byte)
  | loadSceneNow (l : Link) (pay : List Byte)
  | lock (l : Link) (pay : List Byte)
  | unlock (l : Link) (pay : List Byte)
  | writeCue (l : Link) (pay : List Byte)
  | readCue (l : Link) (pay : List Byte)
  | writeSong (l : Link) (pay : List Byte)
  | readSong (l : Link) (pay : List Byte)
  | writeSetlist (l : Link) (pay : List Byte)
  | readSetlist (l : Link) (pay : List Byte)
  | selectSong (l : Link) (pay : List Byte)
  | go (l : Link) (pay : List Byte)
  | setInput (l : Link) (pay : List Byte)
  | setOutput (l : Link) (pay : List Byte)
  | setWatch (l : Link) (pay : List Byte)
  | restart (l : Link) (pay : List Byte)
  | saveShow (l : Link) (pay : List Byte)
  | saveDone (e : SaveEnd)
  | loadShow (l : Link) (pay : List Byte)
  | loadDone
  | setFaultMode (l : Link) (pay : List Byte)
  | setActive (l : Link) (pay : List Byte)
  | ackFaults (l : Link) (pay : List Byte)
  | panic (l : Link) (pay : List Byte)
  | readStatus (l : Link) (pay : List Byte)
  | readFaults (l : Link) (pay : List Byte)
  | subscribe (l : Link) (pay : List Byte)
  | resync (l : Link) (pay : List Byte)
  | unknownRequest (l : Link) (code : Fin 64) (pay : List Byte)
  | echo (l : Link) (pay : List Byte)
  | hold (l : Link) (pay : List Byte)
  | resume (l : Link) (pay : List Byte)
  | holdExpiry (l : Link)
  | badClassTelegram (l : Link) (kind : Byte) (pay : List Byte)
  | badReport (l : Link) (code : Fin 64) (pay : List Byte)
  | reportDenied (l : Link) (code : Fin 64) (pay : List Byte)
  | telegramDiscard (l : Link) (e : RxEvent)
  | gapDeadline (l : Link)
  | telegramSent (l : Link)
  | detectFall (l : Link)
  | detectRise (l : Link)
  | pulseDeadline
  | resyncAllOff (x : Station)
  | resyncReplay (x : Station)
  | resyncJoined (x : Station)
  | noteOn (i : InPort) (c : Chan) (key vel : Val7)
  | noteOff (i : InPort) (c : Chan) (key vel : Val7)
  | sustainChange (i : InPort) (c : Chan) (value : Val7)
  | allNotesOff (i : InPort) (c : Chan) (value : Val7)
  | activeSensing (i : InPort)
  | sensingDeadline (i : InPort)
  | inputFramingError (i : InPort)
  | systemExclusive (i : InPort) (data : List Val7)
  | systemCommon (i : InPort) (m : SysCommon)
  | realTimeDiscard (i : InPort) (b : RealTime)
  | channelMessageDiscard (i : InPort) (c : Chan) (m : ChanMsg)
  | controlChange (i : InPort) (c : Chan) (number value : Val7)
  | channelPressure (i : InPort) (c : Chan) (value : Val7)
  | filterExpiry (k : SlotKey)
  | forwardTimeExpiry (k : SlotKey)
  | pitchBend (i : InPort) (c : Chan) (lsb msb : Val7)
  | programChange (i : InPort) (c : Chan) (program : Val7)
  | outputByteSent (o : OutPort)
  | outputDisabled (o : OutPort)
  | partialMessageByte (i : InPort) (b : Byte)
  | linkByte (l : Link) (b : Byte)
  deriving DecidableEq, Repr

end Sys2Proof
end

