-- ==== Sys2Proof/Decode.lean ====
section
/-! DEFINITION. The command a word spells by the bits of spec/opcode_table.json. The table gives none of its rows any
bits (the part takes telegrams and MIDI bytes, whose receivers are Machine/Receiver.lean and Machine/Inputs.lean), so no
word spells a command. -/

namespace Sys2Proof

/-- No row of the table has bits. -/
def decodeTableWord (_nbits _w : Nat) : Option Instr := none

end Sys2Proof
end

