-- ==== Sys2Proof/Machine/Records.lean ====
section
/-! DEFINITION. The records of the ZT408: scenes, layers, songs, cues, patterns, settings, the show image, fault
records, and the telegrams of the station links, as plain data with the names the manual gives their fields. -/

namespace Sys2Proof.Machine

/-! ## Time and position -/

/-- The transport states (R1). -/
inductive Transport where
  | stopped | counting | running | stopping
  deriving DecidableEq, Repr

/-- A position: bar (count-in bars negative), beat-in-bar, tick-in-beat (R1). -/
structure Position where
  bar : Int
  beat : Nat
  tick : Nat
  deriving DecidableEq, Repr

/-- Bar and beat-in-bar, the position carried by notices and fault records (R70, R141, R185). -/
structure BarBeat where
  bar : Int
  beat : Nat
  deriving DecidableEq, Repr

/-- The follower's source of marks (R17). -/
inductive FollowSource where
  | none | line | marks
  deriving DecidableEq, Repr

/-- The follower's states (R1). -/
inductive FollowState where
  | free | seeking | locked | freewheel
  deriving DecidableEq, Repr

/-- A ramp record: T0, T1, K and k (R1). -/
structure Ramp where
  t0 : Nat
  t1 : Nat
  len : Nat
  prog : Nat
  deriving DecidableEq, Repr

/-- The engine's pending segue: the song's tempo (absent under a follower), meter and count-in (R15). -/
structure PendingSegue where
  tempo : Option Nat
  meter : Nat
  countIn : Nat
  deriving DecidableEq, Repr

/-! ## Click -/

/-- The class a pattern position holds (R25). -/
inductive PatClass where
  | accent | normal | silent
  deriving DecidableEq, Repr

/-- One beat position of a pattern: its class and subdivision (R25). -/
structure PatPos where
  cls : PatClass
  sub : Nat
  deriving DecidableEq, Repr

/-- A click pattern: 16 positions, position 1 first (R25). -/
abbrev Pattern := List PatPos

/-- The class of a burst (R25). -/
inductive ClickClass where
  | accent | normal | sub
  deriving DecidableEq, Repr

/-- A burst in progress: class, peak Pk and sample index n (R25). -/
structure Burst where
  cls : ClickClass
  peak : Nat
  n : Nat
  deriving DecidableEq, Repr

/-- A pending change of a bus: every field optional (R25). -/
structure ClickChange where
  pattern : Option Nat
  level : Option Nat
  accent : Option Nat
  normal : Option Nat
  sub : Option Nat
  deriving DecidableEq, Repr

/-! ## Scenes -/

/-- A destination of notes and controllers (R60). -/
inductive Dest where
  | out (o : OutPort)
  | sound
  deriving DecidableEq, Repr

/-- A layer's velocity curve; FIXED carries its velocity (R60, R84). -/
inductive Curve where
  | linear | soft | hard
  | fixed (v : Nat)
  deriving DecidableEq, Repr

/-- How a layer's notes behave under a held pedal (R60). -/
inductive SustainMode where
  | follow | ignore
  deriving DecidableEq, Repr

/-- A layer's pass set: the controller classes it forwards (R60, R105). -/
structure PassSet where
  expression : Bool
  modulation : Bool
  others : Bool
  bend : Bool
  pressure : Bool
  deriving DecidableEq, Repr

/-- A layer record (R60); `chan = none` is ANY. -/
structure Layer where
  input : InPort
  chan : Option Chan
  zoneLow : Nat
  zoneHigh : Nat
  vmin : Nat
  vmax : Nat
  fade : Nat
  curve : Curve
  trim : Nat
  transpose : Int
  dest : Dest
  outChan : Chan
  sustain : SustainMode
  pass : PassSet
  lo : Nat
  hi : Nat
  deriving DecidableEq, Repr

/-- A program entry (R61). -/
structure ProgEntry where
  dest : Dest
  chan : Chan
  msb : Option Nat
  lsb : Option Nat
  program : Nat
  deriving DecidableEq, Repr

/-- A scene record (R59). -/
structure Scene where
  name : List Byte
  layers : List Layer
  programs : List ProgEntry
  deriving DecidableEq, Repr

/-- A staging's swap point (R64). -/
inductive SwapPoint where
  | now | nextBeat | nextBar | cue
  deriving DecidableEq, Repr

/-- A staging's origin: the link of a LOAD_SCENE_NOW, or a cue number (R64). -/
inductive Origin where
  | link (l : Link)
  | cue (n : Nat)
  deriving DecidableEq, Repr

/-- The occasion of a SCENE notice (R70). -/
inductive SceneCause where
  | swapped | skippedLock | lock
  deriving DecidableEq, Repr

/-! ## Songs and cues -/

/-- A song record (R118). -/
structure Song where
  name : List Byte
  firstCue : Option Nat
  tempo : Nat
  meter : Nat
  countIn : Nat
  band : Nat
  keys : Nat
  deriving DecidableEq, Repr

/-- A cue's trigger (R121). -/
inductive Trigger where
  | at (bar beat : Nat)
  | afterPrevious
  | onGo
  deriving DecidableEq, Repr

/-- The mode of a STOP (R12, R13). -/
inductive StopMode where
  | now | atBar
  deriving DecidableEq, Repr

/-- A cue's action with its operands (R121). -/
inductive CueAction where
  | nop
  | scene (n : Nat)
  | tempo (t : Nat)
  | ramp (t beats : Nat)
  | meter (b : Nat)
  | click (band keys : Option Nat)
  | program (entries : List ProgEntry)
  | marker (text : List Byte)
  | stop (mode : StopMode)
  | nextSong
  deriving DecidableEq, Repr

/-- A cue record (R121). -/
structure Cue where
  trigger : Trigger
  action : CueAction
  isEnd : Bool
  isHold : Bool
  isNotify : Bool
  lead : Nat
  next : Nat
  deriving DecidableEq, Repr

/-- The result field of a cue's status (R121). -/
inductive CueResult where
  | none | ok | late | skippedLock | following | endOfSet | fault
  deriving DecidableEq, Repr

/-- A WRITTEN cue slot: the record and its status (R121). -/
structure CueSlot where
  record : Cue
  done : Bool
  result : CueResult
  deriving DecidableEq, Repr

/-! ## Settings -/

/-- The input settings (R39); `filter = none` is OMNI. -/
structure InSettings where
  enabled : Bool
  filter : Option Chan
  average : Nat
  deadband : Nat
  interval : Nat
  deriving DecidableEq, Repr

/-- The output settings (R51). -/
structure OutSettings where
  enabled : Bool
  running : Bool
  clock : Bool
  deriving DecidableEq, Repr

/-! ## Faults -/

/-- What the Fault Log does with a class's reports (R184). -/
inductive FaultMode where
  | ignore | log | alert
  deriving DecidableEq, Repr

/-- The ten fault classes (R184). -/
inductive FaultClass where
  | frame | input | output | steal | cue | station | changeover | follow | store | startup
  deriving DecidableEq, Repr

/-- The mode of each fault class (R184). -/
structure FaultModes where
  frame : FaultMode
  input : FaultMode
  output : FaultMode
  steal : FaultMode
  cue : FaultMode
  station : FaultMode
  changeover : FaultMode
  follow : FaultMode
  store : FaultMode
  startup : FaultMode
  deriving DecidableEq, Repr

/-- A fault: a detail, which fixes its class (R190's table of detail codes). -/
inductive FaultKind where
  | badCheck | length | line | gap | badClass | inboundDrop | badReport | reportDenied | noticeDrop
  | framing | sensingLost
  | voiceCap | full
  | stealSustained | stealHeld
  | late | chainLimit | chaseLimit | emptyCue | emptySong
  | suspect | lost | overflow | requested | disconnected
  | switched | noSpare | changeLate
  | followLost
  | write | verify | blank | check
  | powerOn | resetLine
  deriving DecidableEq, Repr

/-- The link or port a fault record names (R185). -/
inductive FaultPort where
  | link (l : Link)
  | input (i : InPort)
  | output (o : OutPort)
  deriving DecidableEq, Repr

/-- A fault record (R185). -/
structure FaultRecord where
  number : Nat
  kind : FaultKind
  port : Option FaultPort
  pos : Option BarBeat
  time : Nat
  repeats : Nat
  acked : Bool
  deriving DecidableEq, Repr

/-! ## The show image -/

/-- A sparse table: its WRITTEN slots by number, numbers strictly rising; a number not listed is an EMPTY slot. -/
abbrev Table (α : Type) := List (Nat × α)

/-- The show image (R180): cues without statuses, and `none` for a pattern that is blank or unreadable (R26). -/
structure ShowImage where
  scenes : Table Scene
  cues : Table Cue
  songs : Table Song
  setlist : List Nat
  patterns : Table (Option Pattern)
  inputs : PerIn InSettings
  outputs : PerOut OutSettings
  limit : Nat
  modes : FaultModes
  deriving DecidableEq, Repr

/-- The image status (R180). -/
inductive ImageStatus where
  | valid | blank | invalid
  deriving DecidableEq, Repr

/-- What the serial flash holds: no image, an image with its stored CRC-16, or bytes that are no image of a show
and fail their check (R180). -/
inductive Flash where
  | blank
  | image (show_ : ShowImage) (crc : BitVec 16)
  | garbled
  deriving DecidableEq, Repr

/-! ## Sound stations and notices -/

/-- The states of a sound station (R163). -/
inductive StationState where
  | absent | down | joining | up | suspect
  deriving DecidableEq, Repr

/-- The cause of an ACTIVE notice (R175). -/
inductive ActiveCause where
  | first | loss | return | request
  deriving DecidableEq, Repr

/-- What an EVENT notice tells a sound station (11.3); program banks are absent where `none`. -/
inductive EventKind where
  | noteOn (key vel : Nat)
  | noteOff (key vel : Nat)
  | control (number value : Nat)
  | pressure (value : Nat)
  | bend (value : Nat)
  | program (program : Nat) (msb lsb : Option Nat)
  deriving DecidableEq, Repr

/-- An EVENT notice: live or replayed by a resync walk, on an out channel (11.3). -/
structure Event where
  replay : Bool
  chan : Chan
  kind : EventKind
  deriving DecidableEq, Repr

/-- The occasion of a STORE notice (R190). -/
inductive StoreOccasion where
  | save | load | startup
  deriving DecidableEq, Repr

/-- The notices (R155, R190); an action is carried by its code (11.4). -/
inductive Notice where
  | event (e : Event)
  | pulse (n : Nat)
  | allOff
  | joined
  | beat (bar : Int) (beat meter tempo : Nat) (tr : Transport)
  | tempo (tempo : Nat) (target : Option Nat) (src : FollowSource) (st : FollowState)
  | transport (tr : Transport) (pos : Position) (meter tempo : Nat)
  | scene (cause : SceneCause) (live due : Option Nat) (origin : Option Origin) (lock : Option Link) (pos : Option BarBeat)
  | cueNear (cue bar beat : Nat) (remaining : Int) (action : Nat) (scene : Option Nat)
  | cueDone (cue : Nat) (result : CueResult) (action : Nat) (pos : Option BarBeat)
  | marker (cue : Nat) (text : List Byte) (pos : Option BarBeat)
  | active (active : Option Station) (cause : ActiveCause) (a b : StationState)
  | fault (r : FaultRecord)
  | store (occasion : StoreOccasion) (ok : Bool)
  deriving DecidableEq, Repr

/-- The notice groups of a subscription mask (R159). -/
structure Mask where
  beat : Bool
  tempo : Bool
  transport : Bool
  scene : Bool
  cue : Bool
  fault : Bool
  active : Bool
  deriving DecidableEq, Repr

/-- The result codes (R152), in the order R189 numbers them. -/
inductive ResultCode where
  | done | clamped | accepted | already | denied | busy | retry | state | range | bad | empty
  deriving DecidableEq, Repr

/-- A telegram the part sends: the answer to a request of a kind code, with the data bytes after its result code
(R189), or a notice. -/
inductive Telegram where
  | answer (code : Nat) (result : ResultCode) (data : List Byte)
  | notice (n : Notice)
  deriving DecidableEq, Repr

/-! ## MIDI messages and held notes -/

/-- A message bound for a MIDI output (R51). -/
inductive OutMsg where
  | noteOn (c : Chan) (key vel : Nat)
  | noteOff (c : Chan) (key vel : Nat)
  | control (c : Chan) (number value : Nat)
  | program (c : Chan) (program : Nat)
  | pressure (c : Chan) (value : Nat)
  | bend (c : Chan) (value : Nat)
  deriving DecidableEq, Repr

/-- A waiting message, with the mark that says whether it may be coalesced (R51, R54). -/
structure QMsg where
  msg : OutMsg
  coal : Bool
  deriving DecidableEq, Repr

/-- A target of a held entry (R79). -/
structure Target where
  dest : Dest
  chan : Chan
  key : Nat
  vel : Nat
  sustain : SustainMode
  deriving DecidableEq, Repr

/-- A held entry's state; SUSTAINED records the release velocity (R79). -/
inductive HeldState where
  | held
  | sustained (rel : Nat)
  deriving DecidableEq, Repr

/-- A held entry (R79); `pend` is its replay-pending set. -/
structure HeldEntry where
  input : InPort
  chan : Chan
  key : Nat
  state : HeldState
  targets : List Target
  pend : PerStation Bool
  deriving DecidableEq, Repr

/-- A filter slot in use (R106). -/
structure Slot where
  key : SlotKey
  history : List Nat
  latest : Nat
  lastFwd : Option Nat
  lastTime : Option Stamp
  deadline : Option Stamp
  deriving DecidableEq, Repr

end Sys2Proof.Machine
end

