-- ==== Sys2Proof/Config.lean ====
section
/-! DEFINITION. What is fixed for the part: its limits and tables, and the FREE VALUES, opaque constants without a
body for what the manual leaves open (each named in notes/assumptions). -/

namespace Sys2Proof.Config

/-- M, the modulus of the phase accumulator (R1). -/
def modulus : Nat := 12500000

/-- Lowest and highest tempo, in centi-BPM (R1). -/
def tempoMin : Nat := 3000
def tempoMax : Nat := 30000

/-- Ticks to a beat (00_scope.md, Musical time). -/
def ticksPerBeat : Nat := 480

/-- Places in a station outbound queue (R144), and the free count a notice needs (R154). -/
def linkQueue : Nat := 128
def noticeRoom : Nat := 16

/-- Places for messages other than note-offs in an output queue, and sounding targets of an output (R52). -/
def outTier : Nat := 64

/-- Real-time bytes an output's list holds (R23). -/
def realTimeRoom : Nat := 8

/-- Entries of the held-note table (R79), filter slots (R106), fault records (R185). -/
def heldRoom : Nat := 128
def slotRoom : Nat := 32
def faultRoom : Nat := 32

/-- The multiplier, in 1/256, for a level in decibels (00_scope.md, Levels). -/
def multiplier (db : Nat) : Nat :=
  [256, 228, 203, 181, 162, 144, 128, 114, 102, 91, 81, 72, 64].getD db 64

/-- FREE VALUE: which of the events due in one microsecond is taken first, given a fresh count
(notes/assumptions/2.md). -/
opaque pick : Nat → Nat

/-- FREE VALUE: in which order the blocks take one beat event, given a fresh count (notes/assumptions/3.md). -/
opaque beatOrder : Nat → Nat

/-- FREE VALUE: whether sound station A's share of one step is taken before B's, given a fresh count
(notes/assumptions/4.md). -/
opaque aFirst : Nat → Bool

/-- FREE VALUE: whether a save that a reset abandons had got no further than its erase, given a fresh count
(notes/assumptions/5.md). -/
opaque abandonedBlank : Nat → Bool

/-- FREE VALUE: the bytes of a show image in the flash, whose layout the manual does not give
(notes/assumptions/6.md). -/
opaque imageBytes : Machine.ShowImage → List Byte

end Sys2Proof.Config
end

