-- ==== Sys2Proof/Machine/State.lean ====
section
/-! DEFINITION. The state of the ZT408, block by block, as plain data, and its value after a reset. Fields that are
the model's own, not the manual's, say so. -/

namespace Sys2Proof.Machine

/-- The Tempo Engine (R1). `tickOwed` is the model's own: this microsecond's addition has passed M and its tick has
not been taken yet. -/
structure TempoEngine where
  tempo : Nat
  acc : Nat
  pos : Position
  meter : Nat
  pendingMeter : Option Nat
  countIn : Nat
  ramp : Option Ramp
  segue : Option PendingSegue
  transport : Transport
  clockCount : Nat
  source : FollowSource
  follow : FollowState
  history : List Nat
  lastMark : Option Stamp
  lostDeadline : Option Stamp
  tickOwed : Bool
  deriving DecidableEq, Repr

/-- One click bus (R25). `sample` is the sample the bus is sending in the present sample period (R34). -/
structure ClickBus where
  pattern : Nat
  level : Nat
  accent : Nat
  normal : Nat
  sub : Nat
  mute : Bool
  change : Option ClickChange
  subdiv : Nat
  subCount : Nat
  burst : Option Burst
  sample : Int
  deriving DecidableEq, Repr

/-- The Click Generator (R25). The pattern table lists the patterns that differ from the default pattern. -/
structure ClickGen where
  patterns : Table Pattern
  buses : PerBus ClickBus
  deriving DecidableEq, Repr

/-- A MIDI input's skip record (R39). -/
inductive Skip where
  | none
  | sysex
  | common (left : Nat)
  deriving DecidableEq, Repr

/-- A partial message: a channel status byte and the data bytes collected (R39). -/
structure Partial where
  status : Byte
  data : List Byte
  deriving DecidableEq, Repr

/-- The sensing states (R39). -/
inductive Sensing where
  | unwatched | watched | lost
  deriving DecidableEq, Repr

/-- One MIDI input (R39). Bit n - 1 of `sustain` is set while channel n's sustain is down. -/
structure MidiIn where
  settings : InSettings
  running : Option Byte
  collected : Option Partial
  skip : Skip
  sustain : BitVec 16
  sensing : Sensing
  deadline : Option Stamp
  deriving DecidableEq, Repr

/-- The output states (R51). -/
inductive OutMode where
  | enabled | draining | disabled
  deriving DecidableEq, Repr

/-- The message in transmission and the bytes of it still to be put on the line (R51). -/
structure OutTx where
  msg : OutMsg
  left : List Byte
  deriving DecidableEq, Repr

/-- The byte now on an output's line and the stamp at which it finishes (R55). -/
structure LineByte where
  byte : Byte
  ends : Stamp
  deriving DecidableEq, Repr

/-- One MIDI output (R51). `line` holds the byte being sent; `none` is an idle line (R55). -/
structure MidiOut where
  settings : OutSettings
  mode : OutMode
  queue : List QMsg
  tx : Option OutTx
  realTime : List Byte
  statusMem : Option Byte
  sounding : Nat
  line : Option LineByte
  deriving DecidableEq, Repr

/-- The live map: layers, and the scene they were copied from (R64). -/
structure LiveMap where
  layers : List Layer
  scene : Option Nat
  deriving DecidableEq, Repr

/-- A staging (R64). -/
structure Staging where
  record : Scene
  scene : Nat
  point : SwapPoint
  origin : Origin
  deriving DecidableEq, Repr

/-- A cue claim: a cue waiting for the staged map to empty (R64, R71). -/
structure CueClaim where
  cue : Nat
  scene : Nat
  deriving DecidableEq, Repr

/-- The Layer Router (R64, R79, R106). `slots` is the recency list of the slots in use, least recently used first;
the other slots of the 32 are EMPTY. `lock = none` is FREE. -/
structure LayerRouter where
  live : LiveMap
  staged : Option Staging
  claim : Option CueClaim
  lock : Option Link
  held : List HeldEntry
  slots : List Slot
  deriving DecidableEq, Repr

/-- The sequencer states (R123). -/
inductive SeqState where
  | idle | waiting | held | ended
  deriving DecidableEq, Repr

/-- A cue number with a latched copy of its record (R123). -/
structure Latched where
  cue : Nat
  record : Cue
  deriving DecidableEq, Repr

/-- The sequencer's segue record (R123). -/
structure SegueRecord where
  pos : Nat
  song : Nat
  firstCue : Option Nat
  band : Nat
  keys : Nat
  deriving DecidableEq, Repr

/-- The Cue Sequencer (R59, R118, R120, R121, R123). -/
structure CueSeq where
  scenes : Table Scene
  cues : Table CueSlot
  songs : Table Song
  setlist : List Nat
  setPos : Option Nat
  song : Option Nat
  state : SeqState
  current : Option Latched
  chained : Bool
  leadSent : Bool
  latchedNext : Option Latched
  goPending : Bool
  boundary : Nat
  segue : Option SegueRecord
  deferred : Option Nat
  deriving DecidableEq, Repr

/-- The telegram in transmission, its bytes not yet sent in full, and the stamp at which the first of them finishes
(R156). -/
structure LinkTx where
  telegram : Telegram
  left : List Byte
  byteEnds : Stamp
  deriving DecidableEq, Repr

/-- One station link (R144). `hold = some e` is HELD with expiry e; `high` is the connection; `collecting` the
receiver state. -/
structure LinkState where
  high : Bool
  collecting : Bool
  collected : List Byte
  rescan : List Byte
  gap : Option Stamp
  queue : List Telegram
  tx : Option LinkTx
  hold : Option Stamp
  mask : Mask
  deriving DecidableEq, Repr

/-- The resync phase of a station (R163). -/
inductive Phase where
  | none | clearing | replaying
  deriving DecidableEq, Repr

/-- One sound station as the watch sees it (R163). -/
structure StationRec where
  state : StationState
  miss : Nat
  awaited : Option Nat
  echoed : Bool
  phase : Phase
  deriving DecidableEq, Repr

/-- The Sound Station Watch (R163). -/
structure Watch where
  stations : PerStation StationRec
  pulse : Nat
  deadline : Stamp
  limit : Nat
  active : Option Station
  audioHigh : Bool
  deriving DecidableEq, Repr

/-- What the Show Store is doing (R181, R182): a save holds the copy it took at its acceptance. -/
inductive StoreOp where
  | none
  | saving (copy : ShowImage)
  | loading
  deriving DecidableEq, Repr

/-- The Show Store (R180), with what the serial flash beside the part holds. -/
structure ShowStore where
  status : ImageStatus
  op : StoreOp
  flash : Flash
  deriving DecidableEq, Repr

/-- The Fault Log (R184 to R186). `alert` is the ALERT line. -/
structure FaultLog where
  records : List FaultRecord
  counter : Nat
  modes : FaultModes
  alert : Bool
  deriving DecidableEq, Repr

/-- The ZT408. `ready` is the part state; `micros` counts the microseconds since the end of reset (its low 32 bits
are the microsecond counter); `cause` is the cause of the last reset. `choices`, the count that makes each free
value fresh, and `pending`, the commands waiting, are the model's own. -/
structure State where
  te : TempoEngine
  ck : ClickGen
  ip : PerIn MidiIn
  op : PerOut MidiOut
  lr : LayerRouter
  cs : CueSeq
  sl : PerLink LinkState
  sw : Watch
  st : ShowStore
  fl : FaultLog
  ready : Bool
  micros : Nat
  cause : ResetCause
  choices : Nat
  pending : List Instr
  deriving DecidableEq, Repr

/-- Reasons for the machine to stop with a fault. There is none: no rule of the manual stops the part, and every
command has an effect (faults of the rig are records of the Fault Log, not stops). -/
inductive Fault where
  deriving DecidableEq, Repr

/-- Reasons to answer no meaning. -/
inductive Refusal where
  /-- Raised by an arm of `exec` whose command has no meaning yet (safe); no arm raises it now. -/
  | notModelled (mnemonic : String)
  deriving DecidableEq, Repr

/-! ## The reset values -/

/-- The Tempo Engine after a reset (R1). -/
def TempoEngine.reset : TempoEngine :=
  { tempo := 12000, acc := 0, pos := ⟨1, 1, 0⟩, meter := 4, pendingMeter := none, countIn := 0, ramp := none,
    segue := none, transport := .stopped, clockCount := 0, source := .none, follow := .free, history := [],
    lastMark := none, lostDeadline := none, tickOwed := false }

/-- A click bus after a reset (R25). -/
def ClickBus.reset : ClickBus :=
  { pattern := 0, level := 0, accent := 0, normal := 0, sub := 0, mute := false, change := none, subdiv := 1,
    subCount := 0, burst := none, sample := 0 }

/-- The input settings after a reset (R39). -/
def InSettings.reset : InSettings :=
  { enabled := true, filter := none, average := 1, deadband := 0, interval := 0 }

/-- A MIDI input after a reset (R39). -/
def MidiIn.reset : MidiIn :=
  { settings := InSettings.reset, running := none, collected := none, skip := .none, sustain := 0#16,
    sensing := .unwatched, deadline := none }

/-- A MIDI output after a reset (R51). -/
def MidiOut.reset : MidiOut :=
  { settings := { enabled := true, running := false, clock := false }, mode := .enabled, queue := [], tx := none,
    realTime := [], statusMem := none, sounding := 0, line := none }

/-- The Layer Router after a reset (R64, R79, R106). -/
def LayerRouter.reset : LayerRouter :=
  { live := ⟨[], none⟩, staged := none, claim := none, lock := none, held := [], slots := [] }

/-- The Cue Sequencer after a reset (R59, R118, R120, R121, R123). -/
def CueSeq.reset : CueSeq :=
  { scenes := [], cues := [], songs := [], setlist := [], setPos := none, song := none, state := .idle,
    current := none, chained := false, leadSent := false, latchedNext := none, goPending := false, boundary := 0,
    segue := none, deferred := none }

/-- The default subscription mask: all groups except BEAT and TEMPO (R144). -/
def Mask.default : Mask :=
  { beat := false, tempo := false, transport := true, scene := true, cue := true, fault := true, active := true }

/-- A station link after a reset, before its DETECT is sampled (R144). -/
def LinkState.reset : LinkState :=
  { high := false, collecting := false, collected := [], rescan := [], gap := none, queue := [], tx := none,
    hold := none, mask := Mask.default }

/-- A sound station after a reset (R163). -/
def StationRec.reset : StationRec :=
  { state := .absent, miss := 0, awaited := none, echoed := false, phase := .none }

/-- The Sound Station Watch after a reset (R163). -/
def Watch.reset : Watch :=
  { stations := ⟨StationRec.reset, StationRec.reset⟩, pulse := 0, deadline := 50000#32, limit := 6, active := none,
    audioHigh := false }

/-- The default modes of the fault classes (R184). -/
def FaultModes.reset : FaultModes :=
  { frame := .log, input := .log, output := .log, steal := .log, cue := .log, station := .alert,
    changeover := .alert, follow := .alert, store := .alert, startup := .log }

/-- The Fault Log after a reset (R184 to R186). -/
def FaultLog.reset : FaultLog :=
  { records := [], counter := 0, modes := FaultModes.reset, alert := false }

/-- The part right after a power-on reset, STARTING, with no DETECT high. The manual states no content of the flash
and no value of the microsecond counter at reset: a blank flash (notes/assumptions/7.md) and a counter of 0
(notes/assumptions/1.md) are the model's. -/
def State.reset : State :=
  { te := TempoEngine.reset
    ck := { patterns := [], buses := ⟨ClickBus.reset, ClickBus.reset⟩ }
    ip := ⟨MidiIn.reset, MidiIn.reset, MidiIn.reset, MidiIn.reset, MidiIn.reset, MidiIn.reset⟩
    op := ⟨MidiOut.reset, MidiOut.reset, MidiOut.reset, MidiOut.reset⟩
    lr := LayerRouter.reset
    cs := CueSeq.reset
    sl := ⟨LinkState.reset, LinkState.reset, LinkState.reset, LinkState.reset⟩
    sw := Watch.reset
    st := { status := .blank, op := .none, flash := .blank }
    fl := FaultLog.reset
    ready := false
    micros := 0
    cause := .powerOn
    choices := 0
    pending := [] }

end Sys2Proof.Machine
end

