-- ==== Sys2Proof/Machine/Ops.lean ====
section
/-! DEFINITION. The named operations over the state's containers, tables and clock: one port's record, one slot of a
sparse table, stamps and deadlines, the position a record carries. -/

namespace Sys2Proof

/-! ## One value per port -/

def PerLink.get {α : Type} (p : PerLink α) : Link → α
  | .s0 => p.s0
  | .s1 => p.s1
  | .s2 => p.s2
  | .s3 => p.s3

def PerLink.set {α : Type} (p : PerLink α) (l : Link) (x : α) : PerLink α :=
  match l with
  | .s0 => { p with s0 := x }
  | .s1 => { p with s1 := x }
  | .s2 => { p with s2 := x }
  | .s3 => { p with s3 := x }

def PerIn.get {α : Type} (p : PerIn α) : InPort → α
  | .in0 => p.in0
  | .in1 => p.in1
  | .in2 => p.in2
  | .in3 => p.in3
  | .in4 => p.in4
  | .in5 => p.in5

def PerIn.set {α : Type} (p : PerIn α) (i : InPort) (x : α) : PerIn α :=
  match i with
  | .in0 => { p with in0 := x }
  | .in1 => { p with in1 := x }
  | .in2 => { p with in2 := x }
  | .in3 => { p with in3 := x }
  | .in4 => { p with in4 := x }
  | .in5 => { p with in5 := x }

def PerIn.map {α β : Type} (f : α → β) (p : PerIn α) : PerIn β :=
  ⟨f p.in0, f p.in1, f p.in2, f p.in3, f p.in4, f p.in5⟩

def PerOut.get {α : Type} (p : PerOut α) : OutPort → α
  | .out0 => p.out0
  | .out1 => p.out1
  | .out2 => p.out2
  | .out3 => p.out3

def PerOut.set {α : Type} (p : PerOut α) (o : OutPort) (x : α) : PerOut α :=
  match o with
  | .out0 => { p with out0 := x }
  | .out1 => { p with out1 := x }
  | .out2 => { p with out2 := x }
  | .out3 => { p with out3 := x }

def PerOut.map {α β : Type} (f : α → β) (p : PerOut α) : PerOut β :=
  ⟨f p.out0, f p.out1, f p.out2, f p.out3⟩

def PerStation.get {α : Type} (p : PerStation α) : Station → α
  | .a => p.a
  | .b => p.b

def PerStation.set {α : Type} (p : PerStation α) (x : Station) (v : α) : PerStation α :=
  match x with
  | .a => { p with a := v }
  | .b => { p with b := v }

def PerBus.get {α : Type} (p : PerBus α) : Bus → α
  | .band => p.band
  | .keys => p.keys

def PerBus.set {α : Type} (p : PerBus α) (b : Bus) (x : α) : PerBus α :=
  match b with
  | .band => { p with band := x }
  | .keys => { p with keys := x }

def PerBus.map {α β : Type} (f : α → β) (p : PerBus α) : PerBus β := ⟨f p.band, f p.keys⟩

/-- The ports of each kind in the order the manual lists them. -/
def allLinks : List Link := [.s0, .s1, .s2, .s3]
def allIns : List InPort := [.in0, .in1, .in2, .in3, .in4, .in5]
def allOuts : List OutPort := [.out0, .out1, .out2, .out3]
def allStations : List Station := [.a, .b]
def allChans : List Chan := List.ofFn (fun c : Fin 16 => c)

/-- The link of a sound station: A on S0, B on S1 (00_scope.md, The station roles). -/
def Station.link : Station → Link
  | .a => .s0
  | .b => .s1

def Station.other : Station → Station
  | .a => .b
  | .b => .a

/-- The sound station on a link, if any. -/
def Link.station : Link → Option Station
  | .s0 => some .a
  | .s1 => some .b
  | .s2 => none
  | .s3 => none

end Sys2Proof

namespace Sys2Proof.Machine

/-! ## Sparse tables -/

/-- The record of slot `k`, `none` for an EMPTY slot. -/
def Table.look {α : Type} (t : Table α) (k : Nat) : Option α :=
  match t with
  | [] => none
  | (j, x) :: r => if j = k then some x else Table.look r k

/-- Slot `k` becomes WRITTEN with `x`; the numbers stay strictly rising. -/
def Table.put {α : Type} (t : Table α) (k : Nat) (x : α) : Table α :=
  match t with
  | [] => [(k, x)]
  | (j, y) :: r => if k < j then (k, x) :: (j, y) :: r else if k = j then (k, x) :: r else (j, y) :: Table.put r k x

/-- Slot `k` is no longer listed. -/
def Table.erase {α : Type} (t : Table α) (k : Nat) : Table α :=
  match t with
  | [] => []
  | (j, y) :: r => if j = k then r else (j, y) :: Table.erase r k

/-- The canonical form: slot numbers strictly rising. -/
def Table.sorted {α : Type} (t : Table α) : Bool :=
  match t with
  | [] => true
  | (j, _) :: r => (match r with | [] => true | (k, _) :: _ => decide (j < k)) && Table.sorted r

/-! ## One port's record in the state -/

def State.link (s : State) (l : Link) : LinkState := s.sl.get l
def State.setLink (s : State) (l : Link) (x : LinkState) : State := { s with sl := s.sl.set l x }
def State.midiIn (s : State) (i : InPort) : MidiIn := s.ip.get i
def State.setIn (s : State) (i : InPort) (x : MidiIn) : State := { s with ip := s.ip.set i x }
def State.midiOut (s : State) (o : OutPort) : MidiOut := s.op.get o
def State.setOut (s : State) (o : OutPort) (x : MidiOut) : State := { s with op := s.op.set o x }
def State.station (s : State) (x : Station) : StationRec := s.sw.stations.get x
def State.setStation (s : State) (x : Station) (r : StationRec) : State :=
  { s with sw := { s.sw with stations := s.sw.stations.set x r } }
def State.bus (s : State) (b : Bus) : ClickBus := s.ck.buses.get b
def State.setBus (s : State) (b : Bus) (x : ClickBus) : State := { s with ck := { s.ck with buses := s.ck.buses.set b x } }

/-! ## Time -/

/-- The 32-bit microsecond counter (00_scope.md, Time). -/
def State.now (s : State) : Stamp := BitVec.ofNat 32 s.micros

/-- A stamp some microseconds after another. -/
def stampAfter (t : Stamp) (us : Nat) : Stamp := t + BitVec.ofNat 32 us

/-- The interval from `t` to `now`, modulo 2^32 (00_scope.md, Time). -/
def stampSince (now t : Stamp) : Nat := (now - t).toNat

/-- A deadline has been reached: the counter stands at it or less than half its range past it
(DEDUCED, notes/assumptions/12.md). -/
def stampReached (now d : Stamp) : Bool := decide ((now - d).toNat < 2147483648)

/-- Milliseconds since the end of reset, modulo 2^32 (R185). -/
def State.millis (s : State) : Nat := s.micros / 1000 % 4294967296

/-- The transport is ticking while COUNTING, RUNNING or STOPPING (R1). -/
def Transport.ticking : Transport → Bool
  | .stopped => false
  | .counting => true
  | .running => true
  | .stopping => true

def State.ticking (s : State) : Bool := s.te.transport.ticking

/-- The position a notice or fault record carries: none while STOPPED (R70, R185). -/
def State.barBeat (s : State) : Option BarBeat :=
  if s.ticking then some ⟨s.te.pos.bar, s.te.pos.beat⟩ else none

/-- A fresh count for a free value. -/
def State.choose (s : State) : State := { s with choices := s.choices + 1 }

/-! ## The empty records (R59, R119, R121) and the default pattern (R26) -/

def Scene.empty : Scene := { name := [], layers := [], programs := [] }

def Song.empty : Song :=
  { name := [], firstCue := none, tempo := 12000, meter := 4, countIn := 0, band := 0, keys := 0 }

def Cue.empty : Cue :=
  { trigger := .onGo, action := .nop, isEnd := false, isHold := false, isNotify := false, lead := 0, next := 0 }

def CueSlot.empty : CueSlot := { record := Cue.empty, done := false, result := .none }

/-- ACCENT with subdivision 1 at position 1, NORMAL with subdivision 1 at positions 2 to 16 (R26). -/
def defaultPattern : Pattern := ⟨.accent, 1⟩ :: List.replicate 15 ⟨.normal, 1⟩

/-- A pattern of the table: a pattern not listed is the default pattern. -/
def patternAt (t : Table Pattern) (n : Nat) : Pattern := (Table.look t n).getD defaultPattern

/-- One pattern of the table replaced; the default pattern is held by not listing it. -/
def setPattern (t : Table Pattern) (n : Nat) (p : Pattern) : Table Pattern :=
  if p = defaultPattern then Table.erase t n else Table.put t n p

/-- A scene of the scene table, the empty scene for an EMPTY slot (R59). -/
def State.sceneAt (s : State) (n : Nat) : Scene := (Table.look s.cs.scenes n).getD Scene.empty

/-! ## Fault classes and modes (R184) -/

def FaultKind.cls : FaultKind → FaultClass
  | .badCheck | .length | .line | .gap | .badClass | .inboundDrop | .badReport | .reportDenied | .noticeDrop => .frame
  | .framing | .sensingLost => .input
  | .voiceCap | .full => .output
  | .stealSustained | .stealHeld => .steal
  | .late | .chainLimit | .chaseLimit | .emptyCue | .emptySong => .cue
  | .suspect | .lost | .overflow | .requested | .disconnected => .station
  | .switched | .noSpare | .changeLate => .changeover
  | .followLost => .follow
  | .write | .verify | .blank | .check => .store
  | .powerOn | .resetLine => .startup

def FaultModes.get (m : FaultModes) : FaultClass → FaultMode
  | .frame => m.frame
  | .input => m.input
  | .output => m.output
  | .steal => m.steal
  | .cue => m.cue
  | .station => m.station
  | .changeover => m.changeover
  | .follow => m.follow
  | .store => m.store
  | .startup => m.startup

def FaultModes.set (m : FaultModes) (c : FaultClass) (x : FaultMode) : FaultModes :=
  match c with
  | .frame => { m with frame := x }
  | .input => { m with input := x }
  | .output => { m with output := x }
  | .steal => { m with steal := x }
  | .cue => { m with cue := x }
  | .station => { m with station := x }
  | .changeover => { m with changeover := x }
  | .follow => { m with follow := x }
  | .store => { m with store := x }
  | .startup => { m with startup := x }

end Sys2Proof.Machine
end

