-- ==== Sys2Proof/Machine/Formats.lean ====
section
/-! DEFINITION. How the part writes telegrams and records as bytes (chapter 11), the CRC-8 of a telegram (R145) and
the CRC-16 of a show image (R180). -/

namespace Sys2Proof.Machine

/-! ## Numbers as bytes: most significant byte first, two's complement (R188) -/

def byte (n : Nat) : Byte := BitVec.ofNat 8 n
def be16 (n : Nat) : List Byte := [byte (n / 256), byte n]
def be32 (n : Nat) : List Byte := [byte (n / 16777216), byte (n / 65536), byte (n / 256), byte n]
def int8 (x : Int) : Byte := byte (x % 256).toNat
def int16 (x : Int) : List Byte := be16 (x % 65536).toNat
def int32 (x : Int) : List Byte := be32 (x % 4294967296).toNat

def flag (b : Bool) : Byte := if b then 1 else 0

/-- An optional one-byte field: FFh when absent (R188). -/
def optByte (n : Option Nat) : Byte := byte (n.getD 255)

/-- A field that may be NONE and ranges over 0 to 255: two bytes, FFFFh for NONE (R188). -/
def optWord (n : Option Nat) : List Byte := be16 (n.getD 65535)

/-- A channel as 1 to 16; ANY or OMNI as 0 (R188). -/
def chanByte (c : Chan) : Byte := byte (c.val + 1)
def optChan : Option Chan → Byte
  | none => 0
  | some c => chanByte c

/-- Bit n of a set of flags. -/
def bits (bs : List Bool) : Nat := bs.foldr (fun b n => b.toNat + 2 * n) 0

/-- A position: bar 8000h and beat 0 when absent (R190). -/
def optPos : Option BarBeat → List Byte
  | none => be16 0x8000 ++ [0]
  | some p => int16 p.bar ++ [byte p.beat]

/-! ## Codes of named values (R189, R190) -/

def ResultCode.code : ResultCode → Nat
  | .done => 0 | .clamped => 1 | .accepted => 2 | .already => 3 | .denied => 4 | .busy => 5 | .retry => 6
  | .state => 7 | .range => 8 | .bad => 9 | .empty => 10

def Transport.code : Transport → Nat
  | .stopped => 0 | .counting => 1 | .running => 2 | .stopping => 3

def FollowSource.code : FollowSource → Nat
  | .none => 0 | .line => 1 | .marks => 2

def FollowState.code : FollowState → Nat
  | .free => 0 | .seeking => 1 | .locked => 2 | .freewheel => 3

def Sensing.code : Sensing → Nat
  | .unwatched => 0 | .watched => 1 | .lost => 2

def OutMode.code : OutMode → Nat
  | .enabled => 0 | .draining => 1 | .disabled => 2

def SwapPoint.code : SwapPoint → Nat
  | .now => 0 | .nextBeat => 1 | .nextBar => 2 | .cue => 3

/-- The lock holder: FREE, S0, S1, S3; S2 never holds the lock (R64) and has no code. -/
def lockCode : Option Link → Nat
  | none => 0 | some .s0 => 1 | some .s1 => 2 | some .s3 => 3 | some .s2 => 255

def SceneCause.code : SceneCause → Nat
  | .swapped => 0 | .skippedLock => 1 | .lock => 2

def SeqState.code : SeqState → Nat
  | .idle => 0 | .waiting => 1 | .held => 2 | .ended => 3

def StationState.code : StationState → Nat
  | .absent => 0 | .down => 1 | .joining => 2 | .up => 3 | .suspect => 4

def activeCode : Option Station → Nat
  | none => 255 | some .a => 0 | some .b => 1

def ActiveCause.code : ActiveCause → Nat
  | .first => 0 | .loss => 1 | .return => 2 | .request => 3

def ImageStatus.code : ImageStatus → Nat
  | .valid => 0 | .blank => 1 | .invalid => 2

def StoreOccasion.code : StoreOccasion → Nat
  | .save => 0 | .load => 1 | .startup => 2

def CueResult.code : CueResult → Nat
  | .none => 0 | .ok => 1 | .late => 2 | .skippedLock => 3 | .following => 4 | .endOfSet => 5 | .fault => 6

/-- Action codes, in the order of R121's table (11.4). -/
def CueAction.code : CueAction → Nat
  | .nop => 0 | .scene _ => 1 | .tempo _ => 2 | .ramp _ _ => 3 | .meter _ => 4 | .click _ _ => 5 | .program _ => 6
  | .marker _ => 7 | .stop _ => 8 | .nextSong => 9

def FaultClass.code : FaultClass → Nat
  | .frame => 0 | .input => 1 | .output => 2 | .steal => 3 | .cue => 4 | .station => 5 | .changeover => 6
  | .follow => 7 | .store => 8 | .startup => 9

/-- Detail codes within a class (R190). -/
def FaultKind.code : FaultKind → Nat
  | .badCheck => 0 | .length => 1 | .line => 2 | .gap => 3 | .badClass => 4 | .inboundDrop => 5 | .badReport => 6
  | .reportDenied => 7 | .noticeDrop => 8
  | .framing => 0 | .sensingLost => 1
  | .voiceCap => 0 | .full => 1
  | .stealSustained => 0 | .stealHeld => 1
  | .late => 0 | .chainLimit => 1 | .chaseLimit => 2 | .emptyCue => 3 | .emptySong => 4
  | .suspect => 0 | .lost => 1 | .overflow => 2 | .requested => 3 | .disconnected => 4
  | .switched => 0 | .noSpare => 1 | .changeLate => 2
  | .followLost => 0
  | .write => 0 | .verify => 1 | .blank => 2 | .check => 3
  | .powerOn => 0 | .resetLine => 1

def Link.code : Link → Nat
  | .s0 => 0 | .s1 => 1 | .s2 => 2 | .s3 => 3

def InPort.code : InPort → Nat
  | .in0 => 0 | .in1 => 1 | .in2 => 2 | .in3 => 3 | .in4 => 4 | .in5 => 5

def OutPort.code : OutPort → Nat
  | .out0 => 0 | .out1 => 1 | .out2 => 2 | .out3 => 3

/-- A fault record's link or port (11.4). -/
def portCode : Option FaultPort → Nat
  | none => 255
  | some (.link l) => Link.code l
  | some (.input i) => 16 + InPort.code i
  | some (.output o) => 32 + OutPort.code o

/-- An origin: 00h and the link, 01h and the cue number, FFFFh for NONE (R188). -/
def originBytes : Option Origin → List Byte
  | none => [0xFF, 0xFF]
  | some (.link l) => [0, byte (Link.code l)]
  | some (.cue n) => [1, byte n]

/-! ## Records (11.4) -/

def Dest.code : Dest → Nat
  | .out o => OutPort.code o
  | .sound => 4

def PassSet.code (p : PassSet) : Nat := bits [p.expression, p.modulation, p.others, p.bend, p.pressure]

def curveBytes : Curve → List Byte
  | .linear => [0, 0]
  | .soft => [1, 0]
  | .hard => [2, 0]
  | .fixed v => [3, byte v]

def SustainMode.code : SustainMode → Nat
  | .follow => 0 | .ignore => 1

def layerBytes (y : Layer) : List Byte :=
  [byte (InPort.code y.input), optChan y.chan, byte y.zoneLow, byte y.zoneHigh, byte y.vmin, byte y.vmax, byte y.fade]
    ++ curveBytes y.curve
    ++ [byte y.trim, int8 y.transpose, byte y.dest.code, chanByte y.outChan, byte y.sustain.code, byte y.pass.code,
        byte y.lo, byte y.hi]

def progBytes (e : ProgEntry) : List Byte :=
  [byte e.dest.code, chanByte e.chan, optByte e.msb, optByte e.lsb, byte e.program]

def sceneBytes (r : Scene) : List Byte :=
  byte r.name.length :: r.name ++ byte r.layers.length :: r.layers.flatMap layerBytes
    ++ byte r.programs.length :: r.programs.flatMap progBytes

def triggerBytes : Trigger → List Byte
  | .at p q => 0 :: be16 p ++ [byte q]
  | .afterPrevious => [1, 0, 0, 0]
  | .onGo => [2, 0, 0, 0]

def operandBytes : CueAction → List Byte
  | .nop => []
  | .scene n => [byte n]
  | .tempo t => be16 t
  | .ramp t b => be16 t ++ [byte b]
  | .meter b => [byte b]
  | .click p q => [optByte p, optByte q]
  | .program es => byte es.length :: es.flatMap progBytes
  | .marker t => byte t.length :: t
  | .stop .now => [0]
  | .stop .atBar => [1]
  | .nextSong => []

def cueBytes (c : Cue) : List Byte :=
  triggerBytes c.trigger ++ [byte c.action.code, byte (bits [c.isEnd, c.isHold, c.isNotify]), byte c.lead, byte c.next]
    ++ operandBytes c.action

def songBytes (g : Song) : List Byte :=
  byte g.name.length :: g.name ++ optWord g.firstCue ++ be16 g.tempo
    ++ [byte g.meter, byte g.countIn, byte g.band, byte g.keys]

def faultBytes (r : FaultRecord) : List Byte :=
  be16 r.number ++ [byte r.kind.cls.code, byte r.kind.code, byte (portCode r.port)] ++ optPos r.pos ++ be32 r.time
    ++ [byte r.repeats, flag r.acked]

def maskByte (m : Mask) : Byte := byte (bits [m.beat, m.tempo, m.transport, m.scene, m.cue, m.fault, m.active])

/-! ## Notices (11.3, 11.6) -/

def EventKind.code : EventKind → Nat
  | .noteOn _ _ => 0 | .noteOff _ _ => 1 | .control _ _ => 2 | .pressure _ => 3 | .bend _ => 4 | .program _ _ _ => 5

def eventData : EventKind → List Byte
  | .noteOn k v => [byte k, byte v]
  | .noteOff k v => [byte k, byte v]
  | .control n v => [byte n, byte v]
  | .pressure v => [byte v]
  | .bend v => be16 v
  | .program p m l => [byte p, optByte m, optByte l]

/-- Kind codes of the notices (11.2). -/
def Notice.code : Notice → Nat
  | .event _ => 1 | .pulse _ => 2 | .allOff => 3 | .joined => 4 | .beat .. => 5 | .tempo .. => 6 | .transport .. => 7
  | .scene .. => 8 | .cueNear .. => 9 | .cueDone .. => 10 | .marker .. => 11 | .active .. => 12 | .fault _ => 13
  | .store .. => 14

/-- A notice's payload (11.3, R190). -/
def noticePayload : Notice → List Byte
  | .event e => [byte e.kind.code, flag e.replay, chanByte e.chan] ++ eventData e.kind
  | .pulse n => [byte n]
  | .allOff => []
  | .joined => []
  | .beat p q m t tr => int16 p ++ [byte q, byte m] ++ be16 t ++ [byte tr.code]
  | .tempo t target src st => be16 t ++ be16 (target.getD 0) ++ [byte src.code, byte st.code]
  | .transport tr p m t => byte tr.code :: int16 p.bar ++ [byte p.beat] ++ be16 p.tick ++ [byte m] ++ be16 t
  | .scene cause live due origin lock pos =>
    [byte cause.code, optByte live, optByte due] ++ originBytes origin ++ [byte (lockCode lock)] ++ optPos pos
  | .cueNear n p q r action sc => byte n :: be16 p ++ [byte q] ++ int32 r ++ [byte action, optByte sc]
  | .cueDone n result action pos => [byte n, byte result.code, byte action] ++ optPos pos
  | .marker n text pos => [byte n, byte text.length] ++ text ++ optPos pos
  | .active x cause a b => [byte (activeCode x), byte cause.code, byte a.code, byte b.code]
  | .fault r => faultBytes r
  | .store o ok => [byte o.code, flag (!ok)]

/-! ## Telegrams (R145, R189) -/

/-- KIND: class 10 with the request's code for an answer, class 11 with the notice's code for a notice. -/
def Telegram.kind : Telegram → Byte
  | .answer code _ _ => byte (128 + code)
  | .notice n => byte (192 + n.code)

def Telegram.payload : Telegram → List Byte
  | .answer _ r data => byte r.code :: data
  | .notice n => noticePayload n

/-- One bit of the CRC-8: a shift toward the most significant end, combined with 31h when a 1 was shifted out. -/
def crc8Shift (v : BitVec 8) : BitVec 8 := if v.msb then (v <<< 1) ^^^ 0x31#8 else v <<< 1

def crc8Byte (v : BitVec 8) (b : Byte) : BitVec 8 :=
  let x := v ^^^ b
  crc8Shift (crc8Shift (crc8Shift (crc8Shift (crc8Shift (crc8Shift (crc8Shift (crc8Shift x)))))))

/-- CRC-8, polynomial 31h, initial value 00h, most significant bit first (R145). -/
def crc8 (bs : List Byte) : Byte := bs.foldl crc8Byte 0

/-- The bytes of a telegram: 9Ch, LEN, KIND, payload, CHECK (R145). -/
def frame (kind : Byte) (payload : List Byte) : List Byte :=
  0x9C#8 :: byte payload.length :: kind :: payload ++ [crc8 (byte payload.length :: kind :: payload)]

def Telegram.bytes (t : Telegram) : List Byte := frame t.kind t.payload

/-- One bit of the CRC-16. -/
def crc16Shift (v : BitVec 16) : BitVec 16 := if v.msb then (v <<< 1) ^^^ 0x1021#16 else v <<< 1

def crc16Byte (v : BitVec 16) (b : Byte) : BitVec 16 :=
  let x := v ^^^ (b.zeroExtend 16 <<< 8)
  crc16Shift (crc16Shift (crc16Shift (crc16Shift (crc16Shift (crc16Shift (crc16Shift (crc16Shift x)))))))

/-- CRC-16, polynomial 1021h, initial value FFFFh, most significant bit first (R180). -/
def crc16 (bs : List Byte) : BitVec 16 := bs.foldl crc16Byte 0xFFFF#16

end Sys2Proof.Machine
end

