-- ==== Sys2Proof/Machine/Links.lean ====
section
/-! DEFINITION. The outbound side of the Station Link Controller (R144, R154 to R158) and the Fault Log that every
block reports to (R184 to R186): admission of telegrams, notices to subscribers, fault records and the ALERT line. -/

namespace Sys2Proof.Machine

/-! ## One link's queue and transmitter -/

/-- F, the free count: 128 minus the telegrams waiting (R144). -/
def LinkState.free (x : LinkState) : Nat := Config.linkQueue - x.queue.length

/-- R156: a connected link whose hold is CLEAR and which is sending nothing starts its oldest telegram; a byte takes
10 µs. -/
def LinkState.startTx (x : LinkState) (now : Stamp) : LinkState :=
  match x.queue with
  | [] => x
  | t :: rest =>
    if x.high && x.hold.isNone && x.tx.isNone then
      { x with queue := rest, tx := some { telegram := t, left := t.bytes, byteEnds := stampAfter now 10 } }
    else x

/-- A telegram is admitted to the end of the queue; an idle link starts it at once (R154, R156). -/
def LinkState.admitTelegram (x : LinkState) (now : Stamp) (t : Telegram) : LinkState :=
  LinkState.startTx { x with queue := x.queue ++ [t] } now

def State.post (s : State) (l : Link) (t : Telegram) : State := s.setLink l ((s.link l).admitTelegram s.now t)

/-- The answer to a request of kind code `code` is admitted to the requesting link's queue (R148, R152, R154). -/
def State.answer (s : State) (l : Link) (code : Nat) (r : ResultCode) (data : List Byte) : State :=
  s.post l (.answer code r data)

/-! ## The Fault Log -/

/-- The ALERT line's condition: an unacknowledged record of a class in ALERT mode (R186). -/
def FaultLog.alerting (f : FaultLog) : Bool :=
  f.records.any (fun r => !r.acked && (f.modes.get r.kind.cls == .alert))

/-- The ALERT line is reviewed (R186). -/
def FaultLog.review (f : FaultLog) : FaultLog := { f with alert := f.alerting }

/-- A record is appended: the oldest of 32 is removed first, and the counter gives its number (R185). -/
def FaultLog.append (f : FaultLog) (k : FaultKind) (p : Option FaultPort) (pos : Option BarBeat) (time : Nat) : FaultLog :=
  { f with
    records := (if Config.faultRoom ≤ f.records.length then f.records.tail else f.records)
      ++ [{ number := f.counter, kind := k, port := p, pos := pos, time := time, repeats := 1, acked := false }]
    counter := (f.counter + 1) % 65536 }

/-- A report under LOG or ALERT merges with the newest record when class, detail and link or port are the same, and
is appended otherwise; the ALERT line is reviewed (R185, R186). -/
def FaultLog.record (f : FaultLog) (k : FaultKind) (p : Option FaultPort) (pos : Option BarBeat) (time : Nat) : FaultLog :=
  match f.records.getLast? with
  | some r =>
    if r.kind = k ∧ r.port = p then
      FaultLog.review { f with
        records := f.records.dropLast
          ++ [{ r with repeats := min 255 (r.repeats + 1), time := time, pos := pos, acked := false }] }
    else FaultLog.review (f.append k p pos time)
  | none => FaultLog.review (f.append k p pos time)

/-- A BEAT, TEMPO or FAULT notice: admitted with F at 16 or more on a connected link, dropped without a fault
otherwise (R154). -/
def State.offerQuiet (s : State) (l : Link) (n : Notice) : State :=
  if (s.link l).high && decide (Config.noticeRoom ≤ (s.link l).free) then s.post l (.notice n) else s

/-- A quiet notice to every link whose mask holds its group (R155). -/
def State.broadcastQuiet (s : State) (group : Mask → Bool) (n : Notice) : State :=
  allLinks.foldl (fun s l => if group (s.link l).mask then s.offerQuiet l n else s) s

/-- The FAULT notice that follows a report under ALERT: the newest record as it stands (R185). -/
def State.offerFaultNotice (s : State) : State :=
  match s.fl.records.getLast? with
  | some r => s.broadcastQuiet Mask.fault (.fault r)
  | none => s

/-- A fault is reported with a position: discarded under IGNORE, recorded under LOG, recorded and notified under
ALERT (R184, R185). -/
def State.reportAt (s : State) (k : FaultKind) (p : Option FaultPort) (pos : Option BarBeat) : State :=
  match s.fl.modes.get k.cls with
  | .ignore => s
  | .log => { s with fl := s.fl.record k p pos s.millis }
  | .alert => State.offerFaultNotice { s with fl := s.fl.record k p pos s.millis }

/-- A fault is reported at the present position, absent while STOPPED (R185). -/
def State.report (s : State) (k : FaultKind) (p : Option FaultPort) : State := s.reportAt k p s.barBeat

/-! ## Notices whose refusal is a fault -/

/-- A notice other than BEAT, TEMPO, FAULT and EVENT: a connected link with F below 16 drops it with the FRAME fault
NOTICE_DROP; an unconnected link is not offered it (R154). -/
def State.offerNotice (s : State) (l : Link) (n : Notice) : State :=
  if !(s.link l).high then s
  else if Config.noticeRoom ≤ (s.link l).free then s.post l (.notice n)
  else s.report .noticeDrop (some (.link l))

/-- A notice to every link whose mask holds its group, S0 to S3 (R155; the order of the links is the model's,
notes/assumptions/19.md). -/
def State.broadcast (s : State) (group : Mask → Bool) (n : Notice) : State :=
  allLinks.foldl (fun s l => if group (s.link l).mask then s.offerNotice l n else s) s

/-! ## Notices of the Tempo Engine and the Layer Router, read from the state -/

/-- A TEMPO notice showing the state as it stands (R16). -/
def State.tempoNotice (s : State) : State :=
  s.broadcastQuiet Mask.tempo (.tempo s.te.tempo (s.te.ramp.map Ramp.t1) s.te.source s.te.follow)

/-- A TRANSPORT notice showing the state as it stands (R9, R16). -/
def State.transportNotice (s : State) : State :=
  s.broadcast Mask.transport (.transport s.te.transport s.te.pos s.te.meter s.te.tempo)

/-- A BEAT notice (R16). -/
def State.beatNotice (s : State) (bar : Int) (beat meter : Nat) (tr : Transport) : State :=
  s.broadcastQuiet Mask.beat (.beat bar beat meter s.te.tempo tr)

/-- A SCENE notice (R70). -/
def State.sceneNotice (s : State) (cause : SceneCause) (due : Option Nat) (origin : Option Origin) : State :=
  s.broadcast Mask.scene (.scene cause s.lr.live.scene due origin s.lr.lock s.barBeat)

/-- The performance lock is released, with a SCENE notice of cause LOCK (R76, R77). -/
def State.releaseLock (s : State) : State :=
  State.sceneNotice { s with lr := { s.lr with lock := none } } .lock none none

end Sys2Proof.Machine
end

