-- ==== Sys2Proof/Machine/Outputs.lean ====
section
/-! DEFINITION. The Output Ports (R51 to R58): admission of messages to an output's queue, transmission byte by byte,
real-time bytes, output states, and the flush of PANIC. -/

namespace Sys2Proof.Machine

/-! ## Messages as MIDI bytes (R55) -/

/-- The status byte and data bytes of a message (R55). -/
def OutMsg.status : OutMsg → Byte
  | .noteOff c _ _ => byte (0x80 + c.val)
  | .noteOn c _ _ => byte (0x90 + c.val)
  | .control c _ _ => byte (0xB0 + c.val)
  | .program c _ => byte (0xC0 + c.val)
  | .pressure c _ => byte (0xD0 + c.val)
  | .bend c _ => byte (0xE0 + c.val)

def OutMsg.data : OutMsg → List Byte
  | .noteOff _ k v => [byte k, byte v]
  | .noteOn _ k v => [byte k, byte v]
  | .control _ n v => [byte n, byte v]
  | .program _ p => [byte p]
  | .pressure _ v => [byte v]
  | .bend _ v => [byte (v % 128), byte (v / 128)]

/-- Two messages are of one stream: the same channel and kind, and for control changes the same controller number
(R54). -/
def OutMsg.sameStream : OutMsg → OutMsg → Bool
  | .control c n _, .control d m _ => decide (c = d) && decide (n = m)
  | .pressure c _, .pressure d _ => decide (c = d)
  | .bend c _, .bend d _ => decide (c = d)
  | _, _ => false

/-! ## Transmission (R55) -/

/-- The oldest waiting message starts: under running status a repeated status byte is omitted, and the status memory
becomes its status byte (R55, step 3). -/
def MidiOut.startMessage (x : MidiOut) (now : Stamp) (m : OutMsg) (rest : List QMsg) : MidiOut :=
  match m.data with
  | d :: ds =>
    if x.settings.running && decide (x.statusMem = some m.status) then
      { x with queue := rest, tx := some ⟨m, ds⟩, statusMem := some m.status, line := some ⟨d, stampAfter now 320⟩ }
    else
      { x with queue := rest, tx := some ⟨m, d :: ds⟩, statusMem := some m.status,
               line := some ⟨m.status, stampAfter now 320⟩ }
  | [] => { x with queue := rest, tx := some ⟨m, []⟩, statusMem := some m.status, line := some ⟨m.status, stampAfter now 320⟩ }

/-- The next byte is chosen: real-time list, message in transmission, oldest waiting message, or an idle line (R55). -/
def MidiOut.nextByte (x : MidiOut) (now : Stamp) : MidiOut :=
  match x.realTime with
  | b :: r => { x with realTime := r, line := some ⟨b, stampAfter now 320⟩ }
  | [] =>
    match x.tx with
    | some ⟨m, b :: bs⟩ => { x with tx := some ⟨m, bs⟩, line := some ⟨b, stampAfter now 320⟩ }
    | _ =>
      match x.queue with
      | q :: rest => x.startMessage now q.msg rest
      | [] => { x with tx := none, line := none }

/-- An output that is not DISABLED and whose line is idle chooses its next byte at once (R55). -/
def MidiOut.kick (x : MidiOut) (now : Stamp) : MidiOut :=
  if x.mode ≠ .disabled ∧ x.line = none then x.nextByte now else x

/-- The byte on the line finishes: a message whose last byte it was is complete, and the next byte is chosen (R55). -/
def MidiOut.byteSent (x : MidiOut) (now : Stamp) : MidiOut :=
  match x.line with
  | none => x
  | some _ =>
    match x.tx with
    | some ⟨_, []⟩ => MidiOut.nextByte { x with tx := none, line := none } now
    | _ => MidiOut.nextByte { x with line := none } now

/-! ## Admission (R52 to R54) -/

/-- What an output tells the offerer. -/
inductive Offer where
  | admitted | coalesced | dropped | discarded
  deriving DecidableEq, Repr

/-- W, the waiting count (R51). -/
def MidiOut.waiting (x : MidiOut) : Nat := x.queue.length

/-- Messages are put at the end of the queue and the output sends on if its line is idle. -/
def MidiOut.append (x : MidiOut) (now : Stamp) (ms : List QMsg) : MidiOut :=
  MidiOut.kick { x with queue := x.queue ++ ms } now

/-- A note-off offered to an output: always admitted in ENABLED or DRAINING, and S falls by 1 (R52). -/
def State.offerNoteOff (s : State) (o : OutPort) (c : Chan) (key vel : Nat) : State :=
  let x := s.midiOut o
  if x.mode = .disabled then s
  else s.setOut o (MidiOut.append { x with sounding := x.sounding - 1 } s.now [⟨.noteOff c key vel, false⟩])

/-- A note-on offered to an output: VOICE_CAP at S = 64, FULL at W of 64 or more, otherwise admitted with S raised;
DRAINING and DISABLED discard it (R52). -/
def State.offerNoteOn (s : State) (o : OutPort) (c : Chan) (key vel : Nat) : State × Offer :=
  let x := s.midiOut o
  if x.mode = .enabled then
    if Config.outTier ≤ x.sounding then (s.report .voiceCap (some (.output o)), .dropped)
    else if Config.outTier ≤ x.waiting then (s.report .full (some (.output o)), .dropped)
    else (s.setOut o (MidiOut.append { x with sounding := x.sounding + 1 } s.now [⟨.noteOn c key vel, false⟩]), .admitted)
  else (s, .discarded)

/-- A group of messages, admitted whole or dropped whole (R53). -/
def State.offerGroup (s : State) (o : OutPort) (ms : List OutMsg) : State × Offer :=
  let x := s.midiOut o
  if x.mode = .enabled then
    if x.waiting + ms.length ≤ Config.outTier then (s.setOut o (x.append s.now (ms.map (⟨·, false⟩))), .admitted)
    else (s.report .full (some (.output o)), .dropped)
  else (s, .discarded)

/-- Whether a waiting message matches an offered coalescible one (R54). -/
def QMsg.matches (m : OutMsg) (q : QMsg) : Bool := q.coal && q.msg.sameStream m

/-- The matching waiting message replaced in place. -/
def coalesceInto (m : OutMsg) : List QMsg → List QMsg
  | [] => []
  | q :: r => if q.matches m then ⟨m, true⟩ :: r else q :: coalesceInto m r

/-- A coalescible message (R54). -/
def State.offerCoalescible (s : State) (o : OutPort) (m : OutMsg) : State × Offer :=
  let x := s.midiOut o
  if x.mode = .enabled then
    if x.queue.any (QMsg.matches m) then (s.setOut o { x with queue := coalesceInto m x.queue }, .coalesced)
    else if x.waiting < Config.outTier then (s.setOut o (x.append s.now [⟨m, true⟩]), .admitted)
    else (s.report .full (some (.output o)), .dropped)
  else (s, .discarded)

/-- The messages of a program entry's group: bank MSB, bank LSB, program change (R53). -/
def programGroup (c : Chan) (msb lsb : Option Nat) (p : Nat) : List OutMsg :=
  (msb.map (OutMsg.control c 0 ·)).toList ++ (lsb.map (OutMsg.control c 32 ·)).toList ++ [.program c p]

/-! ## Real-time bytes (R23) -/

/-- A real-time byte handed to one output: appended to its list of at most 8 when it is ENABLED with clock on. -/
def MidiOut.handRealTime (x : MidiOut) (now : Stamp) (b : Byte) : MidiOut :=
  if x.mode = .enabled ∧ x.settings.clock = true ∧ x.realTime.length < Config.realTimeRoom then
    MidiOut.kick { x with realTime := x.realTime ++ [b] } now
  else x

/-- A real-time byte handed to every output. -/
def State.handRealTime (s : State) (b : Byte) : State := { s with op := s.op.map (MidiOut.handRealTime · s.now b) }

/-- Timing clock, START and STOP (section 1.8). -/
def clockByte : Byte := 0xF8#8
def startByte : Byte := 0xFA#8
def stopByte : Byte := 0xFC#8

/-! ## Output states (R56) and PANIC (R57) -/

/-- Entry to DISABLED: the real-time list is emptied and the line held idle (R56; a real-time byte on the line is cut
short, notes/assumptions/13.md). -/
def MidiOut.disable (x : MidiOut) : MidiOut := { x with mode := .disabled, realTime := [], line := none }

/-- Nothing is sounding, waiting or in transmission (R56). -/
def MidiOut.drained (x : MidiOut) : Bool := decide (x.sounding = 0) && x.queue.isEmpty && x.tx.isNone

/-- New output settings, with the moves of the output state they make (R56). -/
def MidiOut.applySettings (x : MidiOut) (t : OutSettings) : MidiOut :=
  let y := { x with settings := t }
  match x.mode, t.enabled with
  | .enabled, false => if x.drained then y.disable else { y with mode := .draining }
  | .draining, true => { y with mode := .enabled }
  | .disabled, true => { y with mode := .enabled, statusMem := none }
  | _, _ => y

/-- The sixteen all-notes-off messages of PANIC (R57). -/
def allNotesOffMessages : List QMsg := allChans.map (fun c => ⟨.control c 123 0, false⟩)

/-- PANIC on one output: flushed, all-notes-off on 16 channels, S 0; DISABLED is untouched (R57). -/
def MidiOut.panic (x : MidiOut) (now : Stamp) : MidiOut :=
  if x.mode = .disabled then x
  else MidiOut.kick { x with queue := allNotesOffMessages, sounding := 0 } now

end Sys2Proof.Machine
end

