-- ==== Sys2Proof/Machine/Watch.lean ====
section
/-! DEFINITION. The Sound Station Watch (chapter 9): pulses, echoes and misses, the consequences of a station's change
of state, the active station, the mirroring of EVENT notices, and the resync of a returning station. -/

namespace Sys2Proof.Machine

/-! ## Replay-pending sets (R100) -/

/-- The entry has at least one SOUND target. -/
def HeldEntry.sounds (e : HeldEntry) : Bool := e.targets.any (fun t => decide (t.dest = .sound))

/-- X is removed from the set of every entry (R100). -/
def State.clearPending (s : State) (x : Station) : State :=
  { s with lr := { s.lr with held := s.lr.held.map (fun e => { e with pend := e.pend.set x false }) } }

/-- X is added to the set of every entry that has a SOUND target (R100, R171). -/
def State.markPending (s : State) (x : Station) : State :=
  { s with lr := { s.lr with
    held := s.lr.held.map (fun e => if e.sounds then { e with pend := e.pend.set x true } else e) } }

/-! ## The active station (R174, R175) -/

/-- A station becomes active: AUDIO-SELECT follows it, then the ACTIVE notice is offered (R175). -/
def State.makeActive (s : State) (x : Station) (cause : ActiveCause) : State :=
  let s1 := { s with sw := { s.sw with active := some x, audioHigh := decide (x = Station.b) } }
  s1.broadcast Mask.active (.active (some x) cause (s1.station .a).state (s1.station .b).state)

/-- A station that is fit to be on the air: UP or SUSPECT. -/
def StationState.onAir : StationState → Bool
  | .up => true
  | .suspect => true
  | .joining | .down | .absent => false

/-- The review of the active station at a change of station X from `old` to `new` (R174). -/
def State.reviewActive (s : State) (x : Station) (old new : StationState) : State :=
  if new = .up ∧ (old = .joining ∨ old = .suspect) then
    match s.sw.active with
    | none => s.makeActive x .first
    | some y =>
      if y ≠ x ∧ (s.station y).state.onAir = false then
        (s.makeActive x .return).report .changeLate (some (.link x.link))
      else s
  else if s.sw.active = some x ∧ old.onAir = true ∧ new.onAir = false then
    if (s.station x.other).state = .up then
      (s.makeActive x.other .loss).report .switched (some (.link x.other.link))
    else s.report .noSpare (some (.link x.link))
  else s

/-! ## The ALL_OFF of a resync (R171) -/

/-- The held ALL_OFF can be admitted: CLEARING, with F at 16 or more (R171). -/
def State.allOffReady (s : State) (x : Station) : Bool :=
  decide ((s.station x).state = .joining) && decide ((s.station x).phase = .clearing) && (s.link x.link).high
    && decide (Config.noticeRoom ≤ (s.link x.link).free)

/-- The held ALL_OFF is admitted and the phase becomes REPLAYING (R171): in the change that begins the resync where there
is room, and otherwise in a step after the one that made the room (notes/assumptions/41.md). -/
def State.resyncAllOff (s : State) (x : Station) : State :=
  if s.allOffReady x then
    (s.post x.link (.notice .allOff)).setStation x { s.station x with phase := .replaying }
  else s

/-! ## A change of station state (R168) -/

/-- Steps 1 and 2: the new state is set; DOWN and ABSENT leave every replay-pending set and end a resync, JOINING
begins one, whose ALL_OFF is admitted at once where there is room (R168, R171), and UP or SUSPECT has no resync. The miss
count stays, also into UP (notes/assumptions/55.md). -/
def State.enterState (s : State) (x : Station) (new : StationState) : State :=
  match new with
  | .joining =>
    ((s.setStation x { s.station x with state := .joining, phase := .clearing }).markPending x).resyncAllOff x
  | .down => (s.setStation x { s.station x with state := .down, phase := .none }).clearPending x
  | .absent => (s.setStation x { s.station x with state := .absent, phase := .none }).clearPending x
  | .up => s.setStation x { s.station x with state := .up, phase := .none }
  | .suspect => s.setStation x { s.station x with state := .suspect, phase := .none }

/-- Step 3: the lock is released if the station holds it and has left UP and SUSPECT (R77, R168). -/
def State.autoRelease (s : State) (x : Station) (new : StationState) : State :=
  if s.lr.lock = some x.link ∧ new.onAir = false then s.releaseLock else s

/-- A change of a station's state with its consequences in order; `fault` is the STATION detail the move reports, if
any (R168; the walk of a resync that the change begins comes in later steps, notes/assumptions/41.md). -/
def State.changeStation (s : State) (x : Station) (new : StationState) (fault : Option FaultKind) : State :=
  let s1 := ((s.enterState x new).autoRelease x new).reviewActive x (s.station x).state new
  match fault with
  | some k => s1.report k (some (.link x.link))
  | none => s1

/-- A refused EVENT or PANIC ALL_OFF is taken by the station's state (R170). -/
def State.refused (s : State) (x : Station) : State :=
  match (s.station x).state, (s.station x).phase with
  | .up, _ => s.changeStation x .joining (some .overflow)
  | .suspect, _ => s.changeStation x .joining (some .overflow)
  | .joining, .replaying => s.changeStation x .joining (some .overflow)
  | _, _ => s

/-! ## Mirroring (R169) -/

/-- A station in UP, SUSPECT or JOINING is offered live events (R169). -/
def State.hears (s : State) (x : Station) : Bool :=
  match (s.station x).state with
  | .up | .suspect | .joining => true
  | .down | .absent => false

/-- Whether a station's link would refuse an EVENT: F below 16, or the station is in CLEARING (R154, R171). -/
def State.refusesEvent (s : State) (x : Station) : Bool :=
  (s.link x.link).high &&
    (decide ((s.link x.link).free < Config.noticeRoom) || decide ((s.station x).phase = .clearing))

/-- An EVENT offered to one station: admitted, or refused with the watch's consequences (R154, R170). -/
def State.offerEvent (s : State) (x : Station) (e : Event) : State × Bool :=
  if s.refusesEvent x then (s.refused x, true)
  else if (s.link x.link).high then (s.post x.link (.notice (.event e)), false)
  else (s, false)

/-- The EVENT admitted to a station that does not refuse it. -/
def State.admitEvent (s : State) (x : Station) (e : Event) (wanted : Bool) : State :=
  if wanted && (s.link x.link).high then s.post x.link (.notice (.event e)) else s

/-- An EVENT offered to the stations named by `want`; the answer names the stations that refused it. Where a station
refuses, the order of the two offers is free (R169, notes/assumptions/4.md). -/
def State.mirror (s : State) (want : PerStation Bool) (e : Event) : State × PerStation Bool :=
  if (want.a && s.refusesEvent .a) || (want.b && s.refusesEvent .b) then
    let s0 := s.choose
    if Config.aFirst s.choices then
      let (s1, ra) := if want.a then s0.offerEvent .a e else (s0, false)
      let (s2, rb) := if want.b then s1.offerEvent .b e else (s1, false)
      (s2, ⟨ra, rb⟩)
    else
      let (s1, rb) := if want.b then s0.offerEvent .b e else (s0, false)
      let (s2, ra) := if want.a then s1.offerEvent .a e else (s1, false)
      (s2, ⟨ra, rb⟩)
  else ((s.admitEvent .a e want.a).admitEvent .b e want.b, ⟨false, false⟩)

/-- A live EVENT that belongs to no held entry, or the note-on of a new one: offered to every station that hears
(R169). -/
def State.mirrorLive (s : State) (e : Event) : State × PerStation Bool := s.mirror ⟨s.hears .a, s.hears .b⟩ e

/-- The note-off of a target of an entry: withheld from the stations the entry is pending for (R91, R169). -/
def State.mirrorOff (s : State) (pend : PerStation Bool) (e : Event) : State :=
  (s.mirror ⟨s.hears .a && !pend.a, s.hears .b && !pend.b⟩ e).1

/-! ## PANIC's ALL_OFF (R179) -/

/-- ALL_OFF offered to one station in UP, SUSPECT or JOINING; a refusal brings the NOTICE_DROP fault and is taken as
R170 states, in this order (notes/assumptions/40.md). -/
def State.panicStation (s : State) (x : Station) : State :=
  if s.hears x then
    if (s.link x.link).high && decide ((s.link x.link).free < Config.noticeRoom) then
      (s.report .noticeDrop (some (.link x.link))).refused x
    else if (s.link x.link).high then s.post x.link (.notice .allOff)
    else s
  else s

/-- ALL_OFF to A and B independently (R179); where one refuses, the order is free (notes/assumptions/4.md). -/
def State.panicStations (s : State) : State :=
  let full := fun (x : Station) => s.hears x && (s.link x.link).high && decide ((s.link x.link).free < Config.noticeRoom)
  if full .a || full .b then
    if Config.aFirst s.choices then (s.choose.panicStation .a).panicStation .b
    else (s.choose.panicStation .b).panicStation .a
  else (s.panicStation .a).panicStation .b

/-! ## Pulses and echoes (R164 to R167) -/

/-- The miss check of one station (R165). -/
def State.missCheck (s : State) (x : Station) : State :=
  let r := s.station x
  if r.awaited = none ∨ r.echoed = true ∨ (s.link x.link).hold ≠ none then s
  else
    let miss := min 255 (r.miss + 1)
    let s1 := s.setStation x { r with miss := miss }
    match r.state with
    | .up =>
      if s.sw.limit ≤ miss then s1.changeStation x .down (some .lost)
      else if 2 ≤ miss then s1.changeStation x .suspect (some .suspect)
      else s1
    | .suspect | .joining => if s.sw.limit ≤ miss then s1.changeStation x .down (some .lost) else s1
    | .down | .absent => s1

/-- One station at the pulse deadline: miss check, PULSE, awaited pulse (R164). -/
def State.pulseStation (s : State) (x : Station) : State :=
  if (s.station x).state = .absent then s
  else
    let s1 := (s.missCheck x).offerNotice x.link (.pulse s.sw.pulse)
    s1.setStation x { s1.station x with awaited := some s.sw.pulse, echoed := false }

/-- The pulse changes no station state and finds room: then the order of A and B makes no difference. -/
def State.pulseQuiet (s : State) (x : Station) : Bool :=
  let r := s.station x
  let miss := min 255 (r.miss + 1)
  decide (r.state = .absent) ||
    ((decide (r.awaited = none) || r.echoed || decide ((s.link x.link).hold ≠ none) || decide (r.state = .down)
        || (decide (miss < 2) && decide (miss < s.sw.limit))
        || (decide (r.state ≠ .up) && decide (miss < s.sw.limit)))
      && (!(s.link x.link).high || decide (Config.noticeRoom ≤ (s.link x.link).free)))

/-- The pulse deadline is reached (R164). -/
def State.pulse (s : State) : State :=
  let s1 := { s with sw := { s.sw with deadline := stampAfter s.sw.deadline 50000, pulse := (s.sw.pulse + 1) % 256 } }
  if s1.pulseQuiet .a && s1.pulseQuiet .b then (s1.pulseStation .a).pulseStation .b
  else if Config.aFirst s1.choices then (s1.choose.pulseStation .a).pulseStation .b
  else (s1.choose.pulseStation .b).pulseStation .a

/-- An ECHO report taken for a station: current when it names the awaited pulse, stale otherwise (R166). -/
def State.echoed (s : State) (x : Station) (n : Nat) : State :=
  if (s.station x).awaited = some n then
    let s1 := s.setStation x { s.station x with echoed := true, miss := 0 }
    match (s.station x).state with
    | .down => s1.changeStation x .joining none
    | .suspect => s1.changeStation x .up none
    | .up | .joining | .absent => s1
  else s

/-- DETECT of a sound station rises: ABSENT becomes DOWN with nothing awaited (R167). -/
def State.stationRise (s : State) (x : Station) : State :=
  (s.setStation x { s.station x with miss := 0, awaited := none, echoed := false }).changeStation x .down none

/-- DETECT of a sound station falls: any state becomes ABSENT, DISCONNECTED from UP, SUSPECT or JOINING (R167,
R168). -/
def State.stationFall (s : State) (x : Station) : State :=
  let fault := if s.hears x then some FaultKind.disconnected else none
  (s.setStation x { s.station x with miss := 0, awaited := none, echoed := false }).changeStation x .absent fault

/-- One station under a new miss limit: SUSPECT or JOINING with as many misses moves to DOWN (R177); UP is not moved,
whatever count it has kept (notes/assumptions/55.md). -/
def State.limitStation (s : State) (x : Station) : State :=
  match (s.station x).state with
  | .suspect | .joining =>
    if s.sw.limit ≤ (s.station x).miss then s.changeStation x .down (some .lost) else s
  | .up | .down | .absent => s

/-- The miss limit is set and applies at once (R177). -/
def State.setLimit (s : State) (n : Nat) : State :=
  let s1 := { s with sw := { s.sw with limit := n } }
  let moves := fun (x : Station) => decide ((s.station x).state = .suspect ∨ (s.station x).state = .joining) && decide (n ≤ (s.station x).miss)
  if moves .a && moves .b then
    if Config.aFirst s1.choices then (s1.choose.limitStation .a).limitStation .b
    else (s1.choose.limitStation .b).limitStation .a
  else (s1.limitStation .a).limitStation .b

/-! ## The walk of a resync (R172, R173) -/

/-- The entry at the resync cursor: the oldest held entry pending for X (R163). -/
def State.cursor (s : State) (x : Station) : Option HeldEntry := s.lr.held.find? (fun e => e.pend.get x)

/-- The SOUND targets of an entry, in target-list order. -/
def HeldEntry.soundTargets (e : HeldEntry) : List Target := e.targets.filter (fun t => decide (t.dest = .sound))

/-- The cursor's entry can be dealt with: no SOUND target, or a connected unheld link with F of 15 + k or more
(R172). -/
def State.replayReady (s : State) (x : Station) : Bool :=
  decide ((s.station x).state = .joining) && decide ((s.station x).phase = .replaying) &&
    (match s.cursor x with
     | none => false
     | some e =>
       let k := e.soundTargets.length
       decide (k = 0) || ((s.link x.link).high && decide ((s.link x.link).hold = none)
         && decide (15 + k ≤ (s.link x.link).free)))

/-- X is removed from the set of the first entry that holds it. -/
def unmarkFirst (x : Station) : List HeldEntry → List HeldEntry
  | [] => []
  | e :: r => if e.pend.get x then { e with pend := e.pend.set x false } :: r else e :: unmarkFirst x r

/-- The replay note-on of a target (R172, 11.3). -/
def Target.replayOn (t : Target) : Event := { replay := true, chan := t.chan, kind := .noteOn t.key t.vel }

/-- The entry at the cursor is replayed and leaves the set (R172). -/
def State.resyncReplay (s : State) (x : Station) : State :=
  if s.replayReady x then
    match s.cursor x with
    | none => s
    | some e =>
      let s1 := e.soundTargets.foldl (fun s t => s.post x.link (.notice (.event t.replayOn))) s
      { s1 with lr := { s1.lr with held := unmarkFirst x s1.lr.held } }
  else s

/-- The held JOINED can be admitted: REPLAYING, nothing pending, F at 16 or more (R173). -/
def State.joinedReady (s : State) (x : Station) : Bool :=
  decide ((s.station x).state = .joining) && decide ((s.station x).phase = .replaying) && (s.cursor x).isNone
    && (s.link x.link).high && decide (Config.noticeRoom ≤ (s.link x.link).free)

/-- JOINED is admitted and the station becomes UP (R173). -/
def State.resyncJoined (s : State) (x : Station) : State :=
  if s.joinedReady x then (s.post x.link (.notice .joined)).changeStation x .up none else s

end Sys2Proof.Machine
end

