-- ==== Sys2Proof/Machine/Scenes.lean ====
section
/-! DEFINITION. The live map, the staged map, the cue claim and the performance lock (chapter 4): staging, swapping,
withdrawing, and the sending of program entries. -/

namespace Sys2Proof.Machine

/-! ## Program entries (R61, R69) -/

/-- A program entry is sent: a group to its output, or an EVENT notice for SOUND. The answer says whether an output
dropped it (R61, R133). -/
def State.sendProgram (s : State) (e : ProgEntry) : State × Bool :=
  match e.dest with
  | .out o =>
    let r := s.offerGroup o (programGroup e.chan e.msb e.lsb e.program)
    (r.1, decide (r.2 = .dropped))
  | .sound => ((s.mirrorLive { replay := false, chan := e.chan, kind := .program e.program e.msb e.lsb }).1, false)

/-- Program entries in list order, each offered when the one before it is done with; the answer says whether any was
dropped (R69, R133). -/
def State.sendPrograms (s : State) (es : List ProgEntry) : State × Bool :=
  es.foldl (fun a e => let r := a.1.sendProgram e; (r.1, a.2 || r.2)) (s, false)

/-! ## Staging (R65, R71) -/

/-- A full copy of the scene's record goes into the staged map with a point and an origin (R65). -/
def State.stage (s : State) (n : Nat) (point : SwapPoint) (origin : Origin) : State :=
  { s with lr := { s.lr with staged := some { record := s.sceneAt n, scene := n, point := point, origin := origin } } }

/-- The staged map is EMPTY: a waiting cue claim is staged at once with point CUE, and cleared (R71). -/
def State.settleClaim (s : State) : State :=
  match s.lr.staged, s.lr.claim with
  | none, some c =>
    let s1 := s.stage c.scene .cue (.cue c.cue)
    { s1 with lr := { s1.lr with claim := none } }
  | _, _ => s

/-- A staging leaves the staged map, which is then EMPTY (R65). -/
def State.unstage (s : State) : State := State.settleClaim { s with lr := { s.lr with staged := none } }

/-- A stage command: any claim is cleared; a staging from a link is kept and the command becomes the claim (R71). -/
def State.stageCommand (s : State) (cue n : Nat) : State :=
  let s1 := { s with lr := { s.lr with claim := none } }
  match s.lr.staged with
  | some g =>
    match g.origin with
    | .link _ => { s1 with lr := { s1.lr with claim := some { cue := cue, scene := n } } }
    | .cue _ => s1.stage n .cue (.cue cue)
  | none => s1.stage n .cue (.cue cue)

/-- A withdraw command: the cue's claim is cleared and its staging discarded, without a notice (R73). -/
def State.withdraw (s : State) (cue : Nat) : State :=
  let s1 := if s.lr.claim.map CueClaim.cue = some cue then { s with lr := { s.lr with claim := none } } else s
  if s1.lr.staged.map Staging.origin = some (.cue cue) then s1.unstage else s1

/-! ## Swapping (R68, R72, R74) -/

/-- A staging's layers and scene number become the live map (R68, step 1). -/
def State.makeLive (s : State) (g : Staging) : State :=
  { s with lr := { s.lr with live := { layers := g.record.layers, scene := some g.scene } } }

/-- The swap of a staging: live map, program list, SCENE notice, EMPTY staged map (R68). -/
def State.swap (s : State) (g : Staging) : State :=
  ((((s.makeLive g).sendPrograms g.record.programs).1).sceneNotice .swapped (some g.scene) (some g.origin)).unstage

/-- A staging that reaches its point under the performance lock is skipped (R74). -/
def State.skip (s : State) (g : Staging) : State :=
  (State.sceneNotice { s with lr := { s.lr with staged := none } } .skippedLock (some g.scene) (some g.origin)).settleClaim

/-- A staging reaches its point: swapped, or skipped under the lock (R68, R74). -/
def State.reachPoint (s : State) (g : Staging) : State := if s.lr.lock = none then s.swap g else s.skip g

/-- The Layer Router takes a beat event: a staging due at it reaches its point (R67). -/
def State.routerBeat (s : State) (isBar : Bool) : State :=
  match s.lr.staged with
  | none => s
  | some g =>
    match g.point with
    | .nextBeat => s.reachPoint g
    | .nextBar => if isBar then s.reachPoint g else s
    | .now => s
    | .cue => s

/-- A swap command of a cue: its own staging is swapped; otherwise claim and staging give way and its scene is staged
and swapped at once; under the lock all is discarded. The answer is the cue's outcome: SWAPPED gives OK (R72, R74,
R131). -/
def State.swapCommand (s : State) (cue n : Nat) : State × CueResult :=
  if s.lr.lock = none then
    match s.lr.staged with
    | some g =>
      if g.origin = .cue cue then (s.swap g, .ok)
      else
        let g1 : Staging := { record := s.sceneAt n, scene := n, point := .cue, origin := .cue cue }
        (State.swap { s with lr := { s.lr with claim := none, staged := some g1 } } g1, .ok)
    | none =>
      let g1 : Staging := { record := s.sceneAt n, scene := n, point := .cue, origin := .cue cue }
      (State.swap { s with lr := { s.lr with claim := none, staged := some g1 } } g1, .ok)
  else
    (State.sceneNotice { s with lr := { s.lr with claim := none, staged := none } } .skippedLock (some n)
      (some (.cue cue)), .skippedLock)

/-! ## Performance restart (R78) -/

/-- RESTART on the map state: staging and claim discarded, a held lock released with its notice, live map kept. -/
def State.restartMap (s : State) : State :=
  let s1 := { s with lr := { s.lr with staged := none, claim := none } }
  if s1.lr.lock = none then s1 else s1.releaseLock

end Sys2Proof.Machine
end

