-- ==== Sys2Proof/Machine/Notes.lean ====
section
/-! DEFINITION. Note routing and the held-note table (chapter 5): matching, velocity, admission of targets, release,
sustain, stealing, PANIC and restart. -/

namespace Sys2Proof.Machine

/-! ## Matching (R82, R83) -/

/-- The layer's source input and channel take an event of input `i`, channel `c` (R82, R112). -/
def Layer.hears (y : Layer) (i : InPort) (c : Chan) : Bool :=
  decide (y.input = i) && (match y.chan with | none => true | some d => decide (d = c))

/-- The layer's out key for a key, absent where the transposed value leaves 0 to 127 (R82). -/
def Layer.outKey (y : Layer) (key : Nat) : Option Nat :=
  let k := (key : Int) + y.transpose
  if 0 ≤ k ∧ k ≤ 127 then some k.toNat else none

/-- The layer matches a note-on: source, zone, velocity window and out key (R82). -/
def Layer.matchesNote (y : Layer) (i : InPort) (c : Chan) (key vel : Nat) : Bool :=
  y.hears i c && decide (y.zoneLow ≤ key ∧ key ≤ y.zoneHigh) && decide (y.vmin ≤ vel ∧ vel ≤ y.vmax)
    && (y.outKey key).isSome

/-! ## Velocity (R84, R85) -/

/-- floor(sqrt(n)) among 0 to r. -/
def isqrt (r n : Nat) : Nat :=
  match r with
  | 0 => 0
  | k + 1 => if (k + 1) * (k + 1) ≤ n then k + 1 else isqrt k n

/-- The curve (R84). -/
def Curve.apply (c : Curve) (v : Nat) : Nat :=
  match c with
  | .linear => v
  | .soft => isqrt 127 (127 * v)
  | .hard => max 1 (v * v / 127)
  | .fixed f => f

/-- The candidate's velocity: curve, level trim, crossfade, clamp (R84, R85). -/
def Layer.velocity (y : Layer) (v : Nat) : Nat :=
  let c1 := y.curve.apply v
  let c2 := (c1 * Config.multiplier y.trim + 128) / 256
  let d := min (v - y.vmin) (y.vmax - v)
  let c3 := if 0 < y.fade ∧ d < y.fade then c2 * (d + 1) / (y.fade + 1) else c2
  max 1 (min 127 c3)

/-- The same key on the same destination and channel (R83). -/
def Target.sameNote (t u : Target) : Bool := decide (t.dest = u.dest) && decide (t.chan = u.chan) && decide (t.key = u.key)

/-- The candidates of a note-on, at most four, after those already taken (R83). -/
def candidatesFrom (i : InPort) (c : Chan) (key vel : Nat) : List Layer → List Target → List Target
  | [], acc => acc
  | y :: r, acc =>
    if 4 ≤ acc.length then acc
    else if y.matchesNote i c key vel then
      let t : Target :=
        { dest := y.dest, chan := y.outChan, key := (y.outKey key).getD 0, vel := y.velocity vel, sustain := y.sustain }
      if acc.any (Target.sameNote t) then candidatesFrom i c key vel r acc
      else candidatesFrom i c key vel r (acc ++ [t])
    else candidatesFrom i c key vel r acc

def State.candidates (s : State) (i : InPort) (c : Chan) (key vel : Nat) : List Target :=
  candidatesFrom i c key vel s.lr.live.layers []

/-! ## Release (R91) -/

/-- The entry is that of an input, channel and key. -/
def HeldEntry.isFor (e : HeldEntry) (i : InPort) (c : Chan) (key : Nat) : Bool :=
  decide (e.input = i) && decide (e.chan = c) && decide (e.key = key)

/-- A target leaves the table: a note-off to its output, or an EVENT note-off to the stations the entry is not
pending for (R91). -/
def State.releaseTarget (s : State) (pend : PerStation Bool) (rel : Nat) (t : Target) : State :=
  match t.dest with
  | .out o => s.offerNoteOff o t.chan t.key rel
  | .sound => s.mirrorOff pend { replay := false, chan := t.chan, kind := .noteOff t.key rel }

/-- Targets are released in target-list order (R91). -/
def State.releaseTargets (s : State) (pend : PerStation Bool) (rel : Nat) (ts : List Target) : State :=
  ts.foldl (fun s t => s.releaseTarget pend rel t) s

/-- An entry is removed and each of its targets released (R91; the entry leaves the table before its note-offs are
offered, notes/assumptions/21.md). -/
def State.releaseEntry (s : State) (e : HeldEntry) (rel : Nat) : State :=
  State.releaseTargets { s with lr := { s.lr with held := s.lr.held.erase e } } e.pend rel e.targets

/-- Every entry that satisfies `p` is released, oldest first (R91); at most `n` entries. -/
def State.releaseWhere (p : HeldEntry → Bool) (rel : HeldEntry → Nat) : Nat → State → State
  | 0, s => s
  | n + 1, s =>
    match s.lr.held.find? p with
    | none => s
    | some e => State.releaseWhere p rel n (s.releaseEntry e (rel e))

/-- Every entry that satisfies `p` is released with velocity `rel`. -/
def State.releaseAll (s : State) (p : HeldEntry → Bool) (rel : HeldEntry → Nat) : State :=
  State.releaseWhere p rel s.lr.held.length s

/-! ## Note-on (R81, R87 to R90) -/

/-- R81: an entry already held for the key is released with velocity 64 and removed. -/
def State.retrigger (s : State) (i : InPort) (c : Chan) (key : Nat) : State :=
  match s.lr.held.find? (fun e => e.isFor i c key) with
  | some e => s.releaseEntry e 64
  | none => s

def HeldState.isSustained : HeldState → Bool
  | .held => false
  | .sustained _ => true

/-- R87: with the table full, the oldest SUSTAINED entry, else the oldest HELD one, is released with velocity 64 and a
STEAL fault naming its input. -/
def State.steal (s : State) : State :=
  if s.lr.held.length < Config.heldRoom then s
  else
    match s.lr.held.find? (fun e => e.state.isSustained) with
    | some e => (s.releaseEntry e 64).report .stealSustained (some (.input e.input))
    | none =>
      match s.lr.held with
      | e :: _ => (s.releaseEntry e 64).report .stealHeld (some (.input e.input))
      | [] => s

/-- What the offers of a note-on have come to: the state, the recorded targets, and the stations that a refusal puts
into the new entry's replay-pending set. -/
structure NoteOffers where
  state : State
  targets : List Target
  pend : PerStation Bool

/-- One candidate is offered to its destination and recorded when admitted; a SOUND candidate is always recorded
(R88, R89). -/
def offerCandidate (a : NoteOffers) (t : Target) : NoteOffers :=
  match t.dest with
  | .out o =>
    let r := a.state.offerNoteOn o t.chan t.key t.vel
    match r.2 with
    | .admitted => { a with state := r.1, targets := a.targets ++ [t] }
    | .coalesced | .dropped | .discarded => { a with state := r.1 }
  | .sound =>
    let r := a.state.mirrorLive { replay := false, chan := t.chan, kind := .noteOn t.key t.vel }
    { state := r.1, targets := a.targets ++ [t], pend := ⟨a.pend.a || r.2.a, a.pend.b || r.2.b⟩ }

/-- The candidates are offered in order, and an entry is created at the end of the age order if a target was recorded
(R88 to R90). -/
def State.sound (s : State) (i : InPort) (c : Chan) (key : Nat) (ts : List Target) : State :=
  let a := ts.foldl offerCandidate { state := s, targets := [], pend := ⟨false, false⟩ }
  if a.targets.isEmpty then a.state
  else
    { a.state with lr := { a.state.lr with
      held := a.state.lr.held ++ [{ input := i, chan := c, key := key, state := .held, targets := a.targets, pend := a.pend }] } }

/-- A note-on event of velocity 1 to 127 (section 5.2). -/
def State.noteOnEvent (s : State) (i : InPort) (c : Chan) (key vel : Nat) : State :=
  let s1 := s.retrigger i c key
  let ts := s1.candidates i c key vel
  if ts.isEmpty then s1 else (s1.steal).sound i c key ts

/-! ## Note-off, sustain and the group releases (R92 to R97) -/

/-- R93: under a held pedal the IGNORE targets are released and the FOLLOW targets stay as a SUSTAINED entry in its
place (all IGNORE targets leave the list before the first note-off is offered, notes/assumptions/21.md). -/
def State.sustainEntry (s : State) (e : HeldEntry) (rel : Nat) : State :=
  let keep := e.targets.filter (fun t => decide (t.sustain = .follow))
  let go := e.targets.filter (fun t => decide (t.sustain = .ignore))
  let held := if keep.isEmpty then s.lr.held.erase e
    else s.lr.held.map (fun x => if x = e then { e with state := .sustained rel, targets := keep } else x)
  State.releaseTargets { s with lr := { s.lr with held := held } } e.pend rel go

/-- A note-off event with the sustain state it carries (R92 to R94). -/
def State.noteOffEvent (s : State) (i : InPort) (c : Chan) (key rel : Nat) (pedal : Bool) : State :=
  match s.lr.held.find? (fun e => e.isFor i c key) with
  | none => s
  | some e =>
    match e.state with
    | .sustained _ => s
    | .held => if pedal then s.sustainEntry e rel else s.releaseEntry e rel

/-- The release velocity a SUSTAINED entry recorded. -/
def HeldEntry.recordedRel (e : HeldEntry) : Nat :=
  match e.state with
  | .sustained r => r
  | .held => 64

/-- A sustain change event: up releases every SUSTAINED entry of the input and channel, down changes nothing (R95). -/
def State.sustainEvent (s : State) (i : InPort) (c : Chan) (down : Bool) : State :=
  if down then s
  else s.releaseAll (fun e => decide (e.input = i) && decide (e.chan = c) && e.state.isSustained) HeldEntry.recordedRel

/-- An all-notes-off event (R96). -/
def State.allNotesOffEvent (s : State) (i : InPort) (c : Chan) : State :=
  s.releaseAll (fun e => decide (e.input = i) && decide (e.chan = c)) (fun _ => 64)

/-- An input-lost event: every entry of the input is released (R97) and its filter slots are emptied (R117). -/
def State.inputLostEvent (s : State) (i : InPort) : State :=
  let s1 := s.releaseAll (fun e => decide (e.input = i)) (fun _ => 64)
  { s1 with lr := { s1.lr with slots := s1.lr.slots.filter (fun q => decide (q.key.input ≠ i)) } }

/-! ## PANIC (R101, R117) and restart (R103) -/

/-- PANIC: outputs flushed, ALL_OFF to the stations, table emptied without note-offs, sustain up everywhere, filter
slots emptied. -/
def State.panic (s : State) : State :=
  let s1 := { s with op := s.op.map (MidiOut.panic · s.now) }
  let s2 := s1.panicStations
  { s2 with
    lr := { s2.lr with held := [], slots := [] }
    ip := s2.ip.map (fun x => { x with sustain := 0#16 }) }

/-- RESTART releases every held entry in age order with note-offs of velocity 64 (R103). -/
def State.restartNotes (s : State) : State := s.releaseAll (fun _ => true) (fun _ => 64)

end Sys2Proof.Machine
end

