-- ==== Sys2Proof/Machine/Controllers.lean ====
section
/-! DEFINITION. Continuous controllers and program messages (chapter 6): filter slots, averaging, deadband and
interval, and the sending of values, bends and program changes through the live map. -/

namespace Sys2Proof.Machine

/-! ## Filter slots (R106, R107) -/

/-- A slot set up for a key: empty history, nothing forwarded, pending clear (R107). -/
def Slot.fresh (k : SlotKey) : Slot :=
  { key := k, history := [], latest := 0, lastFwd := none, lastTime := none, deadline := none }

def slotFor (slots : List Slot) (k : SlotKey) : Option Slot := slots.find? (fun q => decide (q.key = k))

/-- The slot that takes an event of key `k`, and the other slots in recency order: the slot that holds the key, else
an EMPTY slot, else the least recently used one taken over (R107). -/
def takeSlot (slots : List Slot) (k : SlotKey) : Slot × List Slot :=
  match slotFor slots k with
  | some q => (q, slots.filter (fun q => decide (q.key ≠ k)))
  | none => (Slot.fresh k, if slots.length < Config.slotRoom then slots else slots.tail)

/-- The filtered value: the mean of the latest min(n, length) raw values, rounded half up (R108). -/
def filtered (history : List Nat) (n : Nat) : Nat :=
  let m := min n history.length
  let latest := history.drop (history.length - m)
  (latest.sum + m / 2) / m

/-- The history with a raw value appended, the latest eight kept (R108). -/
def historyPush (history : List Nat) (v : Nat) : List Nat :=
  let h := history ++ [v]
  h.drop (h.length - 8)

def absDiff (a b : Nat) : Nat := (a - b) + (b - a)

/-- f passes the deadband (R109). -/
def passesDeadband (q : Slot) (f deadband : Nat) : Bool :=
  match q.lastFwd with
  | none => true
  | some v => decide (f = 0) || decide (f = 127) || decide (deadband < absDiff f v)

/-- The minimum interval (in µs) has passed (R109). -/
def intervalPassed (q : Slot) (now : Stamp) (us : Nat) : Bool :=
  match q.lastTime with
  | none => true
  | some t => decide (us ≤ stampSince now t)

/-! ## Sending through the live map (R112 to R115) -/

/-- The layers of a list that decide a send: the first for each destination and out channel (R112, R114, R115). -/
def deciders : List Layer → List (Dest × Chan) → List Layer
  | [], _ => []
  | y :: r, seen =>
    if (y.dest, y.outChan) ∈ seen then deciders r seen else y :: deciders r ((y.dest, y.outChan) :: seen)

/-- The class of a slot's stream is in the pass set (R105). -/
def PassSet.passes (p : PassSet) : SlotKind → Bool
  | .pressure => p.pressure
  | .control n => if n = 1 then p.modulation else if n = 11 then p.expression else p.others

/-- The scaled value of a layer (R112). -/
def Layer.scale (y : Layer) (f : Nat) : Nat := (y.lo * (127 - f) + y.hi * f + 63) / 127

/-- A coalescible message offered to an output, or its EVENT to the stations (R113). -/
def State.sendCoalescible (s : State) (d : Dest) (m : OutMsg) (e : Event) : State :=
  match d with
  | .out o => (s.offerCoalescible o m).1
  | .sound => (s.mirrorLive e).1

/-- The message and EVENT of a slot's value on a channel. -/
def slotMsg (k : SlotKind) (c : Chan) (v : Nat) : OutMsg :=
  match k with
  | .control n => .control c n v
  | .pressure => .pressure c v

def slotEvent (k : SlotKind) (c : Chan) (v : Nat) : Event :=
  { replay := false, chan := c, kind := match k with | .control n => .control n v | .pressure => .pressure v }

/-- A forwarded value goes out once to each destination and out channel, scaled by the first layer that takes it
(R112, R113). -/
def State.sendSlot (s : State) (k : SlotKey) (f : Nat) : State :=
  let ys := deciders (s.lr.live.layers.filter (fun y => y.hears k.input k.chan && y.pass.passes k.kind)) []
  ys.foldl (fun s y =>
    s.sendCoalescible y.dest (slotMsg k.kind y.outChan (y.scale f)) (slotEvent k.kind y.outChan (y.scale f))) s

/-- The slot with a value forwarded now (R111). -/
def Slot.forward (q : Slot) (now : Stamp) (v : Nat) : Slot := { q with lastFwd := some v, lastTime := some now }

/-- A controller or pressure event: taken by its slot, averaged, and forwarded, made pending or held back (R107 to
R111). -/
def State.slotTakes (s : State) (k : SlotKey) (value average deadband intervalMs : Nat) : State :=
  let (q0, others) := takeSlot s.lr.slots k
  let history := historyPush q0.history value
  let f := filtered history average
  let q := { q0 with history := history, latest := f }
  let put := fun (q : Slot) => { s with lr := { s.lr with slots := others ++ [q] } }
  match q.deadline with
  | some _ => put q
  | none =>
    if passesDeadband q f deadband then
      if intervalPassed q s.now (1000 * intervalMs) then (put (q.forward s.now f)).sendSlot k f
      else put { q with deadline := some (stampAfter (q.lastTime.getD s.now) (1000 * intervalMs)) }
    else put q

/-- One slot of the recency list replaced in its place. -/
def replaceSlot (slots : List Slot) (q : Slot) : List Slot := slots.map (fun r => if r.key = q.key then q else r)

/-- A pending slot's deadline is reached: pending is cleared, and the latest filtered value is forwarded if it differs
from the last forwarded one (R110). -/
def State.slotExpiry (s : State) (k : SlotKey) : State :=
  match slotFor s.lr.slots k with
  | none => s
  | some q =>
    match q.deadline with
    | none => s
    | some _ =>
      let put := fun (q : Slot) => { s with lr := { s.lr with slots := replaceSlot s.lr.slots q } }
      if q.lastFwd = some q.latest then put { q with deadline := none }
      else (put ({ q with deadline := none }.forward s.now q.latest)).sendSlot k q.latest

/-- A last forward time is cleared 8,000 µs after it (R106). -/
def State.forwardTimeExpiry (s : State) (k : SlotKey) : State :=
  match slotFor s.lr.slots k with
  | none => s
  | some q => { s with lr := { s.lr with slots := replaceSlot s.lr.slots { q with lastTime := none } } }

/-- A pitch bend event: unscaled, once to each destination and out channel (R114). -/
def State.bendEvent (s : State) (i : InPort) (c : Chan) (v : Nat) : State :=
  let ys := deciders (s.lr.live.layers.filter (fun y => y.hears i c && y.pass.bend)) []
  ys.foldl (fun s y =>
    s.sendCoalescible y.dest (.bend y.outChan v) { replay := false, chan := y.outChan, kind := .bend v }) s

/-- A program change event from an input: a group of one, once to each destination and out channel (R115). -/
def State.programEvent (s : State) (i : InPort) (c : Chan) (p : Nat) : State :=
  let ys := deciders (s.lr.live.layers.filter (fun y => y.hears i c)) []
  ys.foldl (fun s y =>
    (s.sendProgram { dest := y.dest, chan := y.outChan, msb := none, lsb := none, program := p }).1) s

end Sys2Proof.Machine
end

