-- ==== Sys2Proof/Machine/Inputs.lean ====
section
/-! DEFINITION. The Input Ports (R39 to R50): the MIDI parser byte by byte, what a complete message becomes, active
sensing, and the input settings. -/

namespace Sys2Proof.Machine

/-- The input takes bytes: it is enabled and the part is READY (R40, R49, R50). -/
def State.inputLive (s : State) (i : InPort) : Bool := s.ready && (s.midiIn i).settings.enabled

/-! ## Active sensing (R48) -/

/-- A byte has been received: FEh watches the input, any byte of a watched input moves its deadline, any other byte
ends LOST. -/
def MidiIn.byteSeen (x : MidiIn) (now : Stamp) (isFE : Bool) : MidiIn :=
  if isFE || decide (x.sensing = .watched) then
    { x with sensing := .watched, deadline := some (stampAfter now 300000) }
  else if x.sensing = .lost then { x with sensing := .unwatched }
  else x

def State.byteSeen (s : State) (i : InPort) (isFE : Bool) : State := s.setIn i ((s.midiIn i).byteSeen s.now isFE)

/-- The parser state cleared (R40, R48, R49). -/
def MidiIn.clearParser (x : MidiIn) : MidiIn := { x with running := none, collected := none, skip := .none }

/-! ## What a complete message becomes (R45 to R47) -/

/-- Channel `c`'s sustain is down. -/
def MidiIn.pedal (x : MidiIn) (c : Chan) : Bool := x.sustain.getLsbD c.val

/-- The sustain set with one channel down or up. -/
def setPedal (v : BitVec 16) (c : Chan) (down : Bool) : BitVec 16 :=
  if down then v ||| (1#16 <<< c.val) else v &&& ~~~(1#16 <<< c.val)

/-- Control change 64: a change of the pedal's state is handed to the Layer Router (R46). -/
def State.sustainMessage (s : State) (i : InPort) (c : Chan) (value : Nat) : State :=
  let x := s.midiIn i
  let down := decide (64 ≤ value)
  if x.pedal c = down then s
  else (s.setIn i { x with sustain := setPedal x.sustain c down }).sustainEvent i c down

/-- A controller or pressure event with the input's filter settings (R45). -/
def State.controllerEvent (s : State) (i : InPort) (c : Chan) (k : SlotKind) (value : Nat) : State :=
  let t := (s.midiIn i).settings
  s.slotTakes { input := i, chan := c, kind := k } value t.average t.deadband t.interval

/-- The handling of a complete message that passes the channel filter, by kind (R45). -/
def State.handleMessage (s : State) (i : InPort) (c : Chan) (m : ChanMsg) : State :=
  match m with
  | .noteOn k v => if v.val = 0 then s.noteOffEvent i c k.val 64 ((s.midiIn i).pedal c) else s.noteOnEvent i c k.val v.val
  | .noteOff k v => s.noteOffEvent i c k.val v.val ((s.midiIn i).pedal c)
  | .polyPressure _ _ => s
  | .control n v =>
    if n.val = 64 then s.sustainMessage i c v.val
    else if n.val = 123 then s.allNotesOffEvent i c
    else if 120 ≤ n.val then s
    else s.controllerEvent i c (.control n.val) v.val
  | .program p => s.programEvent i c p.val
  | .pressure v => s.controllerEvent i c .pressure v.val
  | .bend a b => s.bendEvent i c (a.val + 128 * b.val)

/-- A complete message: discarded when its channel does not pass the filter (R45). -/
def State.completeMessage (s : State) (i : InPort) (c : Chan) (m : ChanMsg) : State :=
  match (s.midiIn i).settings.filter with
  | none => s.handleMessage i c m
  | some d => if d = c then s.handleMessage i c m else s

/-! ## The parser (R40 to R44) -/

/-- The status byte of a channel message (R41). -/
def chanStatus (c : Chan) : ChanMsg → Byte
  | .noteOff _ _ => byte (0x80 + c.val)
  | .noteOn _ _ => byte (0x90 + c.val)
  | .polyPressure _ _ => byte (0xA0 + c.val)
  | .control _ _ => byte (0xB0 + c.val)
  | .program _ => byte (0xC0 + c.val)
  | .pressure _ => byte (0xD0 + c.val)
  | .bend _ _ => byte (0xE0 + c.val)

/-- Data bytes of a channel message kind: 1 for C0h to DFh, 2 otherwise (R41). -/
def dataNeeded (status : Byte) : Nat :=
  let n := status.toNat / 16
  if n = 12 ∨ n = 13 then 1 else 2

def val7 (b : Byte) : Val7 := ⟨b.toNat % 128, Nat.mod_lt _ (by decide)⟩

/-- The message of a status byte and its collected data bytes (R41). -/
def parseMessage (status : Byte) (data : List Byte) : ChanMsg :=
  let d := val7 (data.getD 0 0)
  let e := val7 (data.getD 1 0)
  match status.toNat / 16 with
  | 8 => .noteOff d e
  | 9 => .noteOn d e
  | 10 => .polyPressure d e
  | 11 => .control d e
  | 12 => .program d
  | 13 => .pressure d
  | _ => .bend d e

def chanOf (status : Byte) : Chan := ⟨status.toNat % 16, Nat.mod_lt _ (by decide)⟩

/-- A status byte other than a real-time byte (R41). -/
def MidiIn.takeStatus (x : MidiIn) (b : Byte) : MidiIn :=
  let n := b.toNat
  if n < 0xF0 then { x with skip := .none, running := some b, collected := some ⟨b, []⟩ }
  else
    let skip := if n = 0xF0 then Skip.sysex else if n = 0xF1 ∨ n = 0xF3 then Skip.common 1
      else if n = 0xF2 then Skip.common 2 else Skip.none
    { x with skip := skip, running := none, collected := none }

/-- A data byte (R42): the input after it, and the message it completes. -/
def MidiIn.takeData (x : MidiIn) (b : Byte) : MidiIn × Option (Byte × List Byte) :=
  match x.skip with
  | .sysex => (x, none)
  | .common left => ({ x with skip := if left ≤ 1 then .none else .common (left - 1) }, none)
  | .none =>
    match (match x.collected with | some p => some p | none => x.running.map (fun st => Partial.mk st [])) with
    | none => (x, none)
    | some p =>
      let data := p.data ++ [b]
      if dataNeeded p.status ≤ data.length then ({ x with collected := none }, some (p.status, data))
      else ({ x with collected := some { p with data := data } }, none)

/-- One byte with a good stop bit is taken by the parser (R40 to R45, R48). -/
def State.midiByte (s : State) (i : InPort) (b : Byte) : State :=
  if s.inputLive i then
    let s1 := s.byteSeen i (decide (b = 0xFE#8))
    if 0xF8 ≤ b.toNat then s1
    else if 0x80 ≤ b.toNat then s1.setIn i ((s1.midiIn i).takeStatus b)
    else
      let (x, m) := (s1.midiIn i).takeData b
      match m with
      | none => s1.setIn i x
      | some (st, data) => (s1.setIn i x).completeMessage i (chanOf st) (parseMessage st data)
  else s

def State.midiBytes (s : State) (i : InPort) (bs : List Byte) : State := bs.foldl (fun s b => s.midiByte i b) s

/-- The last byte of a complete channel message has come: the parser is left with the message's running status, no
partial message and no skip, and the message is handled (R42, R45; the command stands for the message's last byte,
notes/assumptions/24.md). -/
def State.messageArrives (s : State) (i : InPort) (c : Chan) (m : ChanMsg) : State :=
  if s.inputLive i then
    let s1 := s.byteSeen i false
    (s1.setIn i { s1.midiIn i with running := some (chanStatus c m), collected := none, skip := .none }).completeMessage i c m
  else s

/-- A byte with a bad stop bit (R40). -/
def State.framingError (s : State) (i : InPort) : State :=
  if s.inputLive i then
    let s1 := s.byteSeen i false
    (s1.setIn i (s1.midiIn i).clearParser).report .framing (some (.input i))
  else s

/-! ## Sensing loss (R48) -/

/-- A watched input's deadline is reached: the input is LOST, with the releases and then the fault (R48; this order is the
model's, notes/assumptions/54.md). -/
def State.sensingLoss (s : State) (i : InPort) : State :=
  let x := s.midiIn i
  if x.sensing = .watched then
    ((s.setIn i { x.clearParser with sensing := .lost, deadline := none, sustain := 0#16 }).inputLostEvent i).report
      .sensingLost (some (.input i))
  else s

/-! ## Settings (R49) -/

/-- The channel passes a channel filter (R45). -/
def passesFilter (f : Option Chan) (c : Chan) : Bool :=
  match f with
  | none => true
  | some d => decide (d = c)

/-- A channel that no longer passes: sustain up and an all-notes-off event (R49). -/
def State.dropChannel (s : State) (i : InPort) (c : Chan) : State :=
  let x := s.midiIn i
  (s.setIn i { x with sustain := setPedal x.sustain c false }).allNotesOffEvent i c

/-- New input settings with their effects (R49); the channels that a changed filter no longer passes are dropped in
rising order (notes/assumptions/42.md). -/
def State.applyInput (s : State) (i : InPort) (t : InSettings) : State :=
  let x := s.midiIn i
  let s1 := s.setIn i { x with settings := t }
  match x.settings.enabled, t.enabled with
  | true, false =>
    (s.setIn i { x.clearParser with settings := t, sensing := .unwatched, deadline := none, sustain := 0#16 }).inputLostEvent i
  | false, true => s.setIn i { x.clearParser with settings := t, sensing := .unwatched, deadline := none }
  | true, true =>
    (allChans.filter (fun c => passesFilter x.settings.filter c && !passesFilter t.filter c)).foldl
      (fun s c => s.dropChannel i c) s1
  | false, false => s1

end Sys2Proof.Machine
end

