-- ==== Sys2Proof/Machine/Click.lean ====
section
/-! DEFINITION. The Click Generator (chapter 2): pending changes, beat and subdivision clicks, bursts and samples. -/

namespace Sys2Proof.Machine

/-! ## Events the engine hands on (R4) -/

/-- What a beat event carries (R4). -/
structure BeatEvent where
  bar : Int
  beat : Nat
  meter : Nat
  transport : Transport
  isBar : Bool
  closing : Bool
  deriving DecidableEq, Repr

/-! ## Pending changes (R28 to R30) -/

/-- The change of no field. -/
def ClickChange.none_ : ClickChange := ⟨none, none, none, none, none⟩

/-- Fields of the request replace the same fields of the pending change (R28). -/
def ClickChange.merge (old new : ClickChange) : ClickChange :=
  { pattern := new.pattern <|> old.pattern
    level := new.level <|> old.level
    accent := new.accent <|> old.accent
    normal := new.normal <|> old.normal
    sub := new.sub <|> old.sub }

/-- A change merged into a bus's pending change; a change of no field leaves it as it stands (R28). -/
def ClickBus.ask (x : ClickBus) (ch : ClickChange) : ClickBus :=
  if ch = ClickChange.none_ then x
  else { x with change := some (match x.change with | none => ch | some old => old.merge ch) }

def State.askClick (s : State) (b : Bus) (ch : ClickChange) : State := s.setBus b ((s.bus b).ask ch)

/-- A pattern for each bus, or NONE, becomes pending (R30). -/
def State.askPatterns (s : State) (band keys : Option Nat) : State :=
  (s.askClick .band { ClickChange.none_ with pattern := band }).askClick .keys { ClickChange.none_ with pattern := keys }

/-- A pending change is applied and cleared (R29). -/
def ClickBus.applyChange (x : ClickBus) : ClickBus :=
  match x.change with
  | none => x
  | some ch =>
    { x with
      pattern := ch.pattern.getD x.pattern
      level := ch.level.getD x.level
      accent := ch.accent.getD x.accent
      normal := ch.normal.getD x.normal
      sub := ch.sub.getD x.sub
      change := none }

/-! ## Bursts (R34 to R36) -/

/-- The bus's level for a class. -/
def ClickBus.classLevel (x : ClickBus) : ClickClass → Nat
  | .accent => x.accent
  | .normal => x.normal
  | .sub => x.sub

/-- Pk = floor(8,388,607 × (m_class × m_bus) / 65,536) (R34). -/
def ClickBus.peak (x : ClickBus) (c : ClickClass) : Nat :=
  8388607 * (Config.multiplier (x.classLevel c) * Config.multiplier x.level) / 65536

/-- A click due on an unmuted bus starts a burst, replacing any in progress (R34, R36). -/
def ClickBus.click (x : ClickBus) (c : ClickClass) : ClickBus :=
  if x.mute then x else { x with burst := some { cls := c, peak := x.peak c, n := 0 } }

/-- The period P of a class in samples (R35). -/
def ClickClass.period : ClickClass → Nat
  | .accent => 24
  | .normal => 48
  | .sub => 64

/-- The value of the burst's sample n (R35). -/
def Burst.value (b : Burst) : Int :=
  let m : Nat := b.peak * (480 - b.n) / 480
  if b.n % b.cls.period < b.cls.period / 2 then (m : Int) else -(m : Int)

/-- One sample period on a bus: the burst's sample or 0 is sent, the index advances, and after sample 479 the record
is cleared (R34, R35). -/
def ClickBus.samplePeriod (x : ClickBus) : ClickBus :=
  match x.burst with
  | none => { x with sample := 0 }
  | some b => { x with sample := b.value, burst := if 479 ≤ b.n then none else some { b with n := b.n + 1 } }

/-! ## Beats and subdivisions (R29, R32, R33) -/

/-- The position of a pattern for a beat-in-bar (R26). -/
def Pattern.position (p : Pattern) (beat : Nat) : PatPos := p.getD (beat - 1) ⟨.silent, 1⟩

/-- The beat click of an event, and the subdivision it latches (R32). -/
def beatClick (p : Pattern) (ev : BeatEvent) : Option ClickClass × Nat :=
  if ev.closing then (none, 1)
  else
    match ev.transport with
    | .counting => (some (if ev.beat = 1 then .accent else .normal), 1)
    | .running | .stopping =>
      let q := Pattern.position p ev.beat
      match q.cls with
      | .accent => (some .accent, q.sub)
      | .normal => (some .normal, q.sub)
      | .silent => (none, q.sub)
    | .stopped => (none, 1)

/-- A bus takes a beat event: pending change, beat record, beat click (R29, R32). -/
def ClickBus.beat (x : ClickBus) (patterns : Table Pattern) (ev : BeatEvent) : ClickBus :=
  let y := x.applyChange
  let r := beatClick (patternAt patterns y.pattern) ev
  let z := { y with subdiv := r.2, subCount := 0 }
  match r.1 with
  | some c => z.click c
  | none => z

/-- A bus takes a tick event whose tick-in-beat is not 0 (R33). -/
def ClickBus.tick (x : ClickBus) (t : Nat) : ClickBus :=
  if 1 < x.subdiv ∧ t % (480 / x.subdiv) = 0 ∧ x.subCount < t / (480 / x.subdiv) then
    ClickBus.click { x with subCount := t / (480 / x.subdiv) } .sub
  else x

def State.clickBeat (s : State) (ev : BeatEvent) : State :=
  { s with ck := { s.ck with buses := s.ck.buses.map (fun x => x.beat s.ck.patterns ev) } }

def State.clickTick (s : State) (t : Nat) : State :=
  { s with ck := { s.ck with buses := s.ck.buses.map (fun x => x.tick t) } }

def State.sampleBuses (s : State) : State := { s with ck := { s.ck with buses := s.ck.buses.map ClickBus.samplePeriod } }

/-- RESTART on the generator: pending changes discarded, beat records to s = 1, u = 0 (R38). -/
def State.restartClick (s : State) : State :=
  { s with ck := { s.ck with buses := s.ck.buses.map (fun x => { x with change := none, subdiv := 1, subCount := 0 }) } }

end Sys2Proof.Machine
end

