-- ==== Sys2Proof/Machine/Tempo.lean ====
section
/-! DEFINITION. The Tempo Engine's own operations (chapter 1): tempo, ramps, meter, the moves of the transport and the
song handed over by the Cue Sequencer. Beat events and the follower stand in Beat.lean. -/

namespace Sys2Proof.Machine

/-- A tempo brought into range (R5). -/
def clampTempo (t : Nat) : Nat := max Config.tempoMin (min Config.tempoMax t)

/-- The tempo belongs to the follower while it is SEEKING, LOCKED or FREEWHEEL (R17). -/
def FollowState.holdsTempo : FollowState → Bool
  | .free => false
  | .seeking | .locked | .freewheel => true

def State.withTe (s : State) (te : TempoEngine) : State := { s with te := te }

/-! ## Tempo and ramps (R5 to R7) -/

/-- The tempo is set and any ramp cleared; a TEMPO notice follows if either made a change (R5). -/
def State.setTempo (s : State) (t : Nat) : State :=
  let s1 := s.withTe { s.te with tempo := t, ramp := none }
  if s.te.tempo ≠ t ∨ s.te.ramp ≠ none then s1.tempoNotice else s1

/-- A ramp is made, or while STOPPED the tempo set at once; a TEMPO notice follows (R6). -/
def State.rampTempo (s : State) (t1 beats : Nat) : State :=
  if s.ticking then
    State.tempoNotice (s.withTe { s.te with ramp := some { t0 := s.te.tempo, t1 := t1, len := beats * 480, prog := 0 } })
  else State.tempoNotice (s.withTe { s.te with tempo := t1 })

/-- T0 + trunc((T1 − T0) × k / K) (R7). -/
def Ramp.tempoAt (r : Ramp) (k : Nat) : Nat :=
  ((r.t0 : Int) + (((r.t1 : Int) - (r.t0 : Int)) * (k : Int)).tdiv (r.len : Int)).toNat

/-- One tick of a ramp (R7). -/
def State.rampStep (s : State) : State :=
  match s.te.ramp with
  | none => s
  | some r =>
    let k := r.prog + 1
    if r.len ≤ k then State.tempoNotice (s.withTe { s.te with tempo := r.t1, ramp := none })
    else s.withTe { s.te with tempo := r.tempoAt k, ramp := some { r with prog := k } }

/-! ## Meter (R8) -/

def State.setMeter (s : State) (b : Nat) : State :=
  if s.ticking then s.withTe { s.te with pendingMeter := some b }
  else s.withTe { s.te with meter := b, pendingMeter := none }

/-! ## Entry into STOPPED (R7, R12, R13, R130) -/

/-- The engine's state on entry into STOPPED at a bar: beat 1, tick 0, A and q 0, a ramp ended at its target, no
pending segue. -/
def TempoEngine.stopAt (te : TempoEngine) (bar : Int) : TempoEngine :=
  { te with
    transport := .stopped
    pos := ⟨bar, 1, 0⟩
    acc := 0
    clockCount := 0
    tickOwed := false
    tempo := (te.ramp.map Ramp.t1).getD te.tempo
    ramp := none
    segue := none }

/-- The STOP byte and the notices of an entry into STOPPED: TEMPO if a ramp ended, then TRANSPORT (R7, R9, R23). -/
def State.stopNotices (s : State) (rampEnded : Bool) : State :=
  let s1 := s.handRealTime stopByte
  (if rampEnded then s1.tempoNotice else s1).transportNotice

/-- STOP(NOW) while ticking; the sequencer clears GO pending and discards its segue record (R12, R130). -/
def State.stopNow (s : State) : State :=
  if s.ticking then
    let bar := if s.te.transport = .counting then 1 else s.te.pos.bar
    let te := { s.te.stopAt bar with meter := s.te.pendingMeter.getD s.te.meter, pendingMeter := none }
    State.stopNotices { s with te := te, cs := { s.cs with goPending := false, segue := none } } s.te.ramp.isSome
  else s

/-- STOP(AT_BAR) (R13). -/
def State.stopAtBar (s : State) : State :=
  match s.te.transport with
  | .running => State.transportNotice (s.withTe { s.te with transport := .stopping })
  | .counting => s.stopNow
  | .stopping => s
  | .stopped => s

/-! ## A song handed over (R15) -/

/-- Song select while STOPPED: tempo unless the follower holds it, meter, count-in, bar 1; TEMPO if T changed, then
TRANSPORT. -/
def State.engineSong (s : State) (g : Song) : State :=
  let t := if s.te.follow.holdsTempo then s.te.tempo else g.tempo
  let s1 := s.withTe { s.te with
    tempo := t, meter := g.meter, pendingMeter := none, countIn := g.countIn, pos := ⟨1, 1, 0⟩ }
  (if s.te.tempo ≠ t then s1.tempoNotice else s1).transportNotice

/-- A pending segue is armed, without a tempo while the follower holds it. -/
def State.engineSegue (s : State) (g : Song) : State :=
  s.withTe { s.te with
    segue := some { tempo := if s.te.follow.holdsTempo then none else some g.tempo, meter := g.meter, countIn := g.countIn } }

/-! ## Performance restart (R24) -/

/-- RESTART on the engine: STOPPED at bar 1, follower NONE and FREE, ramp, pending meter and segue discarded; the STOP
byte, then TRANSPORT, then TEMPO where they are due. -/
def State.restartTempo (s : State) : State :=
  let te := { s.te with
    transport := .stopped, pos := ⟨1, 1, 0⟩, acc := 0, clockCount := 0, tickOwed := false, source := .none,
    follow := .free, history := [], lastMark := none, lostDeadline := none, ramp := none, pendingMeter := none,
    segue := none }
  let s1 := s.withTe te
  let s2 := if s.ticking then s1.handRealTime stopByte else s1
  let s3 := if s.ticking ∨ s.te.pos ≠ ⟨1, 1, 0⟩ then s2.transportNotice else s2
  if s.te.follow ≠ .free ∨ s.te.ramp ≠ none then s3.tempoNotice else s3

end Sys2Proof.Machine
end

