-- ==== Sys2Proof/Machine/Cues.lean ====
section
/-! DEFINITION. The Cue Sequencer (chapter 7): becoming current, lead notices, firing, completion and chains, segues,
song selection, and the chase of a LOCATE. -/

namespace Sys2Proof.Machine

def State.withCs (s : State) (cs : CueSeq) : State := { s with cs := cs }

/-- A CUE notice (R141). -/
def State.cueNotice (s : State) (n : Notice) : State := s.broadcast Mask.cue n

/-- A CUE fault, with the position of the boundary where there is one (7.6) and none once the transport is STOPPED (R185;
notes/assumptions/20.md). -/
def State.reportCue (s : State) (k : FaultKind) (pos : Option BarBeat) : State :=
  s.reportAt k none (if s.ticking then pos else none)

/-! ## Lead notices (R125) -/

/-- R = D × B + (Q − q): the beats remaining to a trigger position (R125). -/
def beatsRemaining (p : Nat) (q : Nat) (pos : Position) (meter : Nat) : Int :=
  let d : Int := if 1 ≤ pos.bar then (p : Int) - pos.bar else (p : Int) - pos.bar - 1
  d * (meter : Int) + ((q : Int) - (pos.beat : Int))

/-- The scene number of a SCENE action. -/
def CueAction.sceneNumber : CueAction → Option Nat
  | .scene n => some n
  | _ => none

/-- The lead check of the current cue (R125). -/
def State.leadCheck (s : State) : State :=
  match s.cs.current with
  | none => s
  | some c =>
    match c.record.trigger with
    | .at p q =>
      let r := beatsRemaining p q s.te.pos s.te.meter
      if 1 ≤ c.record.lead ∧ s.cs.leadSent = false ∧ r ≤ (c.record.lead : Int) then
        (s.withCs { s.cs with leadSent := true }).cueNotice
          (.cueNear c.cue p q r c.record.action.code c.record.action.sceneNumber)
      else s
    | .afterPrevious => s
    | .onGo => s

/-! ## Becoming current (R124) -/

/-- The sequencer becomes ENDED with no current cue. -/
def State.endSong (s : State) : State := s.withCs { s.cs with state := .ended, current := none, chained := false, leadSent := false }

/-- A cue becomes current (R124); `pos` is the position of the boundary, carried by an EMPTY_CUE fault
unless the transport is STOPPED. -/
def State.becomeCurrent (s : State) (n : Nat) (chained : Bool) (pos : Option BarBeat) : State :=
  match Table.look s.cs.cues n with
  | none => s.endSong.reportCue .emptyCue pos
  | some slot =>
    let s1 := s.withCs { s.cs with
      state := .waiting, current := some { cue := n, record := slot.record }, chained := chained, leadSent := false,
      cues := Table.put s.cs.cues n { slot with done := false, result := .none } }
    let s2 := match slot.record.action with
      | .scene k => s1.stageCommand n k
      | _ => s1
    s2.leadCheck

/-- A current cue stops being current under SELECT_SONG and LOCATE: a SCENE cue is withdrawn; the latched next cue and
GO pending are cleared (R124, R138, R139). -/
def State.dropCurrent (s : State) : State :=
  let s1 := match s.cs.current with
    | some c => (match c.record.action with | .scene _ => s.withdraw c.cue | _ => s)
    | none => s
  s1.withCs { s1.cs with
    current := none, chained := false, leadSent := false, latchedNext := none, goPending := false }

/-! ## Selecting a song (R136, R138) -/

/-- A song select of a set-list position (R138, steps 1 to 5). -/
def State.songSelect (s : State) (p n : Nat) (g : Song) (pos : Option BarBeat) : State :=
  let s1 := s.dropCurrent
  let s2 := s1.withCs { s1.cs with setPos := some p, song := some n }
  let s3 := (s2.engineSong g).askPatterns (some g.band) (some g.keys)
  match g.firstCue with
  | none => s3.endSong
  | some c => s3.becomeCurrent c false pos

/-! ## Actions (R131 to R136) -/

/-- The NEXT_SONG action (R136). -/
def State.nextSong (s : State) (closing : Bool) (pos : Option BarBeat) : State × CueResult :=
  let target := s.cs.setPos.bind (fun p => (s.cs.setlist[p + 1]?).map (fun n => (p + 1, n)))
  match target with
  | none => (s.endSong, .endOfSet)
  | some (p, n) =>
    match Table.look s.cs.songs n with
    | none => ((s.reportCue .emptySong pos).endSong, .fault)
    | some g =>
      if s.te.transport = .stopped then (s.songSelect p n g pos, .ok)
      else if closing then ((s.withCs { s.cs with deferred := some p }).endSong, .ok)
      else
        let s1 := s.engineSegue g
        ((s1.withCs { s1.cs with
            segue := some { pos := p, song := n, firstCue := g.firstCue, band := g.band, keys := g.keys } }).endSong, .ok)

/-- A cue's action takes effect and gives its outcome (section 7.4). -/
def State.doAction (s : State) (c : Latched) (closing : Bool) (pos : Option BarBeat) : State × CueResult :=
  match c.record.action with
  | .nop => (s, .ok)
  | .scene n => s.swapCommand c.cue n
  | .tempo t => if s.te.follow.holdsTempo then (s, .following) else (s.setTempo t, .ok)
  | .ramp t b => if s.te.follow.holdsTempo then (s, .following) else (s.rampTempo t b, .ok)
  | .meter b => (s.setMeter b, .ok)
  | .click band keys => (s.askPatterns band keys, .ok)
  | .program es => let r := s.sendPrograms es; (r.1, if r.2 then .fault else .ok)
  | .marker text => (s.cueNotice (.marker c.cue text pos), .ok)
  | .stop .now => (s.stopNow, .ok)
  | .stop .atBar => (s.stopAtBar, .ok)
  | .nextSong => s.nextSong closing pos

/-! ## Completion and chains (R127, R128) -/

/-- The status of a cue's slot is written (R121). -/
def State.writeStatus (s : State) (n : Nat) (r : CueResult) : State :=
  match Table.look s.cs.cues n with
  | none => s
  | some slot => s.withCs { s.cs with cues := Table.put s.cs.cues n { slot with done := true, result := r } }

/-- The result of a completion: the action's outcome when it is not OK, otherwise LATE or OK (R127). -/
def completionResult (outcome : CueResult) (late : Bool) : CueResult :=
  match outcome with
  | .skippedLock => .skippedLock
  | .following => .following
  | .endOfSet => .endOfSet
  | .fault => .fault
  | .ok | .late | .none => if late then .late else .ok

/-- The sequencer moves on after a completion (R127, step 4). -/
def State.moveOn (s : State) (c : Cue) (pos : Option BarBeat) : State :=
  let s1 := s.withCs { s.cs with boundary := s.cs.boundary + 1 }
  if c.isEnd then s1.endSong
  else if c.isHold then
    match Table.look s1.cs.cues c.next with
    | none => s1.endSong.reportCue .emptyCue pos
    | some slot =>
      s1.withCs { s1.cs with
        state := .held, current := none, chained := false, leadSent := false, latchedNext := some { cue := c.next, record := slot.record } }
  else s1.becomeCurrent c.next true pos

/-- A fired cue completes: action, status, CUE_DONE under NOTIFY, moving on (R127; NOTIFY of a NEXT_SONG cue is read,
notes/assumptions/39.md). -/
def State.completeCue (s : State) (c : Latched) (late closing : Bool) (pos : Option BarBeat) : State :=
  let r := s.doAction c closing pos
  let result := completionResult r.2 late
  let s1 := r.1.writeStatus c.cue result
  let s2 := if late then s1.reportCue .late pos else s1
  let s3 := if c.record.isNotify then s2.cueNotice (.cueDone c.cue result c.record.action.code pos) else s2
  match c.record.action with
  | .nextSong => s3
  | _ => s3.moveOn c.record pos

/-- The current cue was chained at this boundary and is AFTER_PREVIOUS. -/
def CueSeq.chainDue (cs : CueSeq) : Option Latched :=
  match cs.state, cs.current with
  | .waiting, some c => if c.record.trigger = .afterPrevious ∧ cs.chained = true then some c else none
  | _, _ => none

/-- An AFTER_PREVIOUS chain runs on at the boundary, to 8 completions (R128), each tempo action with its own TEMPO notice
(notes/assumptions/48.md). -/
def State.chain (closing : Bool) (pos : Option BarBeat) : Nat → State → State
  | 0, s => s
  | n + 1, s =>
    match s.cs.chainDue with
    | none => s
    | some c =>
      if s.cs.boundary < 8 then State.chain closing pos n (s.completeCue c false closing pos)
      else s.reportCue .chainLimit pos

/-- A cue fires at a boundary and its chain runs on: GO pending is cleared, the cue completes (R126 to R128). -/
def State.fire (s : State) (c : Latched) (late closing : Bool) (pos : Option BarBeat) : State :=
  State.chain closing pos 9 ((s.withCs { s.cs with goPending := false }).completeCue c late closing pos)

/-! ## Beat events (R126, R137) -/

/-- A segue record is applied at a bar event (R137). -/
def State.applySegueRecord (s : State) (pos : Option BarBeat) : State :=
  match s.cs.segue with
  | none => s
  | some g =>
    let s1 := s.withCs { s.cs with setPos := some g.pos, song := some g.song, segue := none }
    let s2 := s1.askPatterns (some g.band) (some g.keys)
    match g.firstCue with
    | none => s2
    | some c => s2.becomeCurrent c false pos

/-- Whether and how the current cue fires at a beat event: `some late` when it fires (R126, step 4). A pending GO fires it
on time, also past its AT position (notes/assumptions/51.md). -/
def firing (cs : CueSeq) (c : Cue) (bar : Int) (beat : Nat) : Option Bool :=
  if cs.goPending then some false
  else
    match c.trigger with
    | .at p q =>
      if bar = (p : Int) ∧ beat = q then some false
      else if (p : Int) < bar ∨ ((p : Int) = bar ∧ q < beat) then some true
      else none
    | .afterPrevious => if cs.chained then none else some false
    | .onGo => none

/-- The sequencer takes a beat event (R126). -/
def State.sequencerBeat (s : State) (ev : BeatEvent) : State :=
  let pos := some (BarBeat.mk ev.bar ev.beat)
  let s1 := s.withCs { s.cs with boundary := 0, chained := false }
  let s2 := if ev.isBar then s1.applySegueRecord pos else s1
  let s3 := if s2.cs.state = .waiting then s2.leadCheck else s2
  if s3.cs.state = .waiting ∧ (ev.transport = .running ∨ ev.transport = .stopping) then
    match s3.cs.current with
    | none => s3
    | some c =>
      match firing s3.cs c.record ev.bar ev.beat with
      | some late => s3.fire c late ev.closing pos
      | none => s3
  else s3

/-- The entry into STOPPED at a closing event reaches the sequencer: GO pending cleared, a deferred select made, its
notices behind the stop's own (R130, R136; notes/assumptions/53.md). -/
def State.sequencerClosed (s : State) : State :=
  let s1 := s.withCs { s.cs with goPending := false, deferred := none }
  match s.cs.deferred with
  | none => s1
  | some p =>
    match s.cs.setlist[p]? with
    | none => s1
    | some n =>
      match Table.look s.cs.songs n with
      | none => s1
      | some g => s1.songSelect p n g none

/-! ## GO (R129) -/

/-- A GO while STOPPED fires the current cue at a boundary of its own. -/
def State.goStopped (s : State) (c : Latched) : State :=
  State.fire (s.withCs { s.cs with boundary := 0 }) c false false none

/-! ## The chase (R139, R140) -/

/-- What a walk comes to: the chosen cues in order, the stopping cue, and a fault. -/
structure Walk where
  chosen : List Latched
  stop : Option Nat
  fault : Option FaultKind
  deriving DecidableEq, Repr

/-- The walk of a chase to a bar stops at this cue without choosing it: it waits for GO, holds, is AT the bar or after
it, or is an AFTER_PREVIOUS at the song's first cue when the bar is 1 (R139). -/
def Cue.stopsWalk (c : Cue) (bar : Nat) (first : Bool) : Bool :=
  decide (c.trigger = .onGo) || c.isHold ||
    (match c.trigger with
     | .at p _ => decide (bar ≤ p)
     | .afterPrevious => first && decide (bar ≤ 1)
     | .onGo => true)

/-- The walk of the chain from cue `n` (`first` at the song's first cue), with room for `room` more chosen cues
(R139). -/
def walk (cues : Table CueSlot) (bar : Nat) (room : Nat) (n : Nat) (first : Bool) (chosen : List Latched) : Walk :=
  match room with
  | 0 => { chosen := chosen, stop := some n, fault := some .chaseLimit }
  | k + 1 =>
    match Table.look cues n with
    | none => { chosen := chosen, stop := none, fault := some .emptyCue }
    | some slot =>
      let c := slot.record
      if c.stopsWalk bar first then { chosen := chosen, stop := some n, fault := none }
      else if c.isEnd then { chosen := chosen ++ [⟨n, c⟩], stop := none, fault := none }
      else walk cues bar k c.next false (chosen ++ [⟨n, c⟩])

/-- Whether a later chosen cue has a SCENE action. -/
def laterScene (cs : List Latched) : Bool := cs.any (fun c => c.record.action.sceneNumber.isSome)

/-- One chosen cue is executed (R140). -/
def State.chaseCue (s : State) (c : Latched) (later : Bool) : State :=
  let r : State × CueResult :=
    match c.record.action with
    | .scene _ => if later then (s, .ok) else s.doAction c false none
    | .marker _ | .stop _ | .nextSong | .nop => (s, .ok)
    | .tempo _ | .ramp _ _ | .meter _ | .click _ _ | .program _ => s.doAction c false none
  r.1.writeStatus c.cue (completionResult r.2 false)

/-- The chosen cues are executed in order; the last SCENE action alone is carried out (R140), and each tempo action gives
its own TEMPO notice (R5, R16; notes/assumptions/48.md). -/
def State.chaseCues (s : State) : List Latched → State
  | [] => s
  | c :: r => State.chaseCues (s.chaseCue c (laterScene r)) r

/-- A located bar reaches the sequencer (R139, R140). -/
def State.chase (s : State) (bar : Nat) : State :=
  if s.cs.state = .idle then s
  else
    let s1 := s.dropCurrent
    let first := (s1.cs.song.bind (Table.look s1.cs.songs)).bind Song.firstCue
    match first with
    | none => s1.endSong
    | some n =>
      let w := walk s1.cs.cues bar 64 n true []
      let s2 := match w.fault with
        | some k => s1.report k none
        | none => s1
      let s3 := s2.chaseCues w.chosen
      match w.stop with
      | none => s3.endSong
      | some k => s3.becomeCurrent k false none

/-! ## Performance restart (R142) -/

def State.restartSequencer (s : State) : State :=
  s.withCs { s.cs with
    state := .idle, current := none, chained := false, leadSent := false, latchedNext := none, goPending := false,
    boundary := 0, segue := none, deferred := none, setPos := none, song := none }

end Sys2Proof.Machine
end

