-- ==== Sys2Proof/Machine/Beat.lean ====
section
/-! DEFINITION. Ticks, beat and bar events and their handing on (R2 to R4), START, the closing of a stop at the bar, the
MIDI timing bytes (R22, R23), and the follower (R17 to R21). -/

namespace Sys2Proof.Machine

/-! ## The order in which the blocks take one beat event -/

/-- Who takes a beat event (R4). -/
inductive Taker where
  | click | router | sequencer | notice
  deriving DecidableEq, Repr

/-- A list in the order a number spells: its item number `n mod length` first, then the rest by `n div length`. -/
def shuffle {α : Type} : Nat → Nat → List α → List α
  | 0, _, l => l
  | k + 1, n, l =>
    match l[n % l.length]? with
    | none => l
    | some x => x :: shuffle k (n / l.length) (l.eraseIdx (n % l.length))

/-- The order makes a difference: the sequencer may act or a staging is due (R30, R72, R126). -/
def State.orderMatters (s : State) (ev : BeatEvent) : Bool :=
  decide (s.cs.state = .waiting) || (ev.isBar && s.cs.segue.isSome) ||
    (match s.lr.staged with
     | none => false
     | some g => decide (g.point = .nextBeat) || (ev.isBar && decide (g.point = .nextBar)))

/-- One block takes a beat event whole, the sequencer with the chain it fires (R4; notes/assumptions/49.md). -/
def State.takeBeat (s : State) (ev : BeatEvent) : Taker → State
  | .click => s.clickBeat ev
  | .router => s.routerBeat ev.isBar
  | .sequencer => s.sequencerBeat ev
  | .notice => s.beatNotice ev.bar ev.beat ev.meter ev.transport

def State.takeBeatAll (s : State) (ev : BeatEvent) (order : List Taker) : State :=
  order.foldl (fun s t => s.takeBeat ev t) s

/-- A beat event is handed to the blocks; the order is free (R4, notes/assumptions/3.md). -/
def State.handOn (s : State) (ev : BeatEvent) : State :=
  if s.orderMatters ev then
    s.choose.takeBeatAll ev (shuffle 4 (Config.beatOrder s.choices) [.click, .router, .sequencer, .notice])
  else s.takeBeatAll ev [.click, .router, .sequencer, .notice]

/-! ## Timing bytes (R22, R23) -/

/-- The bytes of a beat event that is not closing: START byte where due, then a clock byte; q becomes 1. -/
def State.beatBytes (s : State) (start : Bool) : State :=
  let s1 := if start then s.handRealTime startByte else s
  (s1.handRealTime clockByte).withTe { s.te with clockCount := 1 }

/-- The clock byte of another tick: at tick 20 × j with j at least q (R22). -/
def State.tickBytes (s : State) (tick : Nat) : State :=
  let j := tick / 20
  if tick % 20 = 0 ∧ s.te.clockCount ≤ j then (s.handRealTime clockByte).withTe { s.te with clockCount := j + 1 } else s

/-! ## Beat and bar events (R3) -/

/-- After bar −1 comes bar 1; bar 9,999 stays (R3). -/
def nextBar (bar : Int) : Int := if bar = -1 then 1 else if 9999 ≤ bar then 9999 else bar + 1

/-- Steps 1 to 4 of R3 at a bar event. A segue's tempo is taken whatever the follower is by now (R15, R17;
notes/assumptions/45.md). -/
def TempoEngine.barStep (te : TempoEngine) : TempoEngine :=
  let te1 := { te with
    pos := ⟨nextBar te.pos.bar, 1, 0⟩, meter := te.pendingMeter.getD te.meter, pendingMeter := none }
  let te2 := match te.segue with
    | none => te1
    | some g => { te1 with
        pos := ⟨1, 1, 0⟩
        meter := g.meter
        countIn := g.countIn
        tempo := g.tempo.getD te1.tempo
        ramp := if g.tempo.isSome then none else te1.ramp
        segue := none }
  { te2 with transport := if te2.transport = .counting ∧ te2.pos.bar = 1 then .running else te2.transport }

/-- The transport becomes STOPPED once a closing event has been handed on, unless a cue has stopped it already; the stop's
notices come before those of a deferred select (R13, R130, R136; notes/assumptions/53.md). -/
def State.close (s : State) : State :=
  if s.te.transport = .stopping then
    (State.stopNotices (s.withTe (s.te.stopAt s.te.pos.bar)) s.te.ramp.isSome).sequencerClosed
  else s

/-- A beat event occurs: the beat advances, a bar event takes the steps of R3, the notices and timing bytes of the
engine follow, and the event is handed on, behind its timing bytes (R3, R4, R11, R13, R15, R23;
notes/assumptions/46.md). -/
def State.beatOccurs (s : State) : State :=
  if s.te.meter ≤ s.te.pos.beat then
    let closing := decide (s.te.transport = .stopping)
    let te := s.te.barStep
    let s1 := s.withTe te
    let s2 := if s.te.segue.isSome ∧ (te.tempo ≠ s.te.tempo ∨ te.ramp ≠ s.te.ramp) then s1.tempoNotice else s1
    let s3 := if te.transport ≠ s.te.transport then s2.transportNotice else s2
    let start := (s.te.transport = .counting ∧ te.transport = .running) ∨ (s.te.segue.isSome ∧ te.transport = .running)
    let s4 := if closing then s3 else s3.beatBytes (decide start)
    let ev : BeatEvent :=
      { bar := te.pos.bar, beat := 1, meter := te.meter, transport := te.transport, isBar := true, closing := closing }
    let s5 := s4.handOn ev
    if closing then s5.close else s5
  else
    let te := { s.te with pos := ⟨s.te.pos.bar, s.te.pos.beat + 1, 0⟩ }
    let s1 := (s.withTe te).beatBytes false
    s1.handOn
      { bar := te.pos.bar, beat := te.pos.beat, meter := te.meter, transport := te.transport, isBar := false, closing := false }

/-! ## Ticks (R2) -/

/-- A after the additions that bring it to the next tick: A + n × T − M for the least n of 1 or more that reaches M
(R2). -/
def accAtTick (acc tempo : Nat) : Nat :=
  let n := max 1 ((Config.modulus - acc + (tempo - 1)) / tempo)
  acc + n * tempo - Config.modulus

/-- One tick occurs: ramp step, then the beat event or the tick event (R3, R4, R7, R22, R33; the ramp step stands before
the steps of R3, notes/assumptions/47.md). -/
def State.tickOccurs (s : State) : State :=
  let s1 := s.rampStep
  let t := s1.te.pos.tick + 1
  if 480 ≤ t then s1.beatOccurs
  else ((s1.withTe { s1.te with pos := { s1.te.pos with tick := t } }).clickTick t).tickBytes t

/-- TICK: while ticking, the tick owed by this microsecond's addition is taken; with none owed, the accumulator is
brought to its next tick (notes/assumptions/11.md). While STOPPED no tick occurs (R2). -/
def State.tick (s : State) : State :=
  if s.ticking then
    let acc := if s.te.tickOwed then s.te.acc else accAtTick s.te.acc s.te.tempo
    State.tickOccurs (s.withTe { s.te with acc := acc, tickOwed := false })
  else s.withTe { s.te with tickOwed := false }

/-! ## START (R10) -/

/-- The engine as START leaves it: A and q 0, beat 1 of the first count-in bar or of the stopped bar (R10), and, START's
event being a bar event like any other, a pending meter becomes B (R3, step 2; R8). -/
def TempoEngine.started (te : TempoEngine) : TempoEngine :=
  let counts := decide (0 < te.countIn) && decide (te.pos.bar = 1)
  { te with
    acc := 0
    clockCount := 0
    tickOwed := false
    pos := ⟨if counts then -(te.countIn : Int) else te.pos.bar, 1, 0⟩
    meter := te.pendingMeter.getD te.meter
    pendingMeter := none
    transport := if counts then .counting else .running }

/-- START taken while STOPPED: count-in or RUNNING, the TRANSPORT notice, the START byte of a run from bar 1, and the
first tick, beat and bar event, handed on behind its timing bytes (R9, R10, R23; notes/assumptions/46.md). -/
def State.startTransport (s : State) : State :=
  let te := s.te.started
  let s1 := (s.withTe te).transportNotice
  let s2 := s1.beatBytes (decide (te.transport = .running ∧ te.pos.bar = 1))
  s2.handOn { bar := te.pos.bar, beat := 1, meter := te.meter, transport := te.transport, isBar := true, closing := false }

/-! ## The follower (R17 to R21) -/

/-- A source other than the one selected is taken (R17). -/
def State.setFollow (s : State) (src : FollowSource) : State :=
  let te := { s.te with source := src, history := [], lastMark := none, lostDeadline := none }
  match src with
  | .none => State.tempoNotice (s.withTe { te with follow := .free })
  | .line | .marks => State.tempoNotice (s.withTe { te with follow := .seeking, ramp := none })

/-- Phase correction of a mark that leaves the follower LOCKED (R20). -/
def State.phaseCorrect (s : State) : State :=
  if s.ticking then
    if s.te.pos.tick = 0 then s
    else if s.te.pos.tick ≤ 239 then s.withTe { s.te with pos := { s.te.pos with tick := 0 }, acc := 0 }
    else State.beatOccurs (s.withTe { s.te with acc := 0 })
  else s

/-- The estimate of the intervals of the history, with its TEMPO notice and phase correction (R19). -/
def State.estimate (s : State) : State :=
  let n := min s.te.history.length 4
  let avg := (s.te.history.drop (s.te.history.length - n)).sum / n
  let t := (6000000000 + avg / 2) / avg
  let s1 := s.withTe { s.te with tempo := t, follow := .locked, lostDeadline := some (stampAfter s.now (3 * avg)) }
  (if s.te.tempo ≠ t ∨ s.te.follow ≠ .locked then s1.tempoNotice else s1).phaseCorrect

/-- The latest four intervals (R18). -/
def marksPush (history : List Nat) (d : Nat) : List Nat :=
  let h := history ++ [d]
  h.drop (h.length - 4)

/-- A mark is taken at the present microsecond (R18; a first mark while LOCKED leaves the lost deadline as it stands,
notes/assumptions/44.md). -/
def State.takeMark (s : State) : State :=
  match s.te.lastMark with
  | none =>
    if s.te.follow = .freewheel then
      State.tempoNotice (s.withTe { s.te with lastMark := some s.now, follow := .seeking, lostDeadline := none })
    else s.withTe { s.te with lastMark := some s.now }
  | some t =>
    let d := stampSince s.now t
    if 200000 ≤ d ∧ d ≤ 2000000 then
      let s1 := s.withTe { s.te with lastMark := some s.now, history := marksPush s.te.history d }
      if 2 ≤ s1.te.history.length then s1.estimate else s1
    else
      let s1 := s.withTe { s.te with lastMark := some s.now, history := [], lostDeadline := none }
      if s.te.follow = .locked ∨ s.te.follow = .freewheel then State.tempoNotice (s1.withTe { s1.te with follow := .seeking })
      else s1

/-- A BEAT edge is a mark with source LINE; a MARK report is one with source MARKS; others are ignored (R17). -/
def State.markFrom (s : State) (src : FollowSource) : State := if s.te.source = src then s.takeMark else s

/-- 2,000,000 µs after the last mark time it is cleared (R18). -/
def State.lastMarkExpiry (s : State) : State := s.withTe { s.te with lastMark := none }

/-- The lost deadline passes: FREEWHEEL, a TEMPO notice, and a FOLLOW fault while ticking (R21; also after a first mark
taken while LOCKED, notes/assumptions/44.md). -/
def State.lostDeadline (s : State) : State :=
  match s.te.lostDeadline with
  | none => s
  | some _ =>
    let s1 := State.tempoNotice (s.withTe { s.te with
      follow := .freewheel, history := [], lastMark := none, lostDeadline := none })
    if s.ticking then s1.report .followLost none else s1

end Sys2Proof.Machine
end

