-- ==== Sys2Proof/Machine/Operands.lean ====
section
/-! DEFINITION. The operands of requests: how the part decodes a request payload field by field (R188), which payloads
do not fit their kind (answered BAD), and which field is the first out of range (answered RANGE, R189). -/

namespace Sys2Proof.Machine

/-! ## Request kinds (11.2) and rights (R150) -/

/-- The request kinds, codes 01h to 25h. -/
inductive ReqKind where
  | start | stop | locate | setTempo | rampTempo | setMeter | setFollow | writePattern | setClick | muteClick
  | writeScene | loadSceneNow | lock | unlock | writeCue | writeSong | writeSetlist | setInput | setOutput | setWatch
  | restart | saveShow | loadShow | setFaultMode | selectSong | setActive | ackFaults | go | panic | readScene
  | readCue | readSong | readSetlist | readStatus | readFaults | subscribe | resync
  deriving DecidableEq, Repr

def ReqKind.code : ReqKind → Nat
  | .start => 0x01 | .stop => 0x02 | .locate => 0x03 | .setTempo => 0x04 | .rampTempo => 0x05 | .setMeter => 0x06
  | .setFollow => 0x07 | .writePattern => 0x08 | .setClick => 0x09 | .muteClick => 0x0A | .writeScene => 0x0B
  | .loadSceneNow => 0x0C | .lock => 0x0D | .unlock => 0x0E | .writeCue => 0x0F | .writeSong => 0x10
  | .writeSetlist => 0x11 | .setInput => 0x12 | .setOutput => 0x13 | .setWatch => 0x14 | .restart => 0x15
  | .saveShow => 0x16 | .loadShow => 0x17 | .setFaultMode => 0x18 | .selectSong => 0x19 | .setActive => 0x1A
  | .ackFaults => 0x1B | .go => 0x1C | .panic => 0x1D | .readScene => 0x1E | .readCue => 0x1F | .readSong => 0x20
  | .readSetlist => 0x21 | .readStatus => 0x22 | .readFaults => 0x23 | .subscribe => 0x24 | .resync => 0x25

def allKinds : List ReqKind :=
  [.start, .stop, .locate, .setTempo, .rampTempo, .setMeter, .setFollow, .writePattern, .setClick, .muteClick,
   .writeScene, .loadSceneNow, .lock, .unlock, .writeCue, .writeSong, .writeSetlist, .setInput, .setOutput, .setWatch,
   .restart, .saveShow, .loadShow, .setFaultMode, .selectSong, .setActive, .ackFaults, .go, .panic, .readScene,
   .readCue, .readSong, .readSetlist, .readStatus, .readFaults, .subscribe, .resync]

/-- The kind of a code, absent where the code names no request kind (R149, check 1). -/
def kindOfCode (n : Nat) : Option ReqKind := allKinds.find? (fun k => decide (k.code = n))

/-- The roles: sound on S0 and S1, timing on S2, control on S3 (00_scope.md). -/
inductive Role where
  | sound | timing | control
  deriving DecidableEq, Repr

def Link.role : Link → Role
  | .s0 | .s1 => .sound
  | .s2 => .timing
  | .s3 => .control

/-- The rights table for requests (R150). -/
def ReqKind.allowed (k : ReqKind) (r : Role) : Bool :=
  match k with
  | .start | .stop | .locate | .setTempo | .rampTempo | .setMeter | .setFollow | .writePattern | .setClick =>
    decide (r = .timing ∨ r = .control)
  | .muteClick => true
  | .writeScene | .loadSceneNow | .lock | .unlock => decide (r = .sound ∨ r = .control)
  | .writeCue | .writeSong | .writeSetlist | .setInput | .setOutput | .setWatch | .restart | .saveShow | .loadShow
  | .setFaultMode => decide (r = .control)
  | .selectSong | .setActive | .ackFaults => decide (r = .sound ∨ r = .control)
  | .go | .panic | .readScene | .readCue | .readSong | .readSetlist | .readStatus | .readFaults | .subscribe => true
  | .resync => decide (r = .sound ∨ r = .control)

/-! ## Reading bytes of a payload (R188) -/

/-- The byte at an offset. -/
def byteAt (p : List Byte) (i : Nat) : Nat := (p.getD i 0).toNat

/-- A two-byte number, most significant byte first. -/
def wordAt (p : List Byte) (i : Nat) : Nat := 256 * byteAt p i + byteAt p (i + 1)

/-- A two-byte two's complement number. -/
def signedWord (p : List Byte) (i : Nat) : Int :=
  if wordAt p i < 32768 then (wordAt p i : Int) else (wordAt p i : Int) - 65536

/-- A one-byte two's complement number. -/
def signedByte (p : List Byte) (i : Nat) : Int :=
  if byteAt p i < 128 then (byteAt p i : Int) else (byteAt p i : Int) - 256

/-- Bit n of the byte at an offset. -/
def bitAt (p : List Byte) (i n : Nat) : Bool := (p.getD i 0).getLsbD n

/-! ## Payloads that do not fit their kind (R188): the shape of each payload -/

/-- A layer at an offset: no undefined pass bit, and no fixed velocity without curve FIXED. -/
def layerFits (p : List Byte) (b : Nat) : Bool :=
  decide (byteAt p (b + 14) < 32) && (decide (byteAt p (b + 7) = 3) || decide (byteAt p (b + 8) = 0))

/-- WRITE_SCENE: the length its counts give, and layers that fit. -/
def sceneFits (p : List Byte) : Bool :=
  let nl := byteAt p 1
  let lc := byteAt p (2 + nl)
  let pc := byteAt p (3 + nl + 17 * lc)
  decide (p.length = 4 + nl + 17 * lc + 5 * pc) && (List.range lc).all (fun k => layerFits p (3 + nl + 17 * k))

/-- The operand bytes of an action code, absent for a code with no meaning, whose operands no layout fixes
(notes/assumptions/18.md). -/
def operandLength (p : List Byte) (action : Nat) : Option Nat :=
  match action with
  | 0 => some 0
  | 1 => some 1
  | 2 => some 2
  | 3 => some 3
  | 4 => some 1
  | 5 => some 2
  | 6 => some (1 + 5 * byteAt p 9)
  | 7 => some (1 + byteAt p 9)
  | 8 => some 1
  | 9 => some 0
  | _ => none

/-- WRITE_CUE: length, no undefined flag, no bar or beat without AT. -/
def cueFits (p : List Byte) : Bool :=
  (match operandLength p (byteAt p 5) with
   | some n => decide (p.length = 9 + n)
   | none => decide (9 ≤ p.length))
    && decide (byteAt p 6 < 8)
    && (decide (byteAt p 1 = 0) || (decide (byteAt p 2 = 0) && decide (byteAt p 3 = 0) && decide (byteAt p 4 = 0)))

/-- SET_CLICK: no undefined present bit, and no value without its bit. -/
def clickFits (p : List Byte) : Bool :=
  decide (p.length = 7) && decide (byteAt p 1 < 32) &&
    (List.range 5).all (fun k => bitAt p 1 k || decide (byteAt p (2 + k) = 0))

/-- Check 4 of R149: the payload fits its kind. -/
def ReqKind.fits (k : ReqKind) (p : List Byte) : Bool :=
  match k with
  | .start | .lock | .restart | .saveShow | .loadShow | .ackFaults | .go | .panic | .readSetlist | .readStatus =>
    decide (p.length = 0)
  | .stop | .setMeter | .setFollow | .setWatch | .selectSong | .setActive | .readScene | .readCue | .readSong
  | .readFaults | .resync => decide (p.length = 1)
  | .locate | .setTempo | .loadSceneNow | .setFaultMode => decide (p.length = 2)
  | .rampTempo => decide (p.length = 3)
  | .writePattern => decide (p.length = 33)
  | .setClick => clickFits p
  | .muteClick => decide (p.length = 2) && decide (byteAt p 1 ≤ 1)
  | .writeScene => sceneFits p
  | .unlock => decide (p.length = 1) && decide (byteAt p 0 ≤ 1)
  | .writeCue => cueFits p
  | .writeSong => decide (p.length = 10 + byteAt p 1)
  | .writeSetlist => decide (p.length = 1 + byteAt p 0)
  | .setInput => decide (p.length = 6) && decide (byteAt p 1 ≤ 1)
  | .setOutput => decide (p.length = 4) && decide (byteAt p 1 ≤ 1) && decide (byteAt p 2 ≤ 1) && decide (byteAt p 3 ≤ 1)
  | .subscribe => decide (p.length = 1) && decide (byteAt p 0 < 128)

/-- Check 5 of R149: a field the link's role may not ask for (R151). -/
def ReqKind.fieldDenied (k : ReqKind) (l : Link) (p : List Byte) : Bool :=
  match k, l with
  | .muteClick, .s0 | .muteClick, .s1 => decide (byteAt p 0 = 0)
  | .unlock, .s0 | .unlock, .s1 => decide (byteAt p 0 = 1)
  | .resync, .s0 => decide (byteAt p 0 = 1)
  | .resync, .s1 => decide (byteAt p 0 = 0)
  | _, _ => false

/-! ## Fields in range (R189): the first bad field by its offset and its item's place in its list -/

/-- The first field out of range. -/
structure BadField where
  offset : Nat
  place : Option Nat
  deriving DecidableEq, Repr

abbrev Parse (α : Type) := Except BadField α

/-- A field that has a value, or is the first bad one. -/
def field {α : Type} (v : Option α) (offset : Nat) (place : Option Nat := none) : Parse α :=
  match v with
  | some x => .ok x
  | none => .error { offset := offset, place := place }

/-- A number within a range. -/
def within (lo hi n offset : Nat) (place : Option Nat := none) : Parse Nat :=
  field (if lo ≤ n ∧ n ≤ hi then some n else none) offset place

def inPortOf : Nat → Option InPort
  | 0 => some .in0 | 1 => some .in1 | 2 => some .in2 | 3 => some .in3 | 4 => some .in4 | 5 => some .in5
  | _ => none

def outPortOf : Nat → Option OutPort
  | 0 => some .out0 | 1 => some .out1 | 2 => some .out2 | 3 => some .out3
  | _ => none

def destOf : Nat → Option Dest
  | 0 => some (.out .out0) | 1 => some (.out .out1) | 2 => some (.out .out2) | 3 => some (.out .out3)
  | 4 => some .sound
  | _ => none

def chanOf1 (n : Nat) : Option Chan := if h : 1 ≤ n ∧ n ≤ 16 then some ⟨n - 1, by omega⟩ else none

/-- A channel where 0 is ANY or OMNI. -/
def chanOrAny (n : Nat) : Option (Option Chan) := if n = 0 then some none else (chanOf1 n).map some

def busOf : Nat → Option Bus
  | 0 => some .band | 1 => some .keys
  | _ => none

def stationOf : Nat → Option Station
  | 0 => some .a | 1 => some .b
  | _ => none

/-- An optional byte with a range: FFh is absent. -/
def optUpTo (hi n : Nat) : Option (Option Nat) := if n = 255 then some none else if n ≤ hi then some (some n) else none

/-- A list of items at places k, k + 1, …, each parsed at its place. -/
def parseMany {α : Type} (f : Nat → Parse α) : Nat → Nat → Parse (List α)
  | 0, _ => .ok []
  | n + 1, k => do
    let x ← f k
    let xs ← parseMany f n (k + 1)
    return x :: xs

/-- Characters 20h to 7Eh at an offset (R59, R121). -/
def parseChars (p : List Byte) (offset n : Nat) : Parse (List Byte) :=
  parseMany (fun k => field (if 0x20 ≤ byteAt p (offset + k) ∧ byteAt p (offset + k) ≤ 0x7E then some (p.getD (offset + k) 0)
    else none) (offset + k)) n 0

/-- A name or text: its length at an offset, at most 16, then its characters. -/
def parseName (p : List Byte) (offset : Nat) : Parse (List Byte) := do
  let n ← within 0 16 (byteAt p offset) offset
  parseChars p (offset + 1) n

/-- The curve with its fixed velocity, 1 to 127 (R60). -/
def parseCurve (p : List Byte) (b k : Nat) : Parse Curve :=
  match byteAt p b with
  | 0 => .ok .linear
  | 1 => .ok .soft
  | 2 => .ok .hard
  | 3 => do
    let v ← within 1 127 (byteAt p (b + 1)) (b + 1) (some k)
    return .fixed v
  | _ => .error { offset := b, place := some k }

/-- A layer record at an offset, the fields in the order of R60. -/
def parseLayer (p : List Byte) (b k : Nat) : Parse Layer := do
  let input ← field (inPortOf (byteAt p b)) b (some k)
  let chan ← field (chanOrAny (byteAt p (b + 1))) (b + 1) (some k)
  let low ← within 0 127 (byteAt p (b + 2)) (b + 2) (some k)
  let high ← within low 127 (byteAt p (b + 3)) (b + 3) (some k)
  let vmin ← within 1 127 (byteAt p (b + 4)) (b + 4) (some k)
  let vmax ← within vmin 127 (byteAt p (b + 5)) (b + 5) (some k)
  let fade ← within 0 32 (byteAt p (b + 6)) (b + 6) (some k)
  let curve ← parseCurve p (b + 7) k
  let trim ← within 0 12 (byteAt p (b + 9)) (b + 9) (some k)
  let tr ← field (if -48 ≤ signedByte p (b + 10) ∧ signedByte p (b + 10) ≤ 48 then some (signedByte p (b + 10)) else none)
    (b + 10) (some k)
  let dest ← field (destOf (byteAt p (b + 11))) (b + 11) (some k)
  let out ← field (chanOf1 (byteAt p (b + 12))) (b + 12) (some k)
  let sus ← within 0 1 (byteAt p (b + 13)) (b + 13) (some k)
  let lo ← within 0 127 (byteAt p (b + 15)) (b + 15) (some k)
  let hi ← within 0 127 (byteAt p (b + 16)) (b + 16) (some k)
  return {
    input := input, chan := chan, zoneLow := low, zoneHigh := high, vmin := vmin, vmax := vmax, fade := fade,
    curve := curve, trim := trim, transpose := tr, dest := dest, outChan := out,
    sustain := if sus = 0 then .follow else .ignore,
    pass := { expression := bitAt p (b + 14) 0, modulation := bitAt p (b + 14) 1, others := bitAt p (b + 14) 2,
              bend := bitAt p (b + 14) 3, pressure := bitAt p (b + 14) 4 },
    lo := lo, hi := hi }

/-- A program entry at an offset, the fields in the order of R61. -/
def parseProg (p : List Byte) (b k : Nat) : Parse ProgEntry := do
  let dest ← field (destOf (byteAt p b)) b (some k)
  let chan ← field (chanOf1 (byteAt p (b + 1))) (b + 1) (some k)
  let msb ← field (optUpTo 127 (byteAt p (b + 2))) (b + 2) (some k)
  let lsb ← field (optUpTo 127 (byteAt p (b + 3))) (b + 3) (some k)
  let prog ← within 0 127 (byteAt p (b + 4)) (b + 4) (some k)
  return { dest := dest, chan := chan, msb := msb, lsb := lsb, program := prog }

/-- The scene record of a WRITE_SCENE (R62, step 4). -/
def parseScene (p : List Byte) : Parse Scene := do
  let name ← parseName p 1
  let nl := name.length
  let lc ← within 0 8 (byteAt p (2 + nl)) (2 + nl)
  let layers ← parseMany (fun k => parseLayer p (3 + nl + 17 * k) k) lc 0
  let pc ← within 0 8 (byteAt p (3 + nl + 17 * lc)) (3 + nl + 17 * lc)
  let programs ← parseMany (fun k => parseProg p (4 + nl + 17 * lc + 5 * k) k) pc 0
  return { name := name, layers := layers, programs := programs }

/-- The trigger of a WRITE_CUE (R121). -/
def parseTrigger (p : List Byte) : Parse Trigger :=
  match byteAt p 1 with
  | 0 => do
    let bar ← within 1 9999 (wordAt p 2) 2
    let beat ← within 1 16 (byteAt p 4) 4
    return .at bar beat
  | 1 => .ok .afterPrevious
  | 2 => .ok .onGo
  | _ => .error { offset := 1, place := none }

/-- The action of a WRITE_CUE with its operands (R121, R122). -/
def parseAction (p : List Byte) : Parse CueAction :=
  match byteAt p 5 with
  | 0 => .ok .nop
  | 1 => do
    let n ← within 0 127 (byteAt p 9) 9
    return .scene n
  | 2 => do
    let t ← within 3000 30000 (wordAt p 9) 9
    return .tempo t
  | 3 => do
    let t ← within 3000 30000 (wordAt p 9) 9
    let b ← within 1 64 (byteAt p 11) 11
    return .ramp t b
  | 4 => do
    let b ← within 1 16 (byteAt p 9) 9
    return .meter b
  | 5 => do
    let band ← field (optUpTo 15 (byteAt p 9)) 9
    let keys ← field (optUpTo 15 (byteAt p 10)) 10
    return .click band keys
  | 6 => do
    let n ← within 0 4 (byteAt p 9) 9
    let es ← parseMany (fun k => parseProg p (10 + 5 * k) k) n 0
    return .program es
  | 7 => do
    let text ← parseName p 9
    return .marker text
  | 8 => do
    let m ← within 0 1 (byteAt p 9) 9
    return .stop (if m = 0 then .now else .atBar)
  | 9 => .ok .nextSong
  | _ => .error { offset := 5, place := none }

/-- The cue record of a WRITE_CUE, checked trigger, action, operands, flags, lead, next (R122). -/
def parseCue (p : List Byte) : Parse Cue := do
  let trigger ← parseTrigger p
  let action ← parseAction p
  let flags ← field (if bitAt p 6 0 && bitAt p 6 1 then none else some ()) 6
  let lead ← within 0 16 (byteAt p 7) 7
  let _ := flags
  return { trigger := trigger, action := action, isEnd := bitAt p 6 0, isHold := bitAt p 6 1, isNotify := bitAt p 6 2,
           lead := lead, next := byteAt p 8 }

/-- The song record of a WRITE_SONG (R119). -/
def parseSong (p : List Byte) : Parse Song := do
  let name ← parseName p 1
  let nl := name.length
  let cue ← field (if wordAt p (2 + nl) = 65535 then some none else if wordAt p (2 + nl) ≤ 255 then some (some (wordAt p (2 + nl)))
    else none) (2 + nl)
  let tempo ← within 3000 30000 (wordAt p (4 + nl)) (4 + nl)
  let meter ← within 1 16 (byteAt p (6 + nl)) (6 + nl)
  let count ← within 0 4 (byteAt p (7 + nl)) (7 + nl)
  let band ← within 0 15 (byteAt p (8 + nl)) (8 + nl)
  let keys ← within 0 15 (byteAt p (9 + nl)) (9 + nl)
  return { name := name, firstCue := cue, tempo := tempo, meter := meter, countIn := count, band := band, keys := keys }

/-- The list of a WRITE_SETLIST (R120). -/
def parseSetlist (p : List Byte) : Parse (List Nat) := do
  let n ← within 0 64 (byteAt p 0) 0
  parseMany (fun k => within 0 63 (byteAt p (1 + k)) (1 + k) (some k)) n 0

/-- The pattern index and positions of a WRITE_PATTERN (R27). -/
def parsePattern (p : List Byte) : Parse (Nat × Pattern) := do
  let n ← within 0 15 (byteAt p 0) 0
  let ps ← parseMany (fun k => do
    let cls ← field (match byteAt p (1 + 2 * k) with
      | 0 => some PatClass.accent | 1 => some PatClass.normal | 2 => some PatClass.silent | _ => none) (1 + 2 * k)
    let sub ← field (if byteAt p (2 + 2 * k) ∈ [1, 2, 3, 4, 6, 8] then some (byteAt p (2 + 2 * k)) else none) (2 + 2 * k)
    return PatPos.mk cls sub) 16 0
  return (n, ps)

/-- One optional value of a SET_CLICK. -/
def parseClickValue (p : List Byte) (k hi : Nat) : Parse (Option Nat) :=
  if bitAt p 1 k then do
    let v ← within 0 hi (byteAt p (2 + k)) (2 + k)
    return some v
  else .ok none

/-- The bus and changes of a SET_CLICK (R28). -/
def parseClick (p : List Byte) : Parse (Bus × ClickChange) := do
  let bus ← field (busOf (byteAt p 0)) 0
  let pattern ← parseClickValue p 0 15
  let level ← parseClickValue p 1 12
  let accent ← parseClickValue p 2 12
  let normal ← parseClickValue p 3 12
  let sub ← parseClickValue p 4 12
  return (bus, { pattern := pattern, level := level, accent := accent, normal := normal, sub := sub })

/-- The input and settings of a SET_INPUT (R49). -/
def parseInput (p : List Byte) : Parse (InPort × InSettings) := do
  let i ← field (inPortOf (byteAt p 0)) 0
  let filter ← field (chanOrAny (byteAt p 2)) 2
  let avg ← field (if byteAt p 3 ∈ [1, 2, 4, 8] then some (byteAt p 3) else none) 3
  let dead ← within 0 7 (byteAt p 4) 4
  let interval ← field (if byteAt p 5 ∈ [0, 2, 4, 8] then some (byteAt p 5) else none) 5
  return (i, { enabled := bitAt p 1 0, filter := filter, average := avg, deadband := dead, interval := interval })

/-- The output and settings of a SET_OUTPUT (R56). -/
def parseOutput (p : List Byte) : Parse (OutPort × OutSettings) := do
  let o ← field (outPortOf (byteAt p 0)) 0
  return (o, { enabled := bitAt p 1 0, running := bitAt p 2 0, clock := bitAt p 3 0 })

def faultClassOf : Nat → Option FaultClass
  | 0 => some .frame | 1 => some .input | 2 => some .output | 3 => some .steal | 4 => some .cue | 5 => some .station
  | 6 => some .changeover | 7 => some .follow | 8 => some .store | 9 => some .startup
  | _ => none

def faultModeOf : Nat → Option FaultMode
  | 0 => some .ignore | 1 => some .log | 2 => some .alert
  | _ => none

/-- The class and mode of a SET_FAULT_MODE (R184). -/
def parseFaultMode (p : List Byte) : Parse (FaultClass × FaultMode) := do
  let c ← field (faultClassOf (byteAt p 0)) 0
  let m ← field (faultModeOf (byteAt p 1)) 1
  return (c, m)

/-- The scene and point of a LOAD_SCENE_NOW (R66). -/
def parseLoadScene (p : List Byte) : Parse (Nat × SwapPoint) := do
  let n ← within 0 127 (byteAt p 0) 0
  let q ← field (match byteAt p 1 with
    | 0 => some SwapPoint.now | 1 => some SwapPoint.nextBeat | 2 => some SwapPoint.nextBar | _ => none) 1
  return (n, q)

/-- The groups of a SUBSCRIBE (R159). -/
def parseMask (p : List Byte) : Mask :=
  { beat := bitAt p 0 0, tempo := bitAt p 0 1, transport := bitAt p 0 2, scene := bitAt p 0 3, cue := bitAt p 0 4,
    fault := bitAt p 0 5, active := bitAt p 0 6 }

end Sys2Proof.Machine
end

