-- ==== Sys2Proof/Machine/Store.lean ====
section
/-! DEFINITION. The Show Store (R180 to R183): the copy of a show, what the flash holds, the end of a save, of a load and
of start-up's read, and the reset that start-up follows. -/

namespace Sys2Proof.Machine

/-! ## The show image (R180) -/

/-- The copy of the items of R180 as they stand. A pattern that is not listed is the default pattern, and the image
lists the others. -/
def State.image (s : State) : ShowImage :=
  { scenes := s.cs.scenes
    cues := s.cs.cues.map (fun e => (e.1, e.2.record))
    songs := s.cs.songs
    setlist := s.cs.setlist
    patterns := s.ck.patterns.map (fun e => (e.1, some e.2))
    inputs := s.ip.map MidiIn.settings
    outputs := s.op.map MidiOut.settings
    limit := s.sw.limit
    modes := s.fl.modes }

/-- The CRC-16 of an image as it stands in the flash (R180; the layout of its bytes is free,
notes/assumptions/6.md). -/
def ShowImage.crc (g : ShowImage) : BitVec 16 := crc16 (Config.imageBytes g)

/-- What a read of the flash finds: the image status, and the image where it is VALID (R180). -/
def Flash.read : Flash → ImageStatus × Option ShowImage
  | .blank => (.blank, none)
  | .garbled => (.invalid, none)
  | .image g crc => if g.crc = crc then (.valid, some g) else (.invalid, none)

/-- The image's pattern table: a blank or unreadable pattern becomes the default pattern (R26, R183; at a load too,
notes/assumptions/43.md). -/
def loadPatterns (t : Table (Option Pattern)) : Table Pattern :=
  t.foldl (fun a e => setPattern a e.1 (e.2.getD defaultPattern)) []

/-- The tables of an image replace those of the part, every cue status cleared (R182, R183; a blank or unreadable
pattern, notes/assumptions/43.md). -/
def State.loadTables (s : State) (g : ShowImage) : State :=
  { s with
    cs := { s.cs with
      scenes := g.scenes
      cues := g.cues.map (fun e => (e.1, { record := e.2, done := false, result := .none }))
      songs := g.songs
      setlist := g.setlist }
    ck := { s.ck with patterns := loadPatterns g.patterns } }

/-- The input settings act as R49 states, the output settings as R56 states, and L as R177 states (R182); the inputs
take them in the order IN0 to IN5 (notes/assumptions/37.md), and a lock holder that the new L
moves to DOWN, or that a refused note-off of a released input moves to JOINING, loses the lock (R77, R78, R168;
notes/assumptions/50.md). -/
def State.loadSettings (s : State) (g : ShowImage) : State :=
  let s1 := allIns.foldl (fun s i => s.applyInput i (g.inputs.get i)) s
  let s2 := allOuts.foldl (fun s o => s.setOut o ((s.midiOut o).applySettings (g.outputs.get o))) s1
  s2.setLimit (max 3 (min 20 g.limit))

/-- The modes of the fault classes are set and the ALERT line reviewed (R184, R186). -/
def State.setModes (s : State) (m : FaultModes) : State := { s with fl := FaultLog.review { s.fl with modes := m } }

def State.withStore (s : State) (st : ShowStore) : State := { s with st := st }

/-- A STORE notice, offered to every link whatever its mask (R155, R181). -/
def State.storeNotice (s : State) (o : StoreOccasion) (ok : Bool) : State :=
  s.broadcast (fun _ => true) (.store o ok)

/-- The STORE fault of an image that could not be used (R182, R183). -/
def ImageStatus.fault : ImageStatus → Option FaultKind
  | .valid => none
  | .blank => some .blank
  | .invalid => some .check

def State.reportStore (s : State) (k : Option FaultKind) : State :=
  match k with
  | some k => s.report k none
  | none => s

/-! ## The end of a save (R181) -/

/-- The image status after a save, its STORE fault if any, and what the flash then holds (R181). -/
def saveOutcome (e : SaveEnd) (copy : ShowImage) : ImageStatus × Option FaultKind × Flash :=
  match e with
  | .matched => (.valid, none, .image copy copy.crc)
  | .writeFailed true => (.blank, some .write, .blank)
  | .writeFailed false => (.invalid, some .write, .garbled)
  | .differed => (.invalid, some .verify, .garbled)

/-- A save in progress ends: image status, STORE notice, STORE fault (R181). -/
def State.saveEnds (s : State) (e : SaveEnd) : State :=
  match s.st.op with
  | .saving copy =>
    let r := saveOutcome e copy
    ((s.withStore { status := r.1, op := .none, flash := r.2.2 }).storeNotice .save (decide (r.1 = .valid))).reportStore
      r.2.1
  | .none => s
  | .loading => s

/-! ## The end of a load (R182) -/

/-- A load in progress ends: a VALID image is taken at one moment; a BLANK or INVALID one changes nothing in the part
and is reported. -/
def State.loadEnds (s : State) : State :=
  match s.st.op with
  | .loading =>
    let r := s.st.flash.read
    let s1 := s.withStore { s.st with status := r.1, op := .none }
    match r.2 with
    | some g => (((s1.loadTables g).loadSettings g).setModes g.modes).storeNotice .load true
    | none => (s1.storeNotice .load false).reportStore r.1.fault
  | .none => s
  | .saving _ => s

/-! ## Start-up (R183) -/

/-- The detail of the STARTUP record: the cause of the reset. -/
def startupFault : ResetCause → FaultKind
  | .powerOn => .powerOn
  | .resetLine => .resetLine

/-- Start-up takes a VALID image: the fault modes are settled first, then tables and settings (R183). -/
def State.startupLoad (s : State) (g : Option ShowImage) : State :=
  match g with
  | some g => ((s.setModes g.modes).loadTables g).loadSettings g
  | none => s

/-- Start-up's read of the image is complete: tables and settings, the STARTUP record, the STORE record of an image
that cannot be used, the STORE notice, and the part is READY (R183; the settings stand before the STARTUP record,
notes/assumptions/52.md). -/
def State.startupEnds (s : State) : State :=
  if s.ready then s
  else
    let r := s.st.flash.read
    let s1 := (s.withStore { s.st with status := r.1 }).startupLoad r.2
    let s2 := ((s1.report (startupFault s.cause) none).reportStore r.1.fault).storeNotice .startup (decide (r.1 = .valid))
    { s2 with ready := true }

/-! ## Reset (R1, R25, R39, R51, R64, R123, R144, R163, R180, R184, R185) -/

/-- What the flash holds after a reset: a save that it abandons leaves it BLANK or INVALID, according to how far the
save had gone (R181, notes/assumptions/5.md). -/
def State.flashAfterReset (s : State) : Flash :=
  match s.st.op with
  | .saving _ => if Config.abandonedBlank s.choices then .blank else .garbled
  | .none => s.st.flash
  | .loading => s.st.flash

/-- A DETECT found high at the end of reset is taken as a rise (R161). -/
def State.detectRises (s : State) (l : Link) : State :=
  if (s.link l).high then s
  else
    let s1 := s.setLink l { s.link l with high := true }
    match l.station with
    | some x => s1.stationRise x
    | none => s1

/-- Every block takes its reset values; the flash, which is outside the part, and the environment's queue are not
reset, and each DETECT is sampled once (R161, R183). -/
def State.resets (s : State) (cause : ResetCause) (detect : PerLink Bool) : State :=
  let s0 : State := { State.reset with
    st := { State.reset.st with flash := s.flashAfterReset }
    cause := cause
    choices := s.choices + 1
    pending := s.pending }
  allLinks.foldl (fun s l => if detect.get l then s.detectRises l else s) s0

end Sys2Proof.Machine
end

