-- ==== Sys2Proof/Machine/Requests.lean ====
section
/-! DEFINITION. What each request does and answers once it has passed the checks of R149: one operation per request
kind. The answer is always admitted before the effects (R149). -/

namespace Sys2Proof.Machine

/-! ## Answers (R152, R189) -/

/-- The answer to a request of kind `k` without data beyond its code. -/
def State.reply (s : State) (l : Link) (k : ReqKind) (r : ResultCode) : State := s.answer l k.code r []

/-- The answer RANGE: the offset of the first bad field, and its item's place or FFh (R189). -/
def State.replyRange (s : State) (l : Link) (k : ReqKind) (e : BadField) : State :=
  s.answer l k.code .range (be16 e.offset ++ [optByte e.place])

/-- DONE, or CLAMPED where a value was brought into range. -/
def doneOr (clamped : Bool) : ResultCode := if clamped then .clamped else .done

/-- A save or a load is in progress. -/
def State.storeBusy (s : State) : Bool := decide (s.st.op ≠ .none)

/-- A load is in progress. -/
def State.loading (s : State) : Bool := decide (s.st.op = .loading)

/-! ## Tempo Engine -/

/-- START (R10; BUSY during a load, R182). -/
def State.reqStart (s : State) (l : Link) : State :=
  if s.loading then s.reply l .start .busy
  else if s.te.transport = .stopped then (s.reply l .start .done).startTransport
  else s.reply l .start .state

/-- STOP(NOW) (R12). -/
def State.reqStopNow (s : State) (l : Link) : State :=
  if s.ticking then (s.reply l .stop .done).stopNow else s.reply l .stop .state

/-- STOP(AT_BAR) (R13). -/
def State.reqStopAtBar (s : State) (l : Link) : State :=
  match s.te.transport with
  | .running => (s.reply l .stop .done).stopAtBar
  | .counting => (s.reply l .stop .done).stopAtBar
  | .stopping => s.reply l .stop .already
  | .stopped => s.reply l .stop .state

/-- STOP: mode 0 NOW, 1 AT_BAR, any other RANGE (R188, 11.2). -/
def State.reqStop (s : State) (l : Link) (p : List Byte) : State :=
  if byteAt p 0 = 0 then s.reqStopNow l
  else if byteAt p 0 = 1 then s.reqStopAtBar l
  else s.replyRange l .stop { offset := 0, place := none }

/-- The located bar: stopped position, TRANSPORT notice, chase (R14, notes/assumptions/15.md). -/
def State.locate (s : State) (bar : Nat) : State :=
  (State.transportNotice (s.withTe { s.te with pos := ⟨bar, 1, 0⟩ })).chase bar

/-- LOCATE (R14). -/
def State.reqLocate (s : State) (l : Link) (p : List Byte) : State :=
  match within 1 9999 (wordAt p 0) 0 with
  | .error e => s.replyRange l .locate e
  | .ok bar =>
    if s.te.transport = .stopped then (s.reply l .locate .done).locate bar else s.reply l .locate .state

/-- SET_TEMPO (R5). -/
def State.reqSetTempo (s : State) (l : Link) (p : List Byte) : State :=
  if s.te.follow.holdsTempo then s.reply l .setTempo .state
  else
    let t := clampTempo (wordAt p 0)
    (s.reply l .setTempo (doneOr (decide (t ≠ wordAt p 0)))).setTempo t

/-- RAMP_TEMPO (R6). -/
def State.reqRampTempo (s : State) (l : Link) (p : List Byte) : State :=
  if s.te.follow.holdsTempo then s.reply l .rampTempo .state
  else
    match within 1 64 (byteAt p 2) 2 with
    | .error e => s.replyRange l .rampTempo e
    | .ok beats =>
      let t := clampTempo (wordAt p 0)
      (s.reply l .rampTempo (doneOr (decide (t ≠ wordAt p 0)))).rampTempo t beats

/-- SET_METER (R8). -/
def State.reqSetMeter (s : State) (l : Link) (p : List Byte) : State :=
  match within 1 16 (byteAt p 0) 0 with
  | .error e => s.replyRange l .setMeter e
  | .ok b => (s.reply l .setMeter .done).setMeter b

def sourceOf : Nat → Option FollowSource
  | 0 => some .none | 1 => some .line | 2 => some .marks
  | _ => none

/-- SET_FOLLOW (R17). -/
def State.reqSetFollow (s : State) (l : Link) (p : List Byte) : State :=
  match field (sourceOf (byteAt p 0)) 0 with
  | .error e => s.replyRange l .setFollow e
  | .ok src =>
    if s.te.source = src then s.reply l .setFollow .already else (s.reply l .setFollow .done).setFollow src

/-! ## Click Generator -/

/-- WRITE_PATTERN (R27). -/
def State.reqWritePattern (s : State) (l : Link) (p : List Byte) : State :=
  if s.storeBusy then s.reply l .writePattern .busy
  else
    match parsePattern p with
    | .error e => s.replyRange l .writePattern e
    | .ok (n, q) =>
      let s1 := s.reply l .writePattern .done
      { s1 with ck := { s1.ck with patterns := setPattern s1.ck.patterns n q } }

/-- SET_CLICK (R28). -/
def State.reqSetClick (s : State) (l : Link) (p : List Byte) : State :=
  if s.storeBusy then s.reply l .setClick .busy
  else
    match parseClick p with
    | .error e => s.replyRange l .setClick e
    | .ok (b, ch) => (s.reply l .setClick .done).askClick b ch

/-- MUTE_CLICK (R31). -/
def State.reqMuteClick (s : State) (l : Link) (p : List Byte) : State :=
  match field (busOf (byteAt p 0)) 0 with
  | .error e => s.replyRange l .muteClick e
  | .ok b =>
    let m := bitAt p 1 0
    if (s.bus b).mute = m then s.reply l .muteClick .already
    else
      let s1 := s.reply l .muteClick .done
      s1.setBus b { s1.bus b with mute := m }

/-! ## Scenes and the performance lock -/

/-- WRITE_SCENE (R62). -/
def State.reqWriteScene (s : State) (l : Link) (p : List Byte) : State :=
  if s.storeBusy then s.reply l .writeScene .busy
  else
    match within 0 127 (byteAt p 0) 0 with
    | .error e => s.replyRange l .writeScene e
    | .ok n =>
      if s.lr.staged.map Staging.scene = some n then s.reply l .writeScene .retry
      else
        match parseScene p with
        | .error e => s.replyRange l .writeScene e
        | .ok r =>
          let s1 := s.reply l .writeScene .done
          s1.withCs { s1.cs with scenes := Table.put s1.cs.scenes n r }

/-- READ_SCENE (R63). -/
def State.reqReadScene (s : State) (l : Link) (p : List Byte) : State :=
  match within 0 127 (byteAt p 0) 0 with
  | .error e => s.replyRange l .readScene e
  | .ok n =>
    if s.loading then s.reply l .readScene .busy
    else
      match Table.look s.cs.scenes n with
      | some r => s.answer l ReqKind.readScene.code .done (sceneBytes r)
      | none => s.answer l ReqKind.readScene.code .empty (sceneBytes Scene.empty)

/-- A scene staged by a request; with point NOW it is swapped at once (R66). -/
def State.loadScene (s : State) (l : Link) (n : Nat) (point : SwapPoint) : State :=
  let s1 := s.stage n point (.link l)
  match point with
  | .now => s1.swap { record := s.sceneAt n, scene := n, point := .now, origin := .link l }
  | .nextBeat => s1
  | .nextBar => s1
  | .cue => s1

/-- LOAD_SCENE_NOW (R66). -/
def State.reqLoadScene (s : State) (l : Link) (p : List Byte) : State :=
  match parseLoadScene p with
  | .error e => s.replyRange l .loadSceneNow e
  | .ok (n, point) =>
    if s.loading then s.reply l .loadSceneNow .busy
    else if s.lr.lock ≠ none then s.reply l .loadSceneNow .denied
    else if s.lr.staged ≠ none then s.reply l .loadSceneNow .busy
    else (s.reply l .loadSceneNow .done).loadScene l n point

/-- The lock is taken by a link, with a SCENE notice of cause LOCK (R75). -/
def State.takeLock (s : State) (l : Link) : State :=
  State.sceneNotice { s with lr := { s.lr with lock := some l } } .lock none none

/-- Whether a link may take a FREE lock: the control station, or a sound station in UP or SUSPECT (R75). -/
def State.mayLock (s : State) (l : Link) : Bool :=
  match l.station with
  | some x => (s.station x).state.onAir
  | none => true

/-- LOCK (R75). -/
def State.reqLock (s : State) (l : Link) : State :=
  match s.lr.lock with
  | none => if s.mayLock l then (s.reply l .lock .done).takeLock l else s.reply l .lock .state
  | some h => if h = l then s.reply l .lock .already else s.reply l .lock .denied

/-- UNLOCK (R76). -/
def State.reqUnlock (s : State) (l : Link) (p : List Byte) : State :=
  if bitAt p 0 0 then
    if s.lr.lock = none then s.reply l .unlock .done else (s.reply l .unlock .done).releaseLock
  else if s.lr.lock = some l then (s.reply l .unlock .done).releaseLock
  else s.reply l .unlock .denied

/-! ## Songs, set list, cues -/

/-- The cue is latched as the current cue or as the latched next cue (R122). -/
def CueSeq.latched (cs : CueSeq) (n : Nat) : Bool :=
  decide (cs.current.map Latched.cue = some n) || decide (cs.latchedNext.map Latched.cue = some n)

/-- WRITE_CUE (R122). -/
def State.reqWriteCue (s : State) (l : Link) (p : List Byte) : State :=
  if s.storeBusy then s.reply l .writeCue .busy
  else if s.cs.latched (byteAt p 0) then s.reply l .writeCue .retry
  else
    match parseCue p with
    | .error e => s.replyRange l .writeCue e
    | .ok c =>
      let s1 := s.reply l .writeCue .done
      s1.withCs { s1.cs with cues := Table.put s1.cs.cues (byteAt p 0) { record := c, done := false, result := .none } }

/-- A cue slot as a read returns it: the record, then its status (R189). -/
def cueSlotBytes (c : CueSlot) : List Byte := cueBytes c.record ++ [flag c.done, byte c.result.code]

/-- READ_CUE (R122). -/
def State.reqReadCue (s : State) (l : Link) (p : List Byte) : State :=
  if s.loading then s.reply l .readCue .busy
  else
    match Table.look s.cs.cues (byteAt p 0) with
    | some c => s.answer l ReqKind.readCue.code .done (cueSlotBytes c)
    | none => s.answer l ReqKind.readCue.code .empty (cueSlotBytes CueSlot.empty)

/-- WRITE_SONG (R119). -/
def State.reqWriteSong (s : State) (l : Link) (p : List Byte) : State :=
  if s.storeBusy then s.reply l .writeSong .busy
  else
    match within 0 63 (byteAt p 0) 0 with
    | .error e => s.replyRange l .writeSong e
    | .ok n =>
      match parseSong p with
      | .error e => s.replyRange l .writeSong e
      | .ok g =>
        let s1 := s.reply l .writeSong .done
        s1.withCs { s1.cs with songs := Table.put s1.cs.songs n g }

/-- READ_SONG (R119). -/
def State.reqReadSong (s : State) (l : Link) (p : List Byte) : State :=
  match within 0 63 (byteAt p 0) 0 with
  | .error e => s.replyRange l .readSong e
  | .ok n =>
    if s.loading then s.reply l .readSong .busy
    else
      match Table.look s.cs.songs n with
      | some g => s.answer l ReqKind.readSong.code .done (songBytes g)
      | none => s.answer l ReqKind.readSong.code .empty (songBytes Song.empty)

/-- The set-list position under a new list: kept below its length, otherwise NONE (R120). -/
def keptPosition (pos : Option Nat) (len : Nat) : Option Nat := pos.filter (fun p => decide (p < len))

/-- WRITE_SETLIST (R120). -/
def State.reqWriteSetlist (s : State) (l : Link) (p : List Byte) : State :=
  if s.storeBusy then s.reply l .writeSetlist .busy
  else if s.cs.segue ≠ none then s.reply l .writeSetlist .retry
  else
    match parseSetlist p with
    | .error e => s.replyRange l .writeSetlist e
    | .ok ns =>
      let s1 := s.reply l .writeSetlist .done
      s1.withCs { s1.cs with setlist := ns, setPos := keptPosition s1.cs.setPos ns.length }

/-- READ_SETLIST (R120). -/
def State.reqReadSetlist (s : State) (l : Link) : State :=
  if s.loading then s.reply l .readSetlist .busy
  else s.answer l ReqKind.readSetlist.code .done
    (byte s.cs.setlist.length :: s.cs.setlist.map byte ++ [optByte s.cs.setPos, optByte s.cs.song])

/-- SELECT_SONG (R138). -/
def State.reqSelectSong (s : State) (l : Link) (p : List Byte) : State :=
  if s.loading then s.reply l .selectSong .busy
  else
    match s.cs.setlist[byteAt p 0]? with
    | none => s.replyRange l .selectSong { offset := 0, place := none }
    | some n =>
      if s.te.transport ≠ .stopped then s.reply l .selectSong .state
      else
        match Table.look s.cs.songs n with
        | none => s.reply l .selectSong .state
        | some g => (s.reply l .selectSong .done).songSelect (byteAt p 0) n g none

/-- A GO in HELD: the latched next cue becomes current, not chained (R129). -/
def State.goHeld (s : State) (n : Nat) : State :=
  State.becomeCurrent (s.withCs { s.cs with latchedNext := none }) n false s.barBeat

/-- GO (R129). -/
def State.reqGo (s : State) (l : Link) : State :=
  match s.cs.state, s.cs.current, s.cs.latchedNext with
  | .waiting, some c, _ =>
    if s.ticking then
      if s.cs.goPending then s.reply l .go .already
      else
        let s1 := s.reply l .go .done
        s1.withCs { s1.cs with goPending := true }
    else (s.reply l .go .done).goStopped c
  | .held, _, some c => (s.reply l .go .done).goHeld c.cue
  | _, _, _ => s.reply l .go .state

/-! ## Ports and watch settings -/

/-- SET_INPUT (R49). -/
def State.reqSetInput (s : State) (l : Link) (p : List Byte) : State :=
  if s.storeBusy then s.reply l .setInput .busy
  else
    match parseInput p with
    | .error e => s.replyRange l .setInput e
    | .ok (i, t) => (s.reply l .setInput .done).applyInput i t

/-- SET_OUTPUT (R56). -/
def State.reqSetOutput (s : State) (l : Link) (p : List Byte) : State :=
  if s.storeBusy then s.reply l .setOutput .busy
  else
    match parseOutput p with
    | .error e => s.replyRange l .setOutput e
    | .ok (o, t) =>
      let s1 := s.reply l .setOutput .done
      s1.setOut o ((s1.midiOut o).applySettings t)

/-- The miss limit brought into range (R177). -/
def clampLimit (n : Nat) : Nat := max 3 (min 20 n)

/-- SET_WATCH (R177). -/
def State.reqSetWatch (s : State) (l : Link) (p : List Byte) : State :=
  if s.storeBusy then s.reply l .setWatch .busy
  else
    let n := clampLimit (byteAt p 0)
    (s.reply l .setWatch (doneOr (decide (n ≠ byteAt p 0)))).setLimit n

/-- SET_ACTIVE (R176). -/
def State.reqSetActive (s : State) (l : Link) (p : List Byte) : State :=
  match field (stationOf (byteAt p 0)) 0 with
  | .error e => s.replyRange l .setActive e
  | .ok x =>
    if (s.station x).state = .up then
      if s.sw.active = some x then s.reply l .setActive .already
      else (s.reply l .setActive .done).makeActive x .request
    else s.reply l .setActive .state

/-- RESYNC (R178). -/
def State.reqResync (s : State) (l : Link) (p : List Byte) : State :=
  match field (stationOf (byteAt p 0)) 0 with
  | .error e => s.replyRange l .resync e
  | .ok x =>
    if (s.station x).state.onAir then (s.reply l .resync .done).changeStation x .joining (some .requested)
    else s.reply l .resync .state

/-! ## Restart, PANIC -/

/-- A performance restart on every block (R24, R38, R78, R103, R142; the order of the blocks,
notes/assumptions/16.md). -/
def State.restart (s : State) : State := s.restartTempo.restartSequencer.restartMap.restartNotes.restartClick

def State.reqRestart (s : State) (l : Link) : State := (s.reply l .restart .done).restart

/-- PANIC (R101). -/
def State.reqPanic (s : State) (l : Link) : State := (s.reply l .panic .done).panic

/-! ## Show Store and Fault Log -/

/-- SAVE_SHOW: the copy is taken at the acceptance (R181). -/
def State.reqSaveShow (s : State) (l : Link) : State :=
  if s.storeBusy then s.reply l .saveShow .busy
  else
    let s1 := s.reply l .saveShow .accepted
    s1.withStore { s1.st with op := .saving s.image }

/-- LOAD_SHOW (R182). -/
def State.reqLoadShow (s : State) (l : Link) : State :=
  if s.storeBusy then s.reply l .loadShow .busy
  else if s.te.transport ≠ .stopped ∨ s.cs.state ≠ .idle ∨ s.lr.staged ≠ none then s.reply l .loadShow .state
  else
    let s1 := s.reply l .loadShow .accepted
    s1.withStore { s1.st with op := .loading }

/-- SET_FAULT_MODE (R184). -/
def State.reqSetFaultMode (s : State) (l : Link) (p : List Byte) : State :=
  if s.storeBusy then s.reply l .setFaultMode .busy
  else
    match parseFaultMode p with
    | .error e => s.replyRange l .setFaultMode e
    | .ok (c, m) =>
      if s.fl.modes.get c = m then s.reply l .setFaultMode .already
      else (s.reply l .setFaultMode .done).setModes (s.fl.modes.set c m)

/-- Every record acknowledged, and the ALERT line reviewed (R186). -/
def FaultLog.ackAll (f : FaultLog) : FaultLog :=
  FaultLog.review { f with records := f.records.map (fun r => { r with acked := true }) }

/-- ACK_FAULTS (R186). -/
def State.reqAckFaults (s : State) (l : Link) : State :=
  let s1 := s.reply l .ackFaults .done
  { s1 with fl := s1.fl.ackAll }

/-- READ_FAULTS (R187): the count, then up to 16 records from a place onward. -/
def State.reqReadFaults (s : State) (l : Link) (p : List Byte) : State :=
  match within 0 31 (byteAt p 0) 0 with
  | .error e => s.replyRange l .readFaults e
  | .ok n => s.answer l ReqKind.readFaults.code .done
    (byte s.fl.records.length :: ((s.fl.records.drop n).take 16).flatMap faultBytes)

/-- SUBSCRIBE (R159). -/
def State.reqSubscribe (s : State) (l : Link) (p : List Byte) : State :=
  let m := parseMask p
  let s1 := s.answer l ReqKind.subscribe.code .done [maskByte m]
  s1.setLink l { s1.link l with mask := m }

/-! ## READ_STATUS (R162, 11.5) -/

def statusTempo (te : TempoEngine) : List Byte :=
  byte te.transport.code :: int16 te.pos.bar ++ [byte te.pos.beat] ++ be16 te.pos.tick ++ be16 te.tempo
    ++ [byte te.meter, optByte te.pendingMeter, byte te.countIn] ++ be16 ((te.ramp.map Ramp.t1).getD 0)
    ++ [optByte (te.ramp.map (fun r => (r.len - r.prog + 479) / 480)), flag te.segue.isSome, byte te.source.code,
        byte te.follow.code, byte te.history.length]

def statusBus (x : ClickBus) : List Byte :=
  [byte x.pattern, byte x.level, byte x.accent, byte x.normal, byte x.sub, flag x.mute, flag x.change.isSome]

def statusIn (x : MidiIn) : List Byte :=
  [flag x.settings.enabled, optChan x.settings.filter, byte x.settings.average, byte x.settings.deadband,
   byte x.settings.interval, byte x.sensing.code] ++ be16 x.sustain.toNat

def statusOut (x : MidiOut) : List Byte :=
  [byte (bits [x.settings.enabled, x.settings.running, x.settings.clock]), byte x.mode.code, byte x.waiting,
   byte x.sounding]

def statusRouter (r : LayerRouter) : List Byte :=
  [optByte r.live.scene, flag r.staged.isSome, optByte (r.staged.map Staging.scene),
   optByte (r.staged.map (fun g => g.point.code))] ++ originBytes (r.staged.map Staging.origin)
    ++ optWord (r.claim.map CueClaim.cue)
    ++ [optByte (r.claim.map CueClaim.scene), byte (lockCode r.lock), byte r.held.length,
        byte (r.held.countP (fun e => !e.state.isSustained)), byte (r.held.countP (fun e => e.state.isSustained)),
        byte (r.held.countP (fun e => e.pend.a)), byte (r.held.countP (fun e => e.pend.b)), byte r.slots.length,
        byte (r.slots.countP (fun q => q.deadline.isSome))]

def statusSequencer (c : CueSeq) : List Byte :=
  [byte c.state.code, optByte c.setPos, optByte c.song] ++ optWord (c.current.map Latched.cue)
    ++ (match c.current with
        | some x => triggerBytes x.record.trigger
        | none => [0, 0, 0, 0])
    ++ [flag c.leadSent] ++ optWord (c.latchedNext.map Latched.cue)
    ++ [flag c.goPending, flag c.segue.isSome, optByte (c.segue.map SegueRecord.pos), flag c.deferred.isSome]

/-- Whole milliseconds left to a stamp; none once it is reached. -/
def msLeft (now d : Stamp) : Nat := if stampReached now d then 0 else (d - now).toNat / 1000

def statusLink (x : LinkState) (now : Stamp) : List Byte :=
  [flag x.high, flag x.hold.isSome] ++ be16 ((x.hold.map (msLeft now)).getD 0) ++ [byte x.free, maskByte x.mask]

def statusWatch (w : Watch) : List Byte :=
  [byte w.stations.a.state.code, byte w.stations.a.miss, byte w.stations.b.state.code, byte w.stations.b.miss,
   byte w.limit, byte (activeCode w.active), byte w.pulse,
   byte (bits [decide (w.stations.a.phase ≠ .none), decide (w.stations.b.phase ≠ .none)])]

def StoreOp.code : StoreOp → Nat
  | .none => 0
  | .saving _ => 1
  | .loading => 2

def statusFaults (f : FaultLog) : List Byte :=
  [byte f.records.length, byte (f.records.countP (fun r => !r.acked)), flag f.alert]

/-- The snapshot of 171 bytes (11.5). -/
def State.snapshot (s : State) : List Byte :=
  flag s.ready :: be32 s.millis ++ statusTempo s.te
    ++ statusBus s.ck.buses.band ++ statusBus s.ck.buses.keys
    ++ allIns.flatMap (fun i => statusIn (s.midiIn i)) ++ allOuts.flatMap (fun o => statusOut (s.midiOut o))
    ++ statusRouter s.lr ++ statusSequencer s.cs ++ allLinks.flatMap (fun l => statusLink (s.link l) s.now)
    ++ statusWatch s.sw ++ [byte s.st.status.code, byte s.st.op.code] ++ statusFaults s.fl

/-- READ_STATUS: the snapshot is read before the answer is admitted (R162). -/
def State.reqReadStatus (s : State) (l : Link) : State := s.answer l ReqKind.readStatus.code .done s.snapshot

/-! ## Every request kind -/

/-- A request that passed the checks is handed to the block that owns the state concerned (R149). -/
def State.perform (s : State) (l : Link) (k : ReqKind) (p : List Byte) : State :=
  match k with
  | .start => s.reqStart l
  | .stop => s.reqStop l p
  | .locate => s.reqLocate l p
  | .setTempo => s.reqSetTempo l p
  | .rampTempo => s.reqRampTempo l p
  | .setMeter => s.reqSetMeter l p
  | .setFollow => s.reqSetFollow l p
  | .writePattern => s.reqWritePattern l p
  | .setClick => s.reqSetClick l p
  | .muteClick => s.reqMuteClick l p
  | .writeScene => s.reqWriteScene l p
  | .loadSceneNow => s.reqLoadScene l p
  | .lock => s.reqLock l
  | .unlock => s.reqUnlock l p
  | .writeCue => s.reqWriteCue l p
  | .writeSong => s.reqWriteSong l p
  | .writeSetlist => s.reqWriteSetlist l p
  | .setInput => s.reqSetInput l p
  | .setOutput => s.reqSetOutput l p
  | .setWatch => s.reqSetWatch l p
  | .restart => s.reqRestart l
  | .saveShow => s.reqSaveShow l
  | .loadShow => s.reqLoadShow l
  | .setFaultMode => s.reqSetFaultMode l p
  | .selectSong => s.reqSelectSong l p
  | .setActive => s.reqSetActive l p
  | .ackFaults => s.reqAckFaults l
  | .go => s.reqGo l
  | .panic => s.reqPanic l
  | .readScene => s.reqReadScene l p
  | .readCue => s.reqReadCue l p
  | .readSong => s.reqReadSong l p
  | .readSetlist => s.reqReadSetlist l
  | .readStatus => s.reqReadStatus l
  | .readFaults => s.reqReadFaults l p
  | .subscribe => s.reqSubscribe l p
  | .resync => s.reqResync l p

end Sys2Proof.Machine
end

