-- ==== Sys2Proof/Machine/Receiver.lean ====
section
/-! DEFINITION. The inbound side of the Station Link Controller: the checks of a request (R148, R149), reports (R153),
the receiver byte by byte with its discards and rescans (R146, R147), HOLD and RESUME (R157, R158), the end of a
transmission (R156), and DETECT (R160, R161). -/

namespace Sys2Proof.Machine

/-! ## HOLD and RESUME (R157, R158) -/

/-- A pause ends, and transmission restarts at once (R158). -/
def LinkState.resume (x : LinkState) (now : Stamp) : LinkState := LinkState.startTx { x with hold := none } now

/-- RESUME, or a HOLD of 0 (R158). -/
def State.resumeLink (s : State) (l : Link) : State := s.setLink l ((s.link l).resume s.now)

/-- HOLD with a duration in ms, taken as at most 1,000 (R157). -/
def State.holdLink (s : State) (l : Link) (ms : Nat) : State :=
  if ms = 0 then s.resumeLink l
  else s.setLink l { s.link l with hold := some (stampAfter s.now (1000 * min 1000 ms)) }

/-- The expiry stamp is reached: the hold becomes CLEAR (R158). -/
def State.holdExpiry (s : State) (l : Link) : State :=
  if (s.link l).hold = none then s else s.resumeLink l

/-! ## Requests (R148, R149) -/

/-- The checks of R149 on a request of a known kind, and its effect when it passes. -/
def State.checkRequest (s : State) (l : Link) (k : ReqKind) (p : List Byte) : State :=
  if !k.allowed (Link.role l) then s.reply l k .denied
  else if !s.ready && decide (k ≠ .readStatus ∧ k ≠ .subscribe) then s.reply l k .busy
  else if !k.fits p then s.reply l k .bad
  else if k.fieldDenied l p then s.reply l k .denied
  else s.perform l k p

/-- A received request: with F at 0 discarded with an INBOUND_DROP fault, otherwise checked and answered (R148). -/
def State.takeRequest (s : State) (l : Link) (code : Nat) (p : List Byte) : State :=
  if (s.link l).free = 0 then s.report .inboundDrop (some (.link l))
  else
    match kindOfCode code with
    | none => s.answer l code .bad []
    | some k => s.checkRequest l k p

/-! ## Reports (R153) -/

/-- The report kinds (11.2). -/
inductive RepKind where
  | mark | echo | hold | resume
  deriving DecidableEq, Repr

def RepKind.code : RepKind → Nat
  | .mark => 1 | .echo => 2 | .hold => 3 | .resume => 4

def reportOfCode (n : Nat) : Option RepKind :=
  [RepKind.mark, .echo, .hold, .resume].find? (fun k => decide (k.code = n))

/-- The rights table for reports (R150). -/
def RepKind.allowed (k : RepKind) (r : Role) : Bool :=
  match k with
  | .mark => decide (r = .timing)
  | .echo => decide (r = .sound)
  | .hold => true
  | .resume => true

/-- The payload fits its kind (R188). -/
def RepKind.fits (k : RepKind) (p : List Byte) : Bool :=
  match k with
  | .mark => decide (p.length = 0)
  | .echo => decide (p.length = 1)
  | .hold => decide (p.length = 2)
  | .resume => decide (p.length = 0)

/-- A report that is taken (R153). -/
def State.performReport (s : State) (l : Link) (k : RepKind) (p : List Byte) : State :=
  match k with
  | .mark => s.markFrom .marks
  | .echo =>
    match l.station with
    | some x => s.echoed x (byteAt p 0)
    | none => s
  | .hold => s.holdLink l (wordAt p 0)
  | .resume => s.resumeLink l

/-- A received report (R153). -/
def State.takeReport (s : State) (l : Link) (code : Nat) (p : List Byte) : State :=
  match reportOfCode code with
  | none => s.report .badReport (some (.link l))
  | some k =>
    if !k.allowed (Link.role l) then s.report .reportDenied (some (.link l))
    else if !k.fits p then s.report .badReport (some (.link l))
    else s.performReport l k p

/-! ## Received telegrams -/

/-- A received telegram is taken by its class (R145, R148). -/
def State.takeTelegram (s : State) (l : Link) (kind : Byte) (p : List Byte) : State :=
  if kind.toNat < 64 then s.takeRequest l kind.toNat p
  else if kind.toNat < 128 then s.takeReport l (kind.toNat - 64) p
  else s.report .badClass (some (.link l))

/-- The receiver HUNTING, with nothing collected and no gap deadline. -/
def LinkState.hunt (x : LinkState) : LinkState := { x with collecting := false, collected := [], gap := none }

/-- A telegram has been received on a connected link: the receiver is HUNTING again and the telegram is taken (R146,
R148; a LOW link takes no bytes, notes/assumptions/23.md). -/
def State.telegram (s : State) (l : Link) (kind : Byte) (p : List Byte) : State :=
  if (s.link l).high then (s.setLink l (s.link l).hunt).takeTelegram l kind p else s

/-- A request of a kind, arriving whole (R148). -/
def State.request (s : State) (l : Link) (k : ReqKind) (p : List Byte) : State := s.telegram l (byte k.code) p

/-- A report of a kind, arriving whole (R153). -/
def State.reportTelegram (s : State) (l : Link) (k : RepKind) (p : List Byte) : State :=
  s.telegram l (byte (64 + k.code)) p

/-! ## The receiver (R146, R147) -/

/-- A telegram is discarded: FRAME fault, rescan list, HUNTING, no gap deadline (R147, steps 1 to 3). -/
def State.discard (s : State) (l : Link) (k : FaultKind) : State :=
  let s1 := s.report k (some (.link l))
  let x := s1.link l
  s1.setLink l { x.hunt with rescan := x.collected ++ x.rescan }

/-- LEN, once it has been collected. -/
def lenOf (collected : List Byte) : Nat := byteAt collected 0

/-- The bytes collected form a complete telegram: CHECK is compared, and the telegram is received or discarded
(R146). -/
def State.complete (s : State) (l : Link) : State :=
  let c := (s.link l).collected
  let body := c.dropLast
  if crc8 body = c.getLastD 0 then
    (s.setLink l (s.link l).hunt).takeTelegram l (c.getD 1 0) (body.drop 2)
  else s.discard l .badCheck

/-- One byte is taken by the receiver (R146). -/
def State.takeByte (s : State) (l : Link) (b : Byte) : State :=
  let x := s.link l
  let gap := some (stampAfter s.now 2000)
  if x.collecting then
    let c := x.collected ++ [b]
    let s1 := s.setLink l { x with collected := c, gap := gap }
    if 240 < lenOf c then s1.discard l .length
    else if c.length = lenOf c + 3 then s1.complete l
    else s1
  else if b = 0x9C#8 then s.setLink l { x with collecting := true, collected := [], gap := gap }
  else s

/-- The bytes of the rescan list are taken one by one, each removed as it is taken (R147, step 4). -/
def State.rescan : Nat → State → Link → State
  | 0, s, _ => s
  | n + 1, s, l =>
    match (s.link l).rescan with
    | [] => s
    | b :: r => State.rescan n (State.takeByte (s.setLink l { s.link l with rescan := r }) l b) l

/-- A bound on the bytes a rescan takes: every discard removes one byte for good, and at most as many bytes as there
are lie between two discards. -/
def LinkState.rescanBound (x : LinkState) : Nat :=
  (x.collected.length + x.rescan.length + 2) * (x.collected.length + x.rescan.length + 2)

def State.rescanAll (s : State) (l : Link) : State := State.rescan (s.link l).rescanBound s l

/-- A byte from the line: a LOW link discards it (R146). -/
def State.lineByte (s : State) (l : Link) (b : Byte) : State :=
  if (s.link l).high then (s.takeByte l b).rescanAll l else s

/-- A byte with a bad stop bit: in COLLECTING it discards the telegram with detail LINE (R146). -/
def State.badStop (s : State) (l : Link) : State :=
  if (s.link l).high && (s.link l).collecting then (s.discard l .line).rescanAll l else s

/-- The gap deadline is reached while collecting (R147). -/
def State.gapDeadline (s : State) (l : Link) : State :=
  if (s.link l).collecting && (s.link l).gap.isSome then (s.discard l .gap).rescanAll l else s

/-! ## Transmission (R156) -/

/-- The last byte of the telegram in transmission has been sent, and the next starts (R156). -/
def State.telegramSent (s : State) (l : Link) : State :=
  if (s.link l).tx = none then s else s.setLink l (LinkState.startTx { s.link l with tx := none } s.now)

/-! ## DETECT (R160, R161) -/

/-- R160, steps 1 to 6: everything of the session on the link is gone. -/
def LinkState.fallen : LinkState := LinkState.reset

/-- DETECT falls: the link's session ends, and the fall is reported to the watch or the Layer Router (R160). -/
def State.detectFalls (s : State) (l : Link) : State :=
  if (s.link l).high then
    let s1 := s.setLink l LinkState.fallen
    match l with
    | .s0 => s1.stationFall .a
    | .s1 => s1.stationFall .b
    | .s2 => s1
    | .s3 => if s1.lr.lock = some .s3 then s1.releaseLock else s1
  else s

end Sys2Proof.Machine
end

