-- ==== Sys2Proof/Machine/Time.lean ====
section
/-! DEFINITION. What time alone brings about: the events that fall due in the present microsecond, and the move to the
next microsecond (00_scope.md, Time; R2, R34, R156). -/

namespace Sys2Proof.Machine

/-! ## Events due in the present microsecond -/

/-- A stamp is present and reached. -/
def State.reached (s : State) (d : Option Stamp) : Bool :=
  match d with
  | none => false
  | some t => stampReached s.now t

/-- One event, where it is due. -/
def dueIf (b : Bool) (c : Instr) : List Instr := if b then [c] else []

/-- The engine's own events: the tick of this microsecond (R2), the last mark time (R18), the lost deadline (R21). -/
def State.dueTempo (s : State) : List Instr :=
  dueIf s.te.tickOwed .tick
    ++ dueIf (s.reached (s.te.lastMark.map (stampAfter · 2000000))) .lastMarkExpiry
    ++ dueIf (s.reached s.te.lostDeadline) .lostDeadline

/-- An input's sensing deadline (R48). -/
def State.dueInput (s : State) (i : InPort) : List Instr :=
  dueIf (decide ((s.midiIn i).sensing = .watched) && s.reached (s.midiIn i).deadline) (.sensingDeadline i)

/-- A filter slot's pending deadline (R110) and last forward time (R106). -/
def State.dueSlot (s : State) (q : Slot) : List Instr :=
  dueIf (s.reached q.deadline) (.filterExpiry q.key)
    ++ dueIf (s.reached (q.lastTime.map (stampAfter · 8000))) (.forwardTimeExpiry q.key)

/-- An output's byte on the line (R55) and its passage from DRAINING to DISABLED (R56). -/
def State.dueOutput (s : State) (o : OutPort) : List Instr :=
  let x := s.midiOut o
  dueIf (s.reached (x.line.map LineByte.ends)) (.outputByteSent o)
    ++ dueIf (decide (x.mode = .draining) && x.drained) (.outputDisabled o)

/-- The telegram in transmission has only its last byte to send, and that byte is out (R156). -/
def State.lastByteOut (s : State) (l : Link) : Bool :=
  match (s.link l).tx with
  | none => false
  | some t => decide (t.left.length ≤ 1) && stampReached s.now t.byteEnds

/-- A link's hold expiry (R158), gap deadline (R147) and end of transmission (R156). -/
def State.dueLink (s : State) (l : Link) : List Instr :=
  dueIf (s.reached (s.link l).hold) (.holdExpiry l)
    ++ dueIf ((s.link l).collecting && s.reached (s.link l).gap) (.gapDeadline l)
    ++ dueIf (s.lastByteOut l) (.telegramSent l)

/-- A station's resync: its ALL_OFF, the entry at its cursor, or its JOINED can be admitted (R171 to R173). -/
def State.dueStation (s : State) (x : Station) : List Instr :=
  dueIf (s.allOffReady x) (.resyncAllOff x) ++ dueIf (s.replayReady x) (.resyncReplay x)
    ++ dueIf (s.joinedReady x) (.resyncJoined x)

/-- Every event due in the present microsecond. -/
def State.due (s : State) : List Instr :=
  s.dueTempo ++ allIns.flatMap s.dueInput ++ s.lr.slots.flatMap s.dueSlot ++ allOuts.flatMap s.dueOutput
    ++ allLinks.flatMap s.dueLink ++ dueIf (stampReached s.now s.sw.deadline) .pulseDeadline
    ++ allStations.flatMap s.dueStation

/-! ## The next microsecond -/

/-- A sample period boundary, a multiple of 125/6 µs, falls within the present microsecond (R34). -/
def sampleBoundary (micros : Nat) : Bool := decide ((6 * micros + 124) / 125 * 125 < 6 * micros + 6)

/-- A byte of a telegram other than its last is out: the next follows it back to back (R156). -/
def LinkState.shiftByte (x : LinkState) (now : Stamp) : LinkState :=
  match x.tx with
  | none => x
  | some t =>
    match t.left with
    | _ :: b :: r =>
      if stampReached now t.byteEnds then
        { x with tx := some { t with left := b :: r, byteEnds := stampAfter t.byteEnds 10 } }
      else x
    | [_] => x
    | [] => x

/-- One addition to the accumulator (R2). -/
def TempoEngine.addTempo (te : TempoEngine) : TempoEngine :=
  if te.transport.ticking then
    let a := te.acc + te.tempo
    if Config.modulus ≤ a then { te with acc := a - Config.modulus, tickOwed := true } else { te with acc := a }
  else te

/-- The bytes on the links' lines. -/
def State.shiftBytes (s : State) : State := allLinks.foldl (fun s l => s.setLink l ((s.link l).shiftByte s.now)) s

/-- Every event of the present microsecond has been taken: a sample period whose boundary lies in it begins, and the
counter moves on by one microsecond, with its addition to the accumulator (R2, R34; notes/assumptions/26.md). -/
def State.advance (s : State) : State :=
  let s1 := if sampleBoundary s.micros then s.sampleBuses else s
  let s2 := s1.shiftBytes
  { s2 with micros := s2.micros + 1, te := s2.te.addTempo }

/-- Which of several due events is taken first: the manual lets them be taken in any order (the same-microsecond cases
of its rules), so the choice is free (notes/assumptions/2.md). -/
def pickDue (choice : Nat) (c : Instr) (cs : List Instr) : Instr := (c :: cs).getD (choice % (cs.length + 1)) c

end Sys2Proof.Machine
end

