-- ==== Sys2Proof/Machine/TempoCommands.lean ====
section
/-! DEFINITION. The meanings of the commands of the Tempo Engine, the Click Generator and the part as a whole: reset and
start-up, ticks and marks, transport, tempo, follower and click requests. -/

namespace Sys2Proof.Machine

/-- RESET (R183). -/
def execReset (cause : ResetCause) (detect : PerLink Bool) (s : State) : Host.Outcome State Fault Refusal :=
  .next (s.resets cause detect)

/-- STARTUP_IMAGE_READ (R183). -/
def execStartupImageRead (s : State) : Host.Outcome State Fault Refusal :=
  .next (s.startupEnds)

/-- TICK (R2). -/
def execTick (s : State) : Host.Outcome State Fault Refusal :=
  .next (s.tick)

/-- SAMPLE_PERIOD (R35). -/
def execSamplePeriod (s : State) : Host.Outcome State Fault Refusal :=
  .next (s.sampleBuses)

/-- BEAT_EDGE (R18). -/
def execBeatEdge (s : State) : Host.Outcome State Fault Refusal :=
  .next (s.markFrom .line)

/-- MARK (R18, R153). -/
def execMark (l : Link) (pay : List Byte) (s : State) : Host.Outcome State Fault Refusal :=
  .next (s.reportTelegram l .mark pay)

/-- LAST_MARK_EXPIRY (R18). -/
def execLastMarkExpiry (s : State) : Host.Outcome State Fault Refusal :=
  .next (s.lastMarkExpiry)

/-- LOST_DEADLINE (R21). -/
def execLostDeadline (s : State) : Host.Outcome State Fault Refusal :=
  .next (s.lostDeadline)

/-- START (R10). -/
def execStart (l : Link) (pay : List Byte) (s : State) : Host.Outcome State Fault Refusal :=
  .next (s.request l .start pay)

/-- STOP with mode NOW (R12). -/
def execStopNow (l : Link) (extra : List Byte) (s : State) : Host.Outcome State Fault Refusal :=
  .next (s.request l .stop (0 :: extra))

/-- STOP with mode AT_BAR (R13). -/
def execStopAtBar (l : Link) (extra : List Byte) (s : State) : Host.Outcome State Fault Refusal :=
  .next (s.request l .stop (1 :: extra))

/-- LOCATE (R14). -/
def execLocate (l : Link) (pay : List Byte) (s : State) : Host.Outcome State Fault Refusal :=
  .next (s.request l .locate pay)

/-- SET_TEMPO (R5). -/
def execSetTempo (l : Link) (pay : List Byte) (s : State) : Host.Outcome State Fault Refusal :=
  .next (s.request l .setTempo pay)

/-- RAMP_TEMPO (R6). -/
def execRampTempo (l : Link) (pay : List Byte) (s : State) : Host.Outcome State Fault Refusal :=
  .next (s.request l .rampTempo pay)

/-- SET_METER (R8). -/
def execSetMeter (l : Link) (pay : List Byte) (s : State) : Host.Outcome State Fault Refusal :=
  .next (s.request l .setMeter pay)

/-- SET_FOLLOW (R17). -/
def execSetFollow (l : Link) (pay : List Byte) (s : State) : Host.Outcome State Fault Refusal :=
  .next (s.request l .setFollow pay)

/-- WRITE_PATTERN (R27). -/
def execWritePattern (l : Link) (pay : List Byte) (s : State) : Host.Outcome State Fault Refusal :=
  .next (s.request l .writePattern pay)

/-- SET_CLICK (R28). -/
def execSetClick (l : Link) (pay : List Byte) (s : State) : Host.Outcome State Fault Refusal :=
  .next (s.request l .setClick pay)

/-- MUTE_CLICK (R31). -/
def execMuteClick (l : Link) (pay : List Byte) (s : State) : Host.Outcome State Fault Refusal :=
  .next (s.request l .muteClick pay)

end Sys2Proof.Machine
end

