-- ==== Sys2Proof/Machine/ShowCommands.lean ====
section
/-! DEFINITION. The meanings of the commands of the scene, cue and song tables, the performance lock, the sequencer, the
settings, the Show Store and the Fault Log. -/

namespace Sys2Proof.Machine

/-- WRITE_SCENE (R62). -/
def execWriteScene (l : Link) (pay : List Byte) (s : State) : Host.Outcome State Fault Refusal :=
  .next (s.request l .writeScene pay)

/-- READ_SCENE (R63). -/
def execReadScene (l : Link) (pay : List Byte) (s : State) : Host.Outcome State Fault Refusal :=
  .next (s.request l .readScene pay)

/-- LOAD_SCENE_NOW (R66). -/
def execLoadSceneNow (l : Link) (pay : List Byte) (s : State) : Host.Outcome State Fault Refusal :=
  .next (s.request l .loadSceneNow pay)

/-- LOCK (R75). -/
def execLock (l : Link) (pay : List Byte) (s : State) : Host.Outcome State Fault Refusal :=
  .next (s.request l .lock pay)

/-- UNLOCK (R76). -/
def execUnlock (l : Link) (pay : List Byte) (s : State) : Host.Outcome State Fault Refusal :=
  .next (s.request l .unlock pay)

/-- WRITE_CUE (R122). -/
def execWriteCue (l : Link) (pay : List Byte) (s : State) : Host.Outcome State Fault Refusal :=
  .next (s.request l .writeCue pay)

/-- READ_CUE (R122). -/
def execReadCue (l : Link) (pay : List Byte) (s : State) : Host.Outcome State Fault Refusal :=
  .next (s.request l .readCue pay)

/-- WRITE_SONG (R119). -/
def execWriteSong (l : Link) (pay : List Byte) (s : State) : Host.Outcome State Fault Refusal :=
  .next (s.request l .writeSong pay)

/-- READ_SONG (R119). -/
def execReadSong (l : Link) (pay : List Byte) (s : State) : Host.Outcome State Fault Refusal :=
  .next (s.request l .readSong pay)

/-- WRITE_SETLIST (R120). -/
def execWriteSetlist (l : Link) (pay : List Byte) (s : State) : Host.Outcome State Fault Refusal :=
  .next (s.request l .writeSetlist pay)

/-- READ_SETLIST (R120). -/
def execReadSetlist (l : Link) (pay : List Byte) (s : State) : Host.Outcome State Fault Refusal :=
  .next (s.request l .readSetlist pay)

/-- SELECT_SONG (R138). -/
def execSelectSong (l : Link) (pay : List Byte) (s : State) : Host.Outcome State Fault Refusal :=
  .next (s.request l .selectSong pay)

/-- GO (R129). -/
def execGo (l : Link) (pay : List Byte) (s : State) : Host.Outcome State Fault Refusal :=
  .next (s.request l .go pay)

/-- SET_INPUT (R49). -/
def execSetInput (l : Link) (pay : List Byte) (s : State) : Host.Outcome State Fault Refusal :=
  .next (s.request l .setInput pay)

/-- SET_OUTPUT (R56). -/
def execSetOutput (l : Link) (pay : List Byte) (s : State) : Host.Outcome State Fault Refusal :=
  .next (s.request l .setOutput pay)

/-- SET_WATCH (R177). -/
def execSetWatch (l : Link) (pay : List Byte) (s : State) : Host.Outcome State Fault Refusal :=
  .next (s.request l .setWatch pay)

/-- RESTART (R24). -/
def execRestart (l : Link) (pay : List Byte) (s : State) : Host.Outcome State Fault Refusal :=
  .next (s.request l .restart pay)

/-- SAVE_SHOW (R181). -/
def execSaveShow (l : Link) (pay : List Byte) (s : State) : Host.Outcome State Fault Refusal :=
  .next (s.request l .saveShow pay)

/-- SAVE_DONE (R181). -/
def execSaveDone (e : SaveEnd) (s : State) : Host.Outcome State Fault Refusal :=
  .next (s.saveEnds e)

/-- LOAD_SHOW (R182). -/
def execLoadShow (l : Link) (pay : List Byte) (s : State) : Host.Outcome State Fault Refusal :=
  .next (s.request l .loadShow pay)

/-- LOAD_DONE (R182). -/
def execLoadDone (s : State) : Host.Outcome State Fault Refusal :=
  .next (s.loadEnds)

/-- SET_FAULT_MODE (R184). -/
def execSetFaultMode (l : Link) (pay : List Byte) (s : State) : Host.Outcome State Fault Refusal :=
  .next (s.request l .setFaultMode pay)

/-- SET_ACTIVE (R176). -/
def execSetActive (l : Link) (pay : List Byte) (s : State) : Host.Outcome State Fault Refusal :=
  .next (s.request l .setActive pay)

/-- ACK_FAULTS (R186). -/
def execAckFaults (l : Link) (pay : List Byte) (s : State) : Host.Outcome State Fault Refusal :=
  .next (s.request l .ackFaults pay)

/-- PANIC (R101). -/
def execPanic (l : Link) (pay : List Byte) (s : State) : Host.Outcome State Fault Refusal :=
  .next (s.request l .panic pay)

/-- READ_STATUS (R162). -/
def execReadStatus (l : Link) (pay : List Byte) (s : State) : Host.Outcome State Fault Refusal :=
  .next (s.request l .readStatus pay)

/-- READ_FAULTS (R187). -/
def execReadFaults (l : Link) (pay : List Byte) (s : State) : Host.Outcome State Fault Refusal :=
  .next (s.request l .readFaults pay)

/-- SUBSCRIBE (R159). -/
def execSubscribe (l : Link) (pay : List Byte) (s : State) : Host.Outcome State Fault Refusal :=
  .next (s.request l .subscribe pay)

/-- RESYNC (R178). -/
def execResync (l : Link) (pay : List Byte) (s : State) : Host.Outcome State Fault Refusal :=
  .next (s.request l .resync pay)

end Sys2Proof.Machine
end

