-- ==== Sys2Proof/Machine/LinkCommands.lean ====
section
/-! DEFINITION. The meanings of the commands of the station links and the Sound Station Watch: reports, telegrams that are
not taken, the receiver and the transmitter, DETECT, pulses and resyncs. -/

namespace Sys2Proof.Machine

/-- A request whose kind code names no request kind: BAD (R149, check 1). -/
def execUnknownRequest (l : Link) (code : Fin 64) (pay : List Byte) (s : State) : Host.Outcome State Fault Refusal :=
  .next (s.telegram l (byte code.val) pay)

/-- ECHO (R166). -/
def execEcho (l : Link) (pay : List Byte) (s : State) : Host.Outcome State Fault Refusal :=
  .next (s.reportTelegram l .echo pay)

/-- HOLD (R157). -/
def execHold (l : Link) (pay : List Byte) (s : State) : Host.Outcome State Fault Refusal :=
  .next (s.reportTelegram l .hold pay)

/-- RESUME (R158). -/
def execResume (l : Link) (pay : List Byte) (s : State) : Host.Outcome State Fault Refusal :=
  .next (s.reportTelegram l .resume pay)

/-- HOLD_EXPIRY (R158). -/
def execHoldExpiry (l : Link) (s : State) : Host.Outcome State Fault Refusal :=
  .next (s.holdExpiry l)

/-- A telegram of class answer or notice (R148). -/
def execBadClassTelegram (l : Link) (kind : Byte) (pay : List Byte) (s : State) : Host.Outcome State Fault Refusal :=
  .next (s.telegram l kind pay)

/-- A report of unknown kind or with a payload that does not fit (R153). -/
def execBadReport (l : Link) (code : Fin 64) (pay : List Byte) (s : State) : Host.Outcome State Fault Refusal :=
  .next (s.telegram l (byte (64 + code.val)) pay)

/-- A report from a role without the right (R153). -/
def execReportDenied (l : Link) (code : Fin 64) (pay : List Byte) (s : State) : Host.Outcome State Fault Refusal :=
  .next (s.telegram l (byte (64 + code.val)) pay)

/-- The byte, or the bad stop bit, that discards the telegram being collected (R146, R147). -/
def execTelegramDiscard (l : Link) (e : RxEvent) (s : State) : Host.Outcome State Fault Refusal :=
  .next (match e with
    | .byte b => s.lineByte l b
    | .badStop => s.badStop l)

/-- GAP_DEADLINE (R147). -/
def execGapDeadline (l : Link) (s : State) : Host.Outcome State Fault Refusal :=
  .next (s.gapDeadline l)

/-- TELEGRAM_SENT (R156). -/
def execTelegramSent (l : Link) (s : State) : Host.Outcome State Fault Refusal :=
  .next (s.telegramSent l)

/-- DETECT_FALL (R160). -/
def execDetectFall (l : Link) (s : State) : Host.Outcome State Fault Refusal :=
  .next (s.detectFalls l)

/-- DETECT_RISE (R161). -/
def execDetectRise (l : Link) (s : State) : Host.Outcome State Fault Refusal :=
  .next (s.detectRises l)

/-- PULSE_DEADLINE (R164). -/
def execPulseDeadline (s : State) : Host.Outcome State Fault Refusal :=
  .next (s.pulse)

/-- RESYNC_ALL_OFF (R171). -/
def execResyncAllOff (x : Station) (s : State) : Host.Outcome State Fault Refusal :=
  .next (s.resyncAllOff x)

/-- RESYNC_REPLAY (R172). -/
def execResyncReplay (x : Station) (s : State) : Host.Outcome State Fault Refusal :=
  .next (s.resyncReplay x)

/-- RESYNC_JOINED (R173). -/
def execResyncJoined (x : Station) (s : State) : Host.Outcome State Fault Refusal :=
  .next (s.resyncJoined x)

/-- A byte from the line, taken by the link's receiver (R146). -/
def execLinkByte (l : Link) (b : Byte) (s : State) : Host.Outcome State Fault Refusal :=
  .next (s.lineByte l b)

end Sys2Proof.Machine
end

