-- ==== Sys2Proof/Machine/MidiCommands.lean ====
section
/-! DEFINITION. The meanings of the commands of the MIDI inputs, the filter slots and the MIDI outputs. -/

namespace Sys2Proof.Machine

/-! ## The bytes and moves the commands stand for -/

/-- A system exclusive message: F0h, its data bytes, F7h (R41, R44; notes/assumptions/30.md). -/
def exclusiveBytes (data : List Val7) : List Byte := 0xF0#8 :: data.map (fun d => byte d.val) ++ [0xF7#8]

/-- A system common message with its data bytes (R41). -/
def commonBytes : SysCommon → List Byte
  | .f1 d => [0xF1#8, byte d.val]
  | .f2 d e => [0xF2#8, byte d.val, byte e.val]
  | .f3 d => [0xF3#8, byte d.val]
  | .f4 => [0xF4#8]
  | .f5 => [0xF5#8]
  | .f6 => [0xF6#8]
  | .f7 => [0xF7#8]

/-- The real-time bytes other than FEh (R43). -/
def realTimeByte : RealTime → Byte
  | .f8 => 0xF8#8
  | .f9 => 0xF9#8
  | .fa => 0xFA#8
  | .fb => 0xFB#8
  | .fc => 0xFC#8
  | .fd => 0xFD#8
  | .ff => 0xFF#8

/-- The byte on an output's line finishes (R55). -/
def State.outputByteSent (s : State) (o : OutPort) : State := s.setOut o ((s.midiOut o).byteSent s.now)

/-- A DRAINING output with nothing sounding, waiting or in transmission becomes DISABLED (R56). -/
def State.outputDrained (s : State) (o : OutPort) : State :=
  if (s.midiOut o).mode = .draining ∧ (s.midiOut o).drained = true then s.setOut o (s.midiOut o).disable else s

/-! ## The commands -/

/-- NOTE_ON (R45, R88). -/
def execNoteOn (i : InPort) (c : Chan) (key vel : Val7) (s : State) : Host.Outcome State Fault Refusal :=
  .next (s.messageArrives i c (.noteOn key vel))

/-- NOTE_OFF (R45, R92). -/
def execNoteOff (i : InPort) (c : Chan) (key vel : Val7) (s : State) : Host.Outcome State Fault Refusal :=
  .next (s.messageArrives i c (.noteOff key vel))

/-- Control change 64 (R46). -/
def execSustainChange (i : InPort) (c : Chan) (value : Val7) (s : State) : Host.Outcome State Fault Refusal :=
  .next (s.messageArrives i c (.control 64 value))

/-- Control change 123 (R47). -/
def execAllNotesOff (i : InPort) (c : Chan) (value : Val7) (s : State) : Host.Outcome State Fault Refusal :=
  .next (s.messageArrives i c (.control 123 value))

/-- FEh (R43, R48). -/
def execActiveSensing (i : InPort) (s : State) : Host.Outcome State Fault Refusal :=
  .next (s.midiByte i 0xFE#8)

/-- SENSING_DEADLINE (R48). -/
def execSensingDeadline (i : InPort) (s : State) : Host.Outcome State Fault Refusal :=
  .next (s.sensingLoss i)

/-- A byte with a bad stop bit (R40). -/
def execInputFramingError (i : InPort) (s : State) : Host.Outcome State Fault Refusal :=
  .next (s.framingError i)

/-- F0h, data bytes, F7h (R41, R44). -/
def execSystemExclusive (i : InPort) (data : List Val7) (s : State) : Host.Outcome State Fault Refusal :=
  .next (s.midiBytes i (exclusiveBytes data))

/-- A system common message (R41). -/
def execSystemCommon (i : InPort) (m : SysCommon) (s : State) : Host.Outcome State Fault Refusal :=
  .next (s.midiBytes i (commonBytes m))

/-- A real-time byte other than FEh (R43). -/
def execRealTimeDiscard (i : InPort) (b : RealTime) (s : State) : Host.Outcome State Fault Refusal :=
  .next (s.midiByte i (realTimeByte b))

/-- A channel message that is parsed and discarded (R45). -/
def execChannelMessageDiscard (i : InPort) (c : Chan) (m : ChanMsg) (s : State) : Host.Outcome State Fault Refusal :=
  .next (s.messageArrives i c (m))

/-- CONTROL_CHANGE (R45, R107). -/
def execControlChange (i : InPort) (c : Chan) (number value : Val7) (s : State) : Host.Outcome State Fault Refusal :=
  .next (s.messageArrives i c (.control number value))

/-- CHANNEL_PRESSURE (R45, R107). -/
def execChannelPressure (i : InPort) (c : Chan) (value : Val7) (s : State) : Host.Outcome State Fault Refusal :=
  .next (s.messageArrives i c (.pressure value))

/-- FILTER_EXPIRY (R110). -/
def execFilterExpiry (k : SlotKey) (s : State) : Host.Outcome State Fault Refusal :=
  .next (s.slotExpiry k)

/-- FORWARD_TIME_EXPIRY (R106). -/
def execForwardTimeExpiry (k : SlotKey) (s : State) : Host.Outcome State Fault Refusal :=
  .next (s.forwardTimeExpiry k)

/-- PITCH_BEND (R45, R114). -/
def execPitchBend (i : InPort) (c : Chan) (lsb msb : Val7) (s : State) : Host.Outcome State Fault Refusal :=
  .next (s.messageArrives i c (.bend lsb msb))

/-- PROGRAM_CHANGE (R45, R115). -/
def execProgramChange (i : InPort) (c : Chan) (program : Val7) (s : State) : Host.Outcome State Fault Refusal :=
  .next (s.messageArrives i c (.program program))

/-- OUTPUT_BYTE_SENT (R55). -/
def execOutputByteSent (o : OutPort) (s : State) : Host.Outcome State Fault Refusal :=
  .next (s.outputByteSent o)

/-- OUTPUT_DISABLED (R56). -/
def execOutputDisabled (o : OutPort) (s : State) : Host.Outcome State Fault Refusal :=
  .next (s.outputDrained o)

/-- One byte of a MIDI message, taken by the input's parser (R40 to R44). -/
def execPartialMessageByte (i : InPort) (b : Byte) (s : State) : Host.Outcome State Fault Refusal :=
  .next (s.midiByte i b)

end Sys2Proof.Machine
end

