-- ==== Sys2Proof/Machine/Dispatch.lean ====
section
/-! DEFINITION. One arm per command: the direct call of its meaning. -/

namespace Sys2Proof.Machine

def exec (i : Instr) (s : State) : Host.Outcome State Fault Refusal :=
  match i with
  | .reset cause detect => Sys2Proof.Machine.execReset cause detect s
  | .startupImageRead => Sys2Proof.Machine.execStartupImageRead s
  | .tick => Sys2Proof.Machine.execTick s
  | .samplePeriod => Sys2Proof.Machine.execSamplePeriod s
  | .beatEdge => Sys2Proof.Machine.execBeatEdge s
  | .mark l pay => Sys2Proof.Machine.execMark l pay s
  | .lastMarkExpiry => Sys2Proof.Machine.execLastMarkExpiry s
  | .lostDeadline => Sys2Proof.Machine.execLostDeadline s
  | .start l pay => Sys2Proof.Machine.execStart l pay s
  | .stopNow l extra => Sys2Proof.Machine.execStopNow l extra s
  | .stopAtBar l extra => Sys2Proof.Machine.execStopAtBar l extra s
  | .locate l pay => Sys2Proof.Machine.execLocate l pay s
  | .setTempo l pay => Sys2Proof.Machine.execSetTempo l pay s
  | .rampTempo l pay => Sys2Proof.Machine.execRampTempo l pay s
  | .setMeter l pay => Sys2Proof.Machine.execSetMeter l pay s
  | .setFollow l pay => Sys2Proof.Machine.execSetFollow l pay s
  | .writePattern l pay => Sys2Proof.Machine.execWritePattern l pay s
  | .setClick l pay => Sys2Proof.Machine.execSetClick l pay s
  | .muteClick l pay => Sys2Proof.Machine.execMuteClick l pay s
  | .writeScene l pay => Sys2Proof.Machine.execWriteScene l pay s
  | .readScene l pay => Sys2Proof.Machine.execReadScene l pay s
  | .loadSceneNow l pay => Sys2Proof.Machine.execLoadSceneNow l pay s
  | .lock l pay => Sys2Proof.Machine.execLock l pay s
  | .unlock l pay => Sys2Proof.Machine.execUnlock l pay s
  | .writeCue l pay => Sys2Proof.Machine.execWriteCue l pay s
  | .readCue l pay => Sys2Proof.Machine.execReadCue l pay s
  | .writeSong l pay => Sys2Proof.Machine.execWriteSong l pay s
  | .readSong l pay => Sys2Proof.Machine.execReadSong l pay s
  | .writeSetlist l pay => Sys2Proof.Machine.execWriteSetlist l pay s
  | .readSetlist l pay => Sys2Proof.Machine.execReadSetlist l pay s
  | .selectSong l pay => Sys2Proof.Machine.execSelectSong l pay s
  | .go l pay => Sys2Proof.Machine.execGo l pay s
  | .setInput l pay => Sys2Proof.Machine.execSetInput l pay s
  | .setOutput l pay => Sys2Proof.Machine.execSetOutput l pay s
  | .setWatch l pay => Sys2Proof.Machine.execSetWatch l pay s
  | .restart l pay => Sys2Proof.Machine.execRestart l pay s
  | .saveShow l pay => Sys2Proof.Machine.execSaveShow l pay s
  | .saveDone e => Sys2Proof.Machine.execSaveDone e s
  | .loadShow l pay => Sys2Proof.Machine.execLoadShow l pay s
  | .loadDone => Sys2Proof.Machine.execLoadDone s
  | .setFaultMode l pay => Sys2Proof.Machine.execSetFaultMode l pay s
  | .setActive l pay => Sys2Proof.Machine.execSetActive l pay s
  | .ackFaults l pay => Sys2Proof.Machine.execAckFaults l pay s
  | .panic l pay => Sys2Proof.Machine.execPanic l pay s
  | .readStatus l pay => Sys2Proof.Machine.execReadStatus l pay s
  | .readFaults l pay => Sys2Proof.Machine.execReadFaults l pay s
  | .subscribe l pay => Sys2Proof.Machine.execSubscribe l pay s
  | .resync l pay => Sys2Proof.Machine.execResync l pay s
  | .unknownRequest l code pay => Sys2Proof.Machine.execUnknownRequest l code pay s
  | .echo l pay => Sys2Proof.Machine.execEcho l pay s
  | .hold l pay => Sys2Proof.Machine.execHold l pay s
  | .resume l pay => Sys2Proof.Machine.execResume l pay s
  | .holdExpiry l => Sys2Proof.Machine.execHoldExpiry l s
  | .badClassTelegram l kind pay => Sys2Proof.Machine.execBadClassTelegram l kind pay s
  | .badReport l code pay => Sys2Proof.Machine.execBadReport l code pay s
  | .reportDenied l code pay => Sys2Proof.Machine.execReportDenied l code pay s
  | .telegramDiscard l e => Sys2Proof.Machine.execTelegramDiscard l e s
  | .gapDeadline l => Sys2Proof.Machine.execGapDeadline l s
  | .telegramSent l => Sys2Proof.Machine.execTelegramSent l s
  | .detectFall l => Sys2Proof.Machine.execDetectFall l s
  | .detectRise l => Sys2Proof.Machine.execDetectRise l s
  | .pulseDeadline => Sys2Proof.Machine.execPulseDeadline s
  | .resyncAllOff x => Sys2Proof.Machine.execResyncAllOff x s
  | .resyncReplay x => Sys2Proof.Machine.execResyncReplay x s
  | .resyncJoined x => Sys2Proof.Machine.execResyncJoined x s
  | .noteOn port c key vel => Sys2Proof.Machine.execNoteOn port c key vel s
  | .noteOff port c key vel => Sys2Proof.Machine.execNoteOff port c key vel s
  | .sustainChange port c value => Sys2Proof.Machine.execSustainChange port c value s
  | .allNotesOff port c value => Sys2Proof.Machine.execAllNotesOff port c value s
  | .activeSensing port => Sys2Proof.Machine.execActiveSensing port s
  | .sensingDeadline port => Sys2Proof.Machine.execSensingDeadline port s
  | .inputFramingError port => Sys2Proof.Machine.execInputFramingError port s
  | .systemExclusive port data => Sys2Proof.Machine.execSystemExclusive port data s
  | .systemCommon port m => Sys2Proof.Machine.execSystemCommon port m s
  | .realTimeDiscard port b => Sys2Proof.Machine.execRealTimeDiscard port b s
  | .channelMessageDiscard port c m => Sys2Proof.Machine.execChannelMessageDiscard port c m s
  | .controlChange port c number value => Sys2Proof.Machine.execControlChange port c number value s
  | .channelPressure port c value => Sys2Proof.Machine.execChannelPressure port c value s
  | .filterExpiry k => Sys2Proof.Machine.execFilterExpiry k s
  | .forwardTimeExpiry k => Sys2Proof.Machine.execForwardTimeExpiry k s
  | .pitchBend port c lsb msb => Sys2Proof.Machine.execPitchBend port c lsb msb s
  | .programChange port c program => Sys2Proof.Machine.execProgramChange port c program s
  | .outputByteSent o => Sys2Proof.Machine.execOutputByteSent o s
  | .outputDisabled o => Sys2Proof.Machine.execOutputDisabled o s
  | .partialMessageByte port b => Sys2Proof.Machine.execPartialMessageByte port b s
  | .linkByte l b => Sys2Proof.Machine.execLinkByte l b s

end Sys2Proof.Machine
end

