-- ==== Sys2Proof/Machine/Step.lean ====
section
/-! DEFINITION. One step of the part: the command at the front of the queue, or, with nothing waiting, an event that is
due in the present microsecond, or the move to the next microsecond. -/

namespace Sys2Proof.Machine

/-- With no command waiting: one of the events due, freely chosen where several are, and otherwise the next microsecond
(DESIGN CHOICE, notes/assumptions/8.md). -/
def State.idle (s : State) : Host.Outcome State Fault Refusal :=
  match s.due with
  | [] => .next s.advance
  | [c] => exec c s
  | c :: cs => exec (pickDue (Config.pick s.choices) c cs) s.choose

/-- The command at the front of the queue is taken with the queue's rest; on an empty queue time passes. -/
def step (s : State) : Host.Outcome State Fault Refusal :=
  match s.pending with
  | c :: rest => exec c { s with pending := rest }
  | [] => s.idle

/-- The command a word spells put at the front of the queue. The table gives no row any bits, so no word spells a
command and the state stays as it is. -/
def State.withFetchWord (s : State) (nbits w : Nat) : State :=
  match decodeTableWord nbits w with
  | some c => { s with pending := c :: s.pending }
  | none => s

end Sys2Proof.Machine
end

