-- ==== Sys2Proof/WellFormed.lean ====
section
/-! DEFINITION. Which terms of `Instr` are the commands their rows name: payloads that a telegram can carry, report rows
on the links that may send them, codes that name no kind in the rows for unknown kinds, and MIDI messages of their
row. -/

namespace Sys2Proof

/-- A payload that a telegram can carry (R145). -/
def fitsTelegram (pay : List Byte) : Bool := decide (pay.length ≤ 240)

/-- The report of a code is known, and the link's role has the right to it (R150, R153). -/
def reportRight (l : Link) (code : Nat) : Bool :=
  match Machine.reportOfCode code with
  | none => false
  | some k => k.allowed (Machine.Link.role l)

/-- The report of a code is known, and the link's role has no right to it (R153). -/
def reportWrong (l : Link) (code : Nat) : Bool :=
  match Machine.reportOfCode code with
  | none => false
  | some k => !k.allowed (Machine.Link.role l)

/-- The code names no report kind, or the payload does not fit its kind (R153). -/
def reportBad (code : Nat) (pay : List Byte) : Bool :=
  match Machine.reportOfCode code with
  | none => true
  | some k => !k.fits pay

/-- The command is one its row names. -/
def Instr.wellFormed (i : Instr) : Bool :=
  match i with
  | .reset _ _ => true
  | .startupImageRead => true
  | .tick => true
  | .samplePeriod => true
  | .beatEdge => true
  | .mark l pay => Machine.RepKind.allowed .mark (Machine.Link.role l) && Machine.RepKind.fits .mark pay
  | .lastMarkExpiry => true
  | .lostDeadline => true
  | .start _ pay => fitsTelegram pay
  | .stopNow _ extra => decide (extra.length ≤ 239)
  | .stopAtBar _ extra => decide (extra.length ≤ 239)
  | .locate _ pay => fitsTelegram pay
  | .setTempo _ pay => fitsTelegram pay
  | .rampTempo _ pay => fitsTelegram pay
  | .setMeter _ pay => fitsTelegram pay
  | .setFollow _ pay => fitsTelegram pay
  | .writePattern _ pay => fitsTelegram pay
  | .setClick _ pay => fitsTelegram pay
  | .muteClick _ pay => fitsTelegram pay
  | .writeScene _ pay => fitsTelegram pay
  | .readScene _ pay => fitsTelegram pay
  | .loadSceneNow _ pay => fitsTelegram pay
  | .lock _ pay => fitsTelegram pay
  | .unlock _ pay => fitsTelegram pay
  | .writeCue _ pay => fitsTelegram pay
  | .readCue _ pay => fitsTelegram pay
  | .writeSong _ pay => fitsTelegram pay
  | .readSong _ pay => fitsTelegram pay
  | .writeSetlist _ pay => fitsTelegram pay
  | .readSetlist _ pay => fitsTelegram pay
  | .selectSong _ pay => fitsTelegram pay
  | .go _ pay => fitsTelegram pay
  | .setInput _ pay => fitsTelegram pay
  | .setOutput _ pay => fitsTelegram pay
  | .setWatch _ pay => fitsTelegram pay
  | .restart _ pay => fitsTelegram pay
  | .saveShow _ pay => fitsTelegram pay
  | .saveDone _ => true
  | .loadShow _ pay => fitsTelegram pay
  | .loadDone => true
  | .setFaultMode _ pay => fitsTelegram pay
  | .setActive _ pay => fitsTelegram pay
  | .ackFaults _ pay => fitsTelegram pay
  | .panic _ pay => fitsTelegram pay
  | .readStatus _ pay => fitsTelegram pay
  | .readFaults _ pay => fitsTelegram pay
  | .subscribe _ pay => fitsTelegram pay
  | .resync _ pay => fitsTelegram pay
  | .unknownRequest _ code pay => decide (Machine.kindOfCode code.val = none) && fitsTelegram pay
  | .echo l pay => Machine.RepKind.allowed .echo (Machine.Link.role l) && Machine.RepKind.fits .echo pay
  | .hold l pay => Machine.RepKind.allowed .hold (Machine.Link.role l) && Machine.RepKind.fits .hold pay
  | .resume l pay => Machine.RepKind.allowed .resume (Machine.Link.role l) && Machine.RepKind.fits .resume pay
  | .holdExpiry _ => true
  | .badClassTelegram _ kind pay => decide (128 ≤ kind.toNat) && fitsTelegram pay
  | .badReport l code pay =>
    (decide (Machine.reportOfCode code.val = none) || reportRight l code.val) && reportBad code.val pay && fitsTelegram pay
  | .reportDenied l code pay => reportWrong l code.val && fitsTelegram pay
  | .telegramDiscard _ _ => true
  | .gapDeadline _ => true
  | .telegramSent _ => true
  | .detectFall _ => true
  | .detectRise _ => true
  | .pulseDeadline => true
  | .resyncAllOff _ => true
  | .resyncReplay _ => true
  | .resyncJoined _ => true
  | .noteOn _ _ _ vel => decide (1 ≤ vel.val)
  | .noteOff _ _ _ _ => true
  | .sustainChange _ _ _ => true
  | .allNotesOff _ _ _ => true
  | .activeSensing _ => true
  | .sensingDeadline _ => true
  | .inputFramingError _ => true
  | .systemExclusive _ _ => true
  | .systemCommon _ _ => true
  | .realTimeDiscard _ _ => true
  | .channelMessageDiscard _ _ _ => true
  | .controlChange _ _ number _ => decide (number.val ≠ 64) && decide (number.val < 120)
  | .channelPressure _ _ _ => true
  | .filterExpiry _ => true
  | .forwardTimeExpiry _ => true
  | .pitchBend _ _ _ _ => true
  | .programChange _ _ _ => true
  | .outputByteSent _ => true
  | .outputDisabled _ => true
  | .partialMessageByte _ b => decide (b.toNat < 0xF8)
  | .linkByte _ _ => true

end Sys2Proof
end

