-- ==== Sys2Proof/Safety.lean ====
section
/-! DEFINITION. The terms in which claims are stated: when a request passes its checks and what its answer leaves on its
link, which records the tables may hold, and what the manual promises of every state of the part. -/

namespace Sys2Proof

/-- The link, kind and payload of a command that is a request of a known kind; the two STOP rows carry their mode byte
in the payload (11.2). -/
def Instr.asRequest (i : Instr) : Option (Link × Machine.ReqKind × List Byte) :=
  match i with
  | .start l p => some (l, .start, p)
  | .stopNow l e => some (l, .stop, 0 :: e)
  | .stopAtBar l e => some (l, .stop, 1 :: e)
  | .locate l p => some (l, .locate, p)
  | .setTempo l p => some (l, .setTempo, p)
  | .rampTempo l p => some (l, .rampTempo, p)
  | .setMeter l p => some (l, .setMeter, p)
  | .setFollow l p => some (l, .setFollow, p)
  | .writePattern l p => some (l, .writePattern, p)
  | .setClick l p => some (l, .setClick, p)
  | .muteClick l p => some (l, .muteClick, p)
  | .writeScene l p => some (l, .writeScene, p)
  | .readScene l p => some (l, .readScene, p)
  | .loadSceneNow l p => some (l, .loadSceneNow, p)
  | .lock l p => some (l, .lock, p)
  | .unlock l p => some (l, .unlock, p)
  | .writeCue l p => some (l, .writeCue, p)
  | .readCue l p => some (l, .readCue, p)
  | .writeSong l p => some (l, .writeSong, p)
  | .readSong l p => some (l, .readSong, p)
  | .writeSetlist l p => some (l, .writeSetlist, p)
  | .readSetlist l p => some (l, .readSetlist, p)
  | .selectSong l p => some (l, .selectSong, p)
  | .go l p => some (l, .go, p)
  | .setInput l p => some (l, .setInput, p)
  | .setOutput l p => some (l, .setOutput, p)
  | .setWatch l p => some (l, .setWatch, p)
  | .restart l p => some (l, .restart, p)
  | .saveShow l p => some (l, .saveShow, p)
  | .loadShow l p => some (l, .loadShow, p)
  | .setFaultMode l p => some (l, .setFaultMode, p)
  | .setActive l p => some (l, .setActive, p)
  | .ackFaults l p => some (l, .ackFaults, p)
  | .panic l p => some (l, .panic, p)
  | .readStatus l p => some (l, .readStatus, p)
  | .readFaults l p => some (l, .readFaults, p)
  | .subscribe l p => some (l, .subscribe, p)
  | .resync l p => some (l, .resync, p)
  | .reset _ _ | .startupImageRead | .tick | .samplePeriod | .beatEdge | .mark _ _ | .lastMarkExpiry | .lostDeadline
  | .saveDone _ | .loadDone | .unknownRequest _ _ _ | .echo _ _ | .hold _ _ | .resume _ _ | .holdExpiry _
  | .badClassTelegram _ _ _ | .badReport _ _ _ | .reportDenied _ _ _ | .telegramDiscard _ _ | .gapDeadline _
  | .telegramSent _ | .detectFall _ | .detectRise _ | .pulseDeadline | .resyncAllOff _ | .resyncReplay _
  | .resyncJoined _ | .noteOn _ _ _ _ | .noteOff _ _ _ _ | .sustainChange _ _ _ | .allNotesOff _ _ _
  | .activeSensing _ | .sensingDeadline _ | .inputFramingError _ | .systemExclusive _ _ | .systemCommon _ _
  | .realTimeDiscard _ _ | .channelMessageDiscard _ _ _ | .controlChange _ _ _ _ | .channelPressure _ _ _
  | .filterExpiry _ | .forwardTimeExpiry _ | .pitchBend _ _ _ _ | .programChange _ _ _ | .outputByteSent _
  | .outputDisabled _ | .partialMessageByte _ _ | .linkByte _ _ => none

namespace Machine

/-! ## Requests -/

/-- A request of kind `k` on link `l` is received with a place for its answer (R148). -/
def State.hearsRequest (s : State) (l : Link) : Bool := (s.link l).high && decide (1 ≤ (s.link l).free)

/-- A request passes every check of R149 and is handed to the block that owns the state concerned. -/
def State.takes (s : State) (l : Link) (k : ReqKind) (p : List Byte) : Bool :=
  s.hearsRequest l && k.allowed (Link.role l) && (s.ready || decide (k = .readStatus) || decide (k = .subscribe))
    && k.fits p && !k.fieldDenied l p

/-- What receiving a request and admitting its answer alone make of the state: the link's receiver is HUNTING and the
answer stands at the end of its queue, or goes out at once (R146, R148, R156). -/
def State.answered (s : State) (l : Link) (k : ReqKind) (r : ResultCode) (data : List Byte) : State :=
  s.setLink l ((s.link l).hunt.admitTelegram s.now (.answer k.code r data))

/-- The telegrams a link has yet to send in full, oldest first: the one in transmission, then the queue (R156). -/
def LinkState.line (x : LinkState) : List Telegram := (x.tx.map LinkTx.telegram).toList ++ x.queue

/-- What receiving a telegram alone makes of the state: the link's receiver is HUNTING again (R146). -/
def State.heard (s : State) (l : Link) : State := s.setLink l (s.link l).hunt

/-! ## What may happen to a state besides a command's own effect -/

/-- A link has only been offered notices: its line grows by notices alone. -/
structure Noticed (x y : LinkState) : Prop where
  line : ∃ ns : List Notice, y.line = x.line ++ ns.map Telegram.notice
  high : y.high = x.high
  collecting : y.collecting = x.collecting
  collected : y.collected = x.collected
  rescan : y.rescan = x.rescan
  gap : y.gap = x.gap
  hold : y.hold = x.hold
  mask : y.mask = x.mask

/-- `t` is `s` but for notices at the end of the links' lines and reports in the Fault Log, whose modes stay. -/
structure NoticesOnly (s t : State) : Prop where
  link : ∀ l, Noticed (s.link l) (t.link l)
  modes : t.fl.modes = s.fl.modes
  te : t.te = s.te
  ck : t.ck = s.ck
  ip : t.ip = s.ip
  op : t.op = s.op
  lr : t.lr = s.lr
  cs : t.cs = s.cs
  sw : t.sw = s.sw
  st : t.st = s.st
  ready : t.ready = s.ready
  micros : t.micros = s.micros
  cause : t.cause = s.cause
  choices : t.choices = s.choices
  pending : t.pending = s.pending

/-- The commands, run one after another from `s`, all answer a next state, and the last one answers `t`. -/
def runs : List Instr → State → State → Prop
  | [], s, t => t = s
  | c :: cs, s, t => ∃ u, exec c s = .next u ∧ runs cs u t

/-! ## MIDI inputs -/

/-- What the last byte of a channel message alone makes of its input: the byte is seen by the sensing, the message's
status is the running status, and nothing is left half collected or skipped (R42, R48). -/
def State.messageSeen (s : State) (i : InPort) (status : Byte) : State :=
  s.setIn i { (s.midiIn i).byteSeen s.now false with running := some status, collected := none, skip := .none }

/-- The data bytes of a channel message (R41). -/
def messageData : ChanMsg → List Byte
  | .noteOff k v => [byte k.val, byte v.val]
  | .noteOn k v => [byte k.val, byte v.val]
  | .polyPressure k v => [byte k.val, byte v.val]
  | .control n v => [byte n.val, byte v.val]
  | .program p => [byte p.val]
  | .pressure v => [byte v.val]
  | .bend a b => [byte a.val, byte b.val]

/-! ## Records the tables may hold (R59 to R61, R118, R121) -/

def charOk (b : Byte) : Bool := decide (0x20 ≤ b.toNat ∧ b.toNat ≤ 0x7E)

/-- A name or text: at most 16 characters from 20h to 7Eh (R59). -/
def nameOk (n : List Byte) : Bool := decide (n.length ≤ 16) && n.all charOk

def optLe (n : Option Nat) (hi : Nat) : Bool := decide (n.getD 0 ≤ hi)

def Curve.ok : Curve → Bool
  | .linear | .soft | .hard => true
  | .fixed v => decide (1 ≤ v ∧ v ≤ 127)

/-- A layer record within the ranges of R60. -/
def Layer.ok (y : Layer) : Bool :=
  decide (y.zoneLow ≤ y.zoneHigh ∧ y.zoneHigh ≤ 127 ∧ 1 ≤ y.vmin ∧ y.vmin ≤ y.vmax ∧ y.vmax ≤ 127 ∧ y.fade ≤ 32)
    && y.curve.ok && decide (y.trim ≤ 12 ∧ -48 ≤ y.transpose ∧ y.transpose ≤ 48 ∧ y.lo ≤ 127 ∧ y.hi ≤ 127)

/-- A program entry within the ranges of R61. -/
def ProgEntry.ok (e : ProgEntry) : Bool := optLe e.msb 127 && optLe e.lsb 127 && decide (e.program ≤ 127)

/-- A scene record within the ranges of R59. -/
def Scene.ok (r : Scene) : Bool :=
  nameOk r.name && decide (r.layers.length ≤ 8) && r.layers.all Layer.ok && decide (r.programs.length ≤ 8)
    && r.programs.all ProgEntry.ok

/-- A song record within the ranges of R118. -/
def Song.ok (g : Song) : Bool :=
  nameOk g.name && optLe g.firstCue 255
    && decide (3000 ≤ g.tempo ∧ g.tempo ≤ 30000 ∧ 1 ≤ g.meter ∧ g.meter ≤ 16 ∧ g.countIn ≤ 4 ∧ g.band ≤ 15 ∧ g.keys ≤ 15)

def Trigger.ok : Trigger → Bool
  | .at bar beat => decide (1 ≤ bar ∧ bar ≤ 9999 ∧ 1 ≤ beat ∧ beat ≤ 16)
  | .afterPrevious | .onGo => true

def CueAction.ok : CueAction → Bool
  | .nop | .nextSong | .stop _ => true
  | .scene n => decide (n ≤ 127)
  | .tempo t => decide (3000 ≤ t ∧ t ≤ 30000)
  | .ramp t b => decide (3000 ≤ t ∧ t ≤ 30000 ∧ 1 ≤ b ∧ b ≤ 64)
  | .meter b => decide (1 ≤ b ∧ b ≤ 16)
  | .click p q => optLe p 15 && optLe q 15
  | .program es => decide (es.length ≤ 4) && es.all ProgEntry.ok
  | .marker t => nameOk t

/-- A cue record within the ranges of R121. -/
def Cue.ok (c : Cue) : Bool :=
  c.trigger.ok && c.action.ok && !(c.isEnd && c.isHold) && decide (c.lead ≤ 16 ∧ c.next ≤ 255)

/-- A pattern of 16 positions with the subdivisions of R25. -/
def patternOk (p : Pattern) : Bool :=
  decide (p.length = 16) && p.all (fun q => decide (q.sub = 1 ∨ q.sub = 2 ∨ q.sub = 3 ∨ q.sub = 4 ∨ q.sub = 6 ∨ q.sub = 8))

/-- Fields of a click change within the ranges of R28. -/
def ClickChange.ok (c : ClickChange) : Bool :=
  optLe c.pattern 15 && optLe c.level 12 && optLe c.accent 12 && optLe c.normal 12 && optLe c.sub 12

/-- Input settings within the ranges of R39. -/
def InSettings.ok (t : InSettings) : Bool :=
  decide (t.average = 1 ∨ t.average = 2 ∨ t.average = 4 ∨ t.average = 8) && decide (t.deadband ≤ 7)
    && decide (t.interval = 0 ∨ t.interval = 2 ∨ t.interval = 4 ∨ t.interval = 8)

/-! ## Request payloads (11.2, 11.4) -/

def Bus.code : Bus → Nat
  | .band => 0 | .keys => 1

def Station.code : Station → Nat
  | .a => 0 | .b => 1

def PatClass.code : PatClass → Nat
  | .accent => 0 | .normal => 1 | .silent => 2

def FaultMode.code : FaultMode → Nat
  | .ignore => 0 | .log => 1 | .alert => 2

/-- WRITE_PATTERN's payload. -/
def patternPayload (n : Nat) (p : Pattern) : List Byte := byte n :: p.flatMap (fun q => [byte q.cls.code, byte q.sub])

/-- SET_CLICK's payload: the bus, the present bits, and the five values, 0 where absent. -/
def clickPayload (b : Bus) (c : ClickChange) : List Byte :=
  [byte (Bus.code b), byte (bits [c.pattern.isSome, c.level.isSome, c.accent.isSome, c.normal.isSome, c.sub.isSome]),
   byte (c.pattern.getD 0), byte (c.level.getD 0), byte (c.accent.getD 0), byte (c.normal.getD 0), byte (c.sub.getD 0)]

/-- SET_INPUT's payload. -/
def inputPayload (i : InPort) (t : InSettings) : List Byte :=
  [byte (InPort.code i), flag t.enabled, optChan t.filter, byte t.average, byte t.deadband, byte t.interval]

/-- SET_OUTPUT's payload. -/
def outputPayload (o : OutPort) (t : OutSettings) : List Byte :=
  [byte (OutPort.code o), flag t.enabled, flag t.running, flag t.clock]

/-! ## The fields of a request in the order they are checked (R27, R28, R49, R56, R62, R119 to R122) -/

/-- One field that is checked: its offset in the payload, its item's place where it is in a list that R189 names, and
whether it lies within its range. -/
structure FieldCheck where
  offset : Nat
  place : Option Nat
  ok : Bool
  deriving DecidableEq, Repr

/-- The byte at an offset within a range. -/
def byteIn (p : List Byte) (lo hi offset : Nat) (place : Option Nat := none) : FieldCheck :=
  ⟨offset, place, decide (lo ≤ byteAt p offset ∧ byteAt p offset ≤ hi)⟩

/-- The byte at an offset within a range from 0, or FFh, absent. -/
def byteInOrAbsent (p : List Byte) (hi offset : Nat) (place : Option Nat := none) : FieldCheck :=
  ⟨offset, place, decide (byteAt p offset ≤ hi ∨ byteAt p offset = 255)⟩

/-- A name or text (R59): its length, then its characters. -/
def nameChecks (p : List Byte) (offset : Nat) : List FieldCheck :=
  byteIn p 0 16 offset :: (List.range (byteAt p offset)).map (fun k => byteIn p 0x20 0x7E (offset + 1 + k))

/-- A layer (R60, R62). -/
def layerChecks (p : List Byte) (b k : Nat) : List FieldCheck :=
  [byteIn p 0 5 b k, byteIn p 0 16 (b + 1) k, byteIn p 0 127 (b + 2) k, byteIn p (byteAt p (b + 2)) 127 (b + 3) k,
   byteIn p 1 127 (b + 4) k, byteIn p (byteAt p (b + 4)) 127 (b + 5) k, byteIn p 0 32 (b + 6) k, byteIn p 0 3 (b + 7) k,
   ⟨b + 8, k, decide (byteAt p (b + 7) = 3 → 1 ≤ byteAt p (b + 8) ∧ byteAt p (b + 8) ≤ 127)⟩, byteIn p 0 12 (b + 9) k,
   ⟨b + 10, k, decide (byteAt p (b + 10) ≤ 48 ∨ 208 ≤ byteAt p (b + 10))⟩, byteIn p 0 4 (b + 11) k, byteIn p 1 16 (b + 12) k,
   byteIn p 0 1 (b + 13) k, byteIn p 0 127 (b + 15) k, byteIn p 0 127 (b + 16) k]

/-- A program entry (R61). -/
def progChecks (p : List Byte) (b k : Nat) : List FieldCheck :=
  [byteIn p 0 4 b k, byteIn p 1 16 (b + 1) k, byteInOrAbsent p 127 (b + 2) k, byteInOrAbsent p 127 (b + 3) k,
   byteIn p 0 127 (b + 4) k]

/-- A two-byte number within a range. -/
def wordIn (p : List Byte) (lo hi offset : Nat) : FieldCheck :=
  ⟨offset, none, decide (lo ≤ wordAt p offset ∧ wordAt p offset ≤ hi)⟩

/-- The operands of a cue's action (R121, R122). -/
def operandChecks (p : List Byte) : List FieldCheck :=
  match byteAt p 5 with
  | 1 => [byteIn p 0 127 9]
  | 2 => [wordIn p 3000 30000 9]
  | 3 => [wordIn p 3000 30000 9, byteIn p 1 64 11]
  | 4 => [byteIn p 1 16 9]
  | 5 => [byteInOrAbsent p 15 9, byteInOrAbsent p 15 10]
  | 6 => byteIn p 0 4 9 :: (List.range (byteAt p 9)).flatMap (fun k => progChecks p (10 + 5 * k) k)
  | 7 => nameChecks p 9
  | 8 => [byteIn p 0 1 9]
  | _ => []

/-- The fields of the requests that write a table or the settings of a port or bus, in the order they are checked. -/
def ReqKind.checks (k : ReqKind) (p : List Byte) : List FieldCheck :=
  let n := byteAt p 1
  let c := byteAt p (2 + n)
  match k with
  | .writePattern => byteIn p 0 15 0 :: (List.range 16).flatMap (fun k =>
      [byteIn p 0 2 (1 + 2 * k), ⟨2 + 2 * k, none, decide (byteAt p (2 + 2 * k) ∈ [1, 2, 3, 4, 6, 8])⟩])
  | .setClick => byteIn p 0 1 0 :: (List.range 5).map (fun k =>
      ⟨2 + k, none, !bitAt p 1 k || decide (byteAt p (2 + k) ≤ if k = 0 then 15 else 12)⟩)
  | .setInput => [byteIn p 0 5 0, byteIn p 0 16 2, ⟨3, none, decide (byteAt p 3 ∈ [1, 2, 4, 8])⟩, byteIn p 0 7 4,
      ⟨5, none, decide (byteAt p 5 ∈ [0, 2, 4, 8])⟩]
  | .setOutput => [byteIn p 0 3 0]
  | .writeScene => byteIn p 0 127 0 :: nameChecks p 1 ++ byteIn p 0 8 (2 + n)
      :: (List.range c).flatMap (fun k => layerChecks p (3 + n + 17 * k) k) ++ byteIn p 0 8 (3 + n + 17 * c)
      :: (List.range (byteAt p (3 + n + 17 * c))).flatMap (fun k => progChecks p (4 + n + 17 * c + 5 * k) k)
  | .writeSong => byteIn p 0 63 0 :: nameChecks p 1
      ++ [⟨2 + n, none, decide (wordAt p (2 + n) ≤ 255 ∨ wordAt p (2 + n) = 65535)⟩, wordIn p 3000 30000 (4 + n),
          byteIn p 1 16 (6 + n), byteIn p 0 4 (7 + n), byteIn p 0 15 (8 + n), byteIn p 0 15 (9 + n)]
  | .writeCue => byteIn p 0 2 1 :: (if byteAt p 1 = 0 then [wordIn p 1 9999 2, byteIn p 1 16 4] else [])
      ++ byteIn p 0 9 5 :: operandChecks p ++ [⟨6, none, !(bitAt p 6 0 && bitAt p 6 1)⟩, byteIn p 0 16 7]
  | .writeSetlist => byteIn p 0 64 0 :: (List.range (byteAt p 0)).map (fun k => byteIn p 0 63 (1 + k) k)
  | _ => []

/-! ## What holds in every state -/

/-- R1, R2: tick-in-beat stays within 0 to 479; while STOPPED the position stands at beat 1, tick 0, A and q are 0, and
no ramp is in progress. -/
def TempoEngine.ok (te : TempoEngine) : Bool :=
  decide (te.pos.tick ≤ 479) &&
    (te.transport.ticking ||
      (decide (te.pos.beat = 1 ∧ te.pos.tick = 0 ∧ te.acc = 0 ∧ te.clockCount = 0) && te.ramp.isNone && !te.tickOwed))

/-- R163: the resync phase is NONE in every station state except JOINING, and in JOINING it is CLEARING or
REPLAYING. -/
def StationRec.ok (r : StationRec) : Bool := decide (r.phase = .none) == decide (r.state ≠ .joining)

/-- R163, R175: both stations' phases, and AUDIO-SELECT low while A is active and high while B is. -/
def Watch.ok (w : Watch) : Bool :=
  w.stations.a.ok && w.stations.b.ok &&
    (match w.active with
     | some .a => !w.audioHigh
     | some .b => w.audioHigh
     | none => true)

/-- R185, R186: at most 32 records, a counter below 65,536, and the ALERT line asserted exactly while a record of a
class in ALERT mode is unacknowledged. -/
def FaultLog.ok (f : FaultLog) : Bool :=
  decide (f.records.length ≤ 32) && decide (f.counter < 65536) && (f.alert == f.alerting)

/-- The part is in a state the manual allows, as far as these three blocks go. -/
def State.safe (s : State) : Bool := s.te.ok && s.sw.ok && s.fl.ok

/-- The limits of R79, R106, R23, R1 and R144: at most 128 held entries, 32 filter slots, 8 waiting real-time bytes on
an output, 4 intervals in the mark history, and 128 telegrams waiting on a link. -/
def State.bounded (s : State) : Bool :=
  decide (s.lr.held.length ≤ 128 ∧ s.lr.slots.length ≤ 32 ∧ s.te.history.length ≤ 4)
    && allOuts.all (fun o => decide ((s.midiOut o).realTime.length ≤ 8))
    && allLinks.all (fun l => decide ((s.link l).queue.length ≤ 128))

/-! ## Values within their ranges (R1, R51, R52, R56, R79, R102) -/

def tempoOk (t : Nat) : Bool := decide (3000 ≤ t ∧ t ≤ 30000)
def meterOk (b : Nat) : Bool := decide (1 ≤ b ∧ b ≤ 16)

/-- A ramp record within R1: both tempos, a length of 1 to 64 beats, and progress up to the length. -/
def Ramp.ok (r : Ramp) : Bool := tempoOk r.t0 && tempoOk r.t1 && decide (480 ≤ r.len ∧ r.len ≤ 30720 ∧ r.prog ≤ r.len)

/-- A pending segue within the ranges of a song (R15, R118). -/
def PendingSegue.ok (g : PendingSegue) : Bool := g.tempo.all tempoOk && meterOk g.meter && decide (g.countIn ≤ 4)

/-- R1: every item of the engine within its range; a count-in bar only while COUNTING. -/
def TempoEngine.inRange (te : TempoEngine) : Bool :=
  tempoOk te.tempo && decide (te.acc < 12500000) && meterOk te.meter && te.pendingMeter.all meterOk
    && decide (1 ≤ te.pos.beat ∧ te.pos.beat ≤ te.meter)
    && decide ((1 ≤ te.pos.bar ∧ te.pos.bar ≤ 9999) ∨ (-4 ≤ te.pos.bar ∧ te.pos.bar ≤ -1 ∧ te.transport = .counting))
    && decide (te.countIn ≤ 4 ∧ te.clockCount ≤ 24) && te.ramp.all Ramp.ok && te.segue.all PendingSegue.ok
    && te.history.all (fun d => decide (200000 ≤ d ∧ d ≤ 2000000))

/-- The number of an output's targets in the held-note table (R102). -/
def targetsOn (o : OutPort) (held : List HeldEntry) : Nat :=
  (held.flatMap HeldEntry.targets).countP (fun t => decide (t.dest = .out o))

def OutMsg.isNoteOff : OutMsg → Bool
  | .noteOff _ _ _ => true
  | .noteOn _ _ _ | .control _ _ _ | .program _ _ | .pressure _ _ | .bend _ _ => false

/-- R51, R52, R102: at most 64 waiting messages are not note-offs, S is at most 64, W and S together at most 128 (so W
is), S is the number of the output's targets in the table; and nothing is sounding or waiting on a DISABLED output
(R56). -/
def MidiOut.inRange (x : MidiOut) (targets : Nat) : Bool :=
  decide (x.queue.countP (fun q => !q.msg.isNoteOff) ≤ 64 ∧ x.sounding ≤ 64 ∧ x.queue.length + x.sounding ≤ 128
    ∧ x.sounding = targets) && (decide (x.mode ≠ .disabled) || (decide (x.sounding = 0) && x.queue.isEmpty))

/-- R79: an entry of 1 to 4 targets. -/
def HeldEntry.ok (e : HeldEntry) : Bool := decide (1 ≤ e.targets.length ∧ e.targets.length ≤ 4)

/-- R79: entries of 1 to 4 targets, at most one for an input, channel and key. -/
def heldOk (held : List HeldEntry) : Bool :=
  held.all HeldEntry.ok && decide (held.Pairwise (fun e f => (e.input, e.chan, e.key) ≠ (f.input, f.chan, f.key)))

/-- The songs and cues of an image within the ranges of R118 and R121. -/
def ShowImage.inRange (g : ShowImage) : Bool := g.songs.all (fun e => e.2.ok) && g.cues.all (fun e => e.2.ok)

/-- The songs and cues of the tables and of the latched cues within the ranges of R118 and R121. -/
def CueSeq.inRange (c : CueSeq) : Bool :=
  c.songs.all (fun e => e.2.ok) && c.cues.all (fun e => e.2.record.ok) && c.current.all (fun x => x.record.ok)
    && c.latchedNext.all (fun x => x.record.ok)

/-- The image in the flash and the copy a save holds, where there are such, within the same ranges. -/
def ShowStore.inRange (st : ShowStore) : Bool :=
  (match st.flash with
    | .image g _ => g.inRange
    | .blank | .garbled => true)
  && (match st.op with
    | .saving g => g.inRange
    | .none | .loading => true)

/-- Engine, outputs, held-note table, songs and cues within the ranges the manual gives them. -/
def State.inRange (s : State) : Bool :=
  s.te.inRange && allOuts.all (fun o => (s.midiOut o).inRange (targetsOn o s.lr.held)) && heldOk s.lr.held
    && s.cs.inRange && s.st.inRange

/-! ## The lock and the active station as a station leaves or joins the air (R77, R174, R175) -/

/-- A station becomes active: AUDIO-SELECT is low for A and high for B, and an ACTIVE notice with its cause and the
states of A and B goes out (R175). -/
def State.nowActive (s : State) (x : Station) (cause : ActiveCause) : State :=
  State.broadcast { s with sw := { s.sw with active := some x, audioHigh := decide (x = .b) } } Mask.active
    (.active (some x) cause (s.station .a).state (s.station .b).state)

/-- Station X has moved to DOWN, JOINING or ABSENT: a lock it holds is released with its SCENE notice (R77); where it
was in UP or SUSPECT (`was`) and active, the other station becomes active with cause LOSS and a CHANGEOVER fault SWITCHED
if it is UP, and otherwise a CHANGEOVER fault NO_SPARE is reported (R174). -/
def State.offAir (s : State) (x : Station) (was : Bool) : State :=
  let u := if s.lr.lock = some x.link then
      State.broadcast { s with lr := { s.lr with lock := none } } Mask.scene (.scene .lock s.lr.live.scene none none none s.barBeat)
    else s
  if was = true ∧ s.sw.active = some x then
    if (s.station x.other).state = .up then (u.nowActive x.other .loss).report .switched (some (.link x.other.link))
    else u.report .noSpare (some (.link x.link))
  else u

/-- Station X has become UP: with none active it becomes active with cause FIRST, and with the other active in neither
UP nor SUSPECT with cause RETURN and a CHANGEOVER fault LATE (R174). -/
def State.joinsAir (s : State) (x : Station) : State :=
  match s.sw.active with
  | none => s.nowActive x .first
  | some y =>
    if y ≠ x ∧ (s.station y).state ≠ .up ∧ (s.station y).state ≠ .suspect then
      (s.nowActive x .return).report .changeLate (some (.link x.link))
    else s

/-- Station X is put into the replay-pending set of every entry that has a SOUND target (R100, R171). -/
def State.marked (s : State) (x : Station) : State :=
  { s with lr := { s.lr with held := s.lr.held.map (fun e =>
    if e.targets.any (fun t => decide (t.dest = .sound)) then { e with pend := e.pend.set x true } else e) } }

/-- The ALL_OFF held for station X in CLEARING joins the queue of its connected link and the phase becomes REPLAYING, where
the link has 16 free places; otherwise it stays held (R171). -/
def State.clears (s : State) (x : Station) : State :=
  if (s.link x.link).high = true ∧ 16 ≤ (s.link x.link).free then
    (s.post x.link (.notice .allOff)).setStation x { s.station x with phase := .replaying }
  else s

/-- Station X is taken out of every replay-pending set (R100). -/
def State.unmarked (s : State) (x : Station) : State :=
  { s with lr := { s.lr with held := s.lr.held.map (fun e => { e with pend := e.pend.set x false }) } }

/-- A held entry but for its replay-pending set. -/
def HeldEntry.bare (e : HeldEntry) : HeldEntry := { e with pend := ⟨false, false⟩ }

/-- A station is on the air, UP or SUSPECT. -/
def State.aired (s : State) (x : Station) : Bool := decide ((s.station x).state = .up ∨ (s.station x).state = .suspect)

/-- Station X changes to a state, with the consequences of R168 up to the STATION fault: DOWN and ABSENT end a resync and
leave every replay-pending set, JOINING begins a resync with its
ALL_OFF, where there is room, and UP out of JOINING or SUSPECT brings the review of R174. -/
def State.moved (s : State) (x : Station) (new : StationState) : State :=
  match new with
  | .joining =>
    (((s.setStation x { s.station x with state := .joining, phase := .clearing }).marked x).clears x).offAir x (s.aired x)
  | .down => ((s.setStation x { s.station x with state := .down, phase := .none }).unmarked x).offAir x (s.aired x)
  | .absent => ((s.setStation x { s.station x with state := .absent, phase := .none }).unmarked x).offAir x (s.aired x)
  | .suspect => s.setStation x { s.station x with state := .suspect, phase := .none }
  | .up =>
    let u := s.setStation x { s.station x with state := .up, phase := .none }
    if (s.station x).state = .joining ∨ (s.station x).state = .suspect then u.joinsAir x else u

/-! ## Swaps, skips and withdrawals (R65, R68, R69, R71, R74) -/

/-- The staged map has just become EMPTY: a waiting claim, and nothing else, is now staged, with point CUE (R65, R71). -/
def State.emptied (s : State) : State :=
  { s with lr := { s.lr with
    staged := s.lr.claim.map (fun c =>
      { record := (Table.look s.cs.scenes c.scene).getD ⟨[], [], []⟩, scene := c.scene, point := .cue, origin := .cue c.cue })
    claim := none } }

/-- The SCENE notice of a staging or command that names a scene and an origin (R70). -/
def State.tellsScene (s : State) (cause : SceneCause) (n : Nat) (origin : Origin) : State :=
  s.broadcast Mask.scene (.scene cause s.lr.live.scene (some n) (some origin) s.lr.lock s.barBeat)

/-- The scene of a staging has become the live map and its program entries have been sent in list order (R68, steps 1 and
2; R69). -/
def State.programmed (s : State) (g : Staging) : State :=
  g.record.programs.foldl (fun u e => (u.sendProgram e).1)
    { s with lr := { s.lr with live := ⟨g.record.layers, some g.scene⟩ } }

/-- A swap: layers and scene number live, programs, SCENE notice SWAPPED, staged map EMPTY (R68). -/
def State.swapped (s : State) (g : Staging) : State :=
  ((s.programmed g).tellsScene .swapped g.scene g.origin).emptied

/-! ## The one canonical form of the tables -/

/-- The tables of an image list their slots by rising number. -/
def ShowImage.tidy (g : ShowImage) : Bool :=
  Table.sorted g.scenes && Table.sorted g.cues && Table.sorted g.songs && Table.sorted g.patterns

/-- Whatever image the flash holds is tidy. -/
def Flash.tidy : Flash → Bool
  | .image g _ => g.tidy
  | .blank => true
  | .garbled => true

/-- Whatever copy a save holds is tidy. -/
def StoreOp.tidy : StoreOp → Bool
  | .saving g => g.tidy
  | .none => true
  | .loading => true

/-- Every table is in its one canonical form (notes/assumptions/22.md): slots by rising number, and no default pattern
listed. -/
def State.tidy (s : State) : Bool :=
  Table.sorted s.cs.scenes && Table.sorted s.cs.cues && Table.sorted s.cs.songs && Table.sorted s.ck.patterns
    && s.ck.patterns.all (fun e => decide (e.2 ≠ defaultPattern)) && s.st.op.tidy && s.st.flash.tidy

/-- R173, R174: no held entry is pending for a station in UP or SUSPECT, and while either sound station is UP the active
one is UP or SUSPECT. -/
def State.stationsPromise (s : State) : Bool :=
  allStations.all (fun x => !(s.station x).state.onAir || !s.lr.held.any (fun e => e.pend.get x))
    && (!allStations.any (fun x => decide ((s.station x).state = .up))
      || (match s.sw.active with
          | some y => (s.station y).state.onAir
          | none => false))

end Machine
end Sys2Proof
end

