-- ==== Sys2Proof/Certificates/Slice0/Obligations.lean ====
section
/-! DEFINITION. The statements about the ZT408 that the provers are asked to prove, one `Prop` each; OBLIGATIONS.json
lists them with the rules of the manual they rest on. -/

open Sys2Proof Sys2Proof.Machine

/-- A step takes the command at the front of the queue and runs it on the state with the queue's rest (00_scope.md).
-/
def Obligations.StepTakesTheFrontOfTheQueue : Prop :=
  ∀ (c : Instr) (rest : List Instr) (s : State),
    step { s with pending := c :: rest } = exec c { s with pending := rest }

/-- With nothing waiting, a step takes a due event, or moves one microsecond on with one addition to A (R2; R34; R48;
R55; R106; R110; R147; R156; R158; R164; R171; 00_scope.md, Time). -/
def Obligations.EmptyQueueLetsTimePass : Prop :=
  (∀ n : Nat, sampleBoundary n = true ↔ ∃ k, 6 * n ≤ 125 * k ∧ 125 * k < 6 * n + 6) ∧
  (∀ (s : State) (c : Instr),
    let past : Stamp → Prop := fun d => (s.now - d).toNat < 2147483648
    let room : Station → Nat → Prop := fun x k => (s.link x.link).high = true ∧ k ≤ 128 - (s.link x.link).queue.length
    let phase : Station → Phase → Prop := fun x p => (s.station x).state = .joining ∧ (s.station x).phase = p
    c ∈ s.due ↔
      (c = .tick ∧ s.te.tickOwed = true) ∨
      (c = .lastMarkExpiry ∧ ∃ d, s.te.lastMark = some d ∧ past (d + 2000000#32)) ∨
      (c = .lostDeadline ∧ ∃ d, s.te.lostDeadline = some d ∧ past d) ∨
      (∃ i d, c = .sensingDeadline i ∧ (s.midiIn i).sensing = .watched ∧ (s.midiIn i).deadline = some d ∧ past d) ∨
      (∃ q ∈ s.lr.slots, (c = .filterExpiry q.key ∧ ∃ d, q.deadline = some d ∧ past d) ∨
        (c = .forwardTimeExpiry q.key ∧ ∃ d, q.lastTime = some d ∧ past (d + 8000#32))) ∨
      (∃ o b, c = .outputByteSent o ∧ (s.midiOut o).line = some b ∧ past b.ends) ∨
      (∃ o, c = .outputDisabled o ∧ (s.midiOut o).mode = .draining ∧ (s.midiOut o).sounding = 0 ∧ (s.midiOut o).queue = [] ∧
        (s.midiOut o).tx = none) ∨
      (∃ l d, c = .holdExpiry l ∧ (s.link l).hold = some d ∧ past d) ∨
      (∃ l d, c = .gapDeadline l ∧ (s.link l).collecting = true ∧ (s.link l).gap = some d ∧ past d) ∨
      (∃ l x, c = .telegramSent l ∧ (s.link l).tx = some x ∧ x.left.length ≤ 1 ∧ past x.byteEnds) ∨
      (c = .pulseDeadline ∧ past s.sw.deadline) ∨
      (∃ x, c = .resyncAllOff x ∧ phase x .clearing ∧ room x 16) ∨
      (∃ x e, c = .resyncReplay x ∧ phase x .replaying ∧ s.lr.held.find? (fun e => e.pend.get x) = some e ∧
        let k := e.targets.countP (fun t => decide (t.dest = .sound))
        (k = 0 ∨ (room x (15 + k) ∧ (s.link x.link).hold = none))) ∨
      (∃ x, c = .resyncJoined x ∧ phase x .replaying ∧ (∀ e ∈ s.lr.held, e.pend.get x = false) ∧ room x 16)) ∧
  (∀ s : State, s.pending = [] →
    (s.due ≠ [] → ∃ c ∈ s.due, step s = exec c s ∨ step s = exec c s.choose) ∧
    (s.due = [] → ∃ t, step s = .next t ∧ t.micros = s.micros + 1 ∧
      (s.ticking = false → t.te = s.te) ∧
      (s.ticking = true → s.te.acc + s.te.tempo < 12500000 → t.te = { s.te with acc := s.te.acc + s.te.tempo }) ∧
      (s.ticking = true → 12500000 ≤ s.te.acc + s.te.tempo →
        t.te = { s.te with acc := s.te.acc + s.te.tempo - 12500000, tickOwed := true }) ∧
      t.ck = { s.ck with buses := if sampleBoundary s.micros then s.ck.buses.map ClickBus.samplePeriod else s.ck.buses } ∧
      (∀ l, t.link l = { s.link l with tx := (s.link l).tx.map (fun x =>
        if 2 ≤ x.left.length ∧ (s.now - x.byteEnds).toNat < 2147483648 then
          { x with left := x.left.tail, byteEnds := x.byteEnds + 10#32 }
        else x) }) ∧
      t.ip = s.ip ∧ t.op = s.op ∧ t.lr = s.lr ∧ t.cs = s.cs ∧ t.sw = s.sw ∧ t.st = s.st ∧ t.fl = s.fl ∧
      t.ready = s.ready ∧ t.cause = s.cause ∧ t.choices = s.choices ∧ t.pending = s.pending))

/-- After a reset every item of the part holds the value the manual's tables give it, the counter starting at 0
(model's choice, log entry 1) (R1; R25; R39; R51; R64; R106; R123; R144; R163; R180; R184; R185). -/
def Obligations.ResetValues : Prop :=
  State.reset.te =
    { tempo := 12000, acc := 0, pos := ⟨1, 1, 0⟩, meter := 4, pendingMeter := none, countIn := 0, ramp := none, segue := none,
      transport := .stopped, clockCount := 0, source := .none, follow := .free, history := [],
      lastMark := none, lostDeadline := none, tickOwed := false } ∧
  (∀ n, patternAt State.reset.ck.patterns n = ⟨.accent, 1⟩ :: List.replicate 15 ⟨.normal, 1⟩) ∧
  (∀ b, State.reset.bus b =
    { pattern := 0, level := 0, accent := 0, normal := 0, sub := 0, mute := false, change := none,
      subdiv := 1, subCount := 0, burst := none, sample := 0 }) ∧
  (∀ i, State.reset.midiIn i =
    { settings := ⟨true, none, 1, 0, 0⟩, running := none, collected := none, skip := .none,
      sustain := 0#16, sensing := .unwatched, deadline := none }) ∧
  (∀ o, State.reset.midiOut o =
    { settings := ⟨true, false, false⟩, mode := .enabled, queue := [], tx := none, realTime := [],
      statusMem := none, sounding := 0, line := none }) ∧
  State.reset.lr = { live := ⟨[], none⟩, staged := none, claim := none, lock := none, held := [], slots := [] } ∧
  (∀ n, Table.look State.reset.cs.scenes n = none ∧ Table.look State.reset.cs.cues n = none ∧
    Table.look State.reset.cs.songs n = none) ∧
  State.reset.cs.setlist = [] ∧ State.reset.cs.setPos = none ∧ State.reset.cs.song = none ∧ State.reset.cs.state = .idle ∧
  State.reset.cs.current = none ∧ State.reset.cs.latchedNext = none ∧ State.reset.cs.goPending = false ∧
  State.reset.cs.segue = none ∧ State.reset.cs.deferred = none ∧ State.reset.cs.chained = false ∧
  State.reset.cs.leadSent = false ∧ State.reset.cs.boundary = 0 ∧
  (∀ l, State.reset.link l =
    { high := false, collecting := false, collected := [], rescan := [], gap := none, queue := [],
      tx := none, hold := none, mask := ⟨false, false, true, true, true, true, true⟩ }) ∧
  (∀ x, State.reset.station x = { state := .absent, miss := 0, awaited := none, echoed := false, phase := .none }) ∧
  State.reset.sw.pulse = 0 ∧ State.reset.sw.deadline = 50000#32 ∧ State.reset.sw.limit = 6 ∧ State.reset.sw.active = none ∧
  State.reset.sw.audioHigh = false ∧ State.reset.st.status = .blank ∧ State.reset.st.op = .none ∧
  State.reset.fl =
    { records := [], counter := 0, modes := ⟨.log, .log, .log, .log, .log, .alert, .alert, .alert, .alert, .log⟩,
      alert := false } ∧
  State.reset.ready = false

/-- RESET returns every block to its reset values and samples each DETECT once (R161; R180; R183; R144; R163). -/
def Obligations.ResetCommandStartsTheSession : Prop :=
  ∀ (s : State) (cause : ResetCause) (d : PerLink Bool), ∃ f : Flash,
    exec (.reset cause d) s = .next { State.reset with
      sl := ⟨{ LinkState.reset with high := d.s0 }, { LinkState.reset with high := d.s1 },
             { LinkState.reset with high := d.s2 }, { LinkState.reset with high := d.s3 }⟩
      sw := { Watch.reset with stations :=
        ⟨{ StationRec.reset with state := if d.s0 then .down else .absent },
         { StationRec.reset with state := if d.s1 then .down else .absent }⟩ }
      st := { State.reset.st with flash := f }
      cause := cause
      choices := s.choices + 1
      pending := s.pending } ∧
    ((∀ copy, s.st.op ≠ .saving copy) → f = s.st.flash) ∧
    (∀ copy, s.st.op = .saving copy → f = .blank ∨ f = .garbled)

/-- The state after a reset meets the five invariants of the model (R1; R51; R79; R102; R144; R163; R175; R185;
R186). -/
def Obligations.ResetMeetsTheInvariants : Prop :=
  State.reset.safe = true ∧ State.reset.bounded = true ∧ State.reset.inRange = true ∧ State.reset.tidy = true ∧ State.reset.stationsPromise = true

/-- No step leaves the states the manual allows for the engine, the watch and the Fault Log (R1; R2; R7; R12; R13;
R24; R163; R168; R171; R175; R185; R186). -/
def Obligations.EveryStepKeepsTheSafetyInvariant : Prop :=
  ∀ s t : State, s.safe = true → step s = .next t → t.safe = true

/-- No step lets a table, list or queue outgrow its limit, or takes an item of the engine, an output or the held-note
table out of its range (R1; R18; R23; R51; R52; R56; R79; R87; R102; R106; R144; R154). -/
def Obligations.EveryStepKeepsTheLimits : Prop :=
  (∀ s t : State, s.bounded = true → step s = .next t → t.bounded = true) ∧
  (∀ s t : State, s.safe = true → s.inRange = true → step s = .next t → t.inRange = true)

/-- No step takes a table, the flash's image or a save's copy out of its one canonical form (R59; R62; R119; R122;
R181; R182; R183). -/
def Obligations.EveryStepKeepsTheTablesInOrder : Prop :=
  ∀ s t : State, s.tidy = true → step s = .next t → t.tidy = true

/-- No step puts a station owed notes on the air, leaves a dead station active beside one UP, or changes the live map
under a held lock (R74; R100; R168; R170; R171; R173; R174; R175; R176). -/
def Obligations.EveryStepKeepsTheStationsPromise : Prop :=
  (∀ s t : State, s.stationsPromise = true → step s = .next t → t.stationsPromise = true) ∧
  (∀ (c : Instr) (s t : State), exec c s = .next t →
    (match c with
      | .linkByte _ _ => False
      | .telegramDiscard _ _ => False
      | .gapDeadline _ => False
      | _ => True) →
    s.lr.lock ≠ none → t.lr.lock = s.lr.lock → t.lr.live = s.lr.live)

/-- Every request taken gets exactly one answer, behind everything its link still owed and ahead of the notices it
causes (R148; R149; R152; R154). -/
def Obligations.EveryRequestTakenGetsOneAnswer : Prop :=
  ∀ (i : Instr) (s : State) (l : Link) (k : ReqKind) (p : List Byte), i.asRequest = some (l, k, p) →
    s.hearsRequest l = true →
    ∃ t, exec i s = .next t ∧
      (∃ (r : ResultCode) (d : List Byte) (ns : List Notice),
        (t.link l).line = (s.link l).line ++ .answer k.code r d :: ns.map Telegram.notice) ∧
      (∀ j, j ≠ l → ∃ ns : List Notice, (t.link j).line = (s.link j).line ++ ns.map Telegram.notice)

/-- A request or report from a role outside its entry of the rights table is refused, whatever its payload (R150). -/
def Obligations.RightsTable : Prop :=
  (∀ (k : ReqKind) (l : Link), k.allowed (Link.role l) =
    match l with
    | .s0 | .s1 => decide (k ∉ [.start, .stop, .locate, .setTempo, .rampTempo, .setMeter, .setFollow, .writePattern,
        .setClick, .writeCue, .writeSong, .writeSetlist, .setInput, .setOutput, .setWatch, .restart, .saveShow, .loadShow,
        .setFaultMode])
    | .s2 => decide (k ∉ [.writeScene, .loadSceneNow, .lock, .unlock, .writeCue, .writeSong, .writeSetlist, .setInput,
        .setOutput, .setWatch, .restart, .saveShow, .loadShow, .setFaultMode, .selectSong, .setActive, .ackFaults, .resync])
    | .s3 => true) ∧
  (∀ (k : RepKind) (l : Link), k.allowed (Link.role l) =
    match k with
    | .mark => decide (l = .s2)
    | .echo => decide (l = .s0 ∨ l = .s1)
    | .hold => true
    | .resume => true) ∧
  (∀ (i : Instr) (s : State) (l : Link) (k : ReqKind) (p : List Byte), i.asRequest = some (l, k, p) →
    s.hearsRequest l = true → k.allowed (Link.role l) = false → exec i s = .next (s.answered l k .denied [])) ∧
  (∀ (s : State) (l : Link) (p : List Byte), (s.link l).high = true →
    let denied : State := (s.heard l).report .reportDenied (some (.link l))
    (RepKind.mark.allowed (Link.role l) = false → exec (.mark l p) s = .next denied) ∧
    (RepKind.echo.allowed (Link.role l) = false → exec (.echo l p) s = .next denied) ∧
    (RepKind.hold.allowed (Link.role l) = false → exec (.hold l p) s = .next denied) ∧
    (RepKind.resume.allowed (Link.role l) = false → exec (.resume l p) s = .next denied) ∧
    (∀ k : RepKind, k.allowed (Link.role l) = false →
      exec (.reportDenied l (Fin.ofNat 64 k.code) p) s = .next denied))

/-- The first failed check gives a request's answer: kind, readiness, payload, role's field, and for a write the
first field out of range (R149; R152; R27; R28; R49; R56; R62; R119; R120; R122; R189). -/
def Obligations.FirstFailedCheckGivesTheAnswer : Prop :=
  (∀ (s : State) (l : Link) (code : Fin 64) (p : List Byte), kindOfCode code.val = none → s.hearsRequest l = true →
    exec (.unknownRequest l code p) s =
      .next (s.setLink l ((s.link l).hunt.admitTelegram s.now (.answer code.val .bad [])))) ∧
  (∀ (i : Instr) (s : State) (l : Link) (k : ReqKind) (p : List Byte), i.asRequest = some (l, k, p) →
    s.hearsRequest l = true → k.allowed (Link.role l) = true →
    (s.ready = false → k ≠ .readStatus → k ≠ .subscribe → exec i s = .next (s.answered l k .busy [])) ∧
    (s.ready = true ∨ k = .readStatus ∨ k = .subscribe →
      (k.fits p = false → exec i s = .next (s.answered l k .bad [])) ∧
      (k.fits p = true → k.fieldDenied l p = true → exec i s = .next (s.answered l k .denied [])))) ∧
  (∀ (i : Instr) (s : State) (l : Link) (k : ReqKind) (p : List Byte) (c : FieldCheck),
    i.asRequest = some (l, k, p) → s.takes l k p = true → s.st.op = .none →
    (k = .writeScene → s.lr.staged.map Staging.scene ≠ some (byteAt p 0)) →
    (k = .writeCue → s.cs.current.map Latched.cue ≠ some (byteAt p 0) ∧ s.cs.latchedNext.map Latched.cue ≠ some (byteAt p 0)) →
    (k = .writeSetlist → s.cs.segue = none) →
    (k.checks p).find? (fun c => !c.ok) = some c →
    exec i s = .next (s.answered l k .range (be16 c.offset ++ [byte (c.place.getD 255)])))

/-- A sound station may not mute BAND, force the lock or resync the other station; other bad codes are RANGE (R151).
-/
def Obligations.FieldsARoleMayNotAskFor : Prop :=
  ∀ (s : State) (l : Link), l = .s0 ∨ l = .s1 → s.hearsRequest l = true → s.ready = true →
    (∀ m : Bool, exec (.muteClick l [0, flag m]) s = .next (s.answered l .muteClick .denied [])) ∧
    exec (.unlock l [1]) s = .next (s.answered l .unlock .denied []) ∧
    (l = .s0 → exec (.resync l [1]) s = .next (s.answered l .resync .denied [])) ∧
    (l = .s1 → exec (.resync l [0]) s = .next (s.answered l .resync .denied [])) ∧
    (∀ (b : Byte) (m : Bool), 2 ≤ b.toNat →
      exec (.muteClick l [b, flag m]) s = .next (s.answered l .muteClick .range [0, 0, 255])) ∧
    (∀ b : Byte, 2 ≤ b.toNat → exec (.resync l [b]) s = .next (s.answered l .resync .range [0, 0, 255]))

/-- A request that finds no free place is discarded unanswered with an INBOUND_DROP fault (R148; R190). -/
def Obligations.InboundDropLosesTheRequest : Prop :=
  ∀ (i : Instr) (s : State) (l : Link) (k : ReqKind) (p : List Byte), i.asRequest = some (l, k, p) →
    (s.link l).high = true → (s.link l).free = 0 →
    exec i s = .next ((s.heard l).report .inboundDrop (some (.link l))) ∧
    NoticesOnly (s.heard l) ((s.heard l).report .inboundDrop (some (.link l)))

/-- Every scene, song, cue, set list, pattern and port setting the tables may hold reads back whole from its bytes
(R27; R28; R49; R56; R59; R60; R61; R118; R120; R121; R188; R189). -/
def Obligations.RecordsReadBackFromTheirBytes : Prop :=
  (∀ (n : Nat) (r : Scene), r.ok = true →
    ReqKind.fits .writeScene (byte n :: sceneBytes r) = true ∧ parseScene (byte n :: sceneBytes r) = .ok r) ∧
  (∀ (n : Nat) (g : Song), g.ok = true →
    ReqKind.fits .writeSong (byte n :: songBytes g) = true ∧ parseSong (byte n :: songBytes g) = .ok g) ∧
  (∀ (n : Nat) (c : Cue), c.ok = true →
    ReqKind.fits .writeCue (byte n :: cueBytes c) = true ∧ parseCue (byte n :: cueBytes c) = .ok c) ∧
  (∀ ns : List Nat, ns.length ≤ 64 → (∀ n ∈ ns, n ≤ 63) →
    ReqKind.fits .writeSetlist (byte ns.length :: ns.map byte) = true ∧
    parseSetlist (byte ns.length :: ns.map byte) = .ok ns) ∧
  (∀ (n : Nat) (p : Pattern), n ≤ 15 → patternOk p = true →
    ReqKind.fits .writePattern (patternPayload n p) = true ∧ parsePattern (patternPayload n p) = .ok (n, p)) ∧
  (∀ (b : Bus) (c : ClickChange), c.ok = true →
    ReqKind.fits .setClick (clickPayload b c) = true ∧ parseClick (clickPayload b c) = .ok (b, c)) ∧
  (∀ (i : InPort) (t : InSettings), t.ok = true →
    ReqKind.fits .setInput (inputPayload i t) = true ∧ parseInput (inputPayload i t) = .ok (i, t)) ∧
  (∀ (o : OutPort) (t : OutSettings),
    ReqKind.fits .setOutput (outputPayload o t) = true ∧ parseOutput (outputPayload o t) = .ok (o, t))

/-- The bytes of a telegram, taken one by one by a hunting receiver, come to the telegram being received whole (R145;
R146; R148). -/
def Obligations.TelegramBytesAreTakenAsTheTelegram : Prop :=
  ∀ (s : State) (l : Link) (kind : Byte) (pay : List Byte), pay.length ≤ 240 → (s.link l).high = true →
    (s.link l).collecting = false → (s.link l).rescan = [] →
    runs ((frame kind pay).map (fun b => .linkByte l b)) s (s.telegram l kind pay)

/-- The bytes of a channel message, taken one by one by a live input, come to the message arriving whole (R41; R42;
R45; R48). -/
def Obligations.MidiBytesAreTakenAsTheMessage : Prop :=
  ∀ (s : State) (i : InPort) (c : Chan) (m : ChanMsg), s.ready = true → (s.midiIn i).settings.enabled = true →
    runs ((chanStatus c m :: messageData m).map (fun b => .partialMessageByte i b)) s (s.messageArrives i c m) ∧
    ((s.midiIn i).running = some (chanStatus c m) → (s.midiIn i).collected = none → (s.midiIn i).skip = .none →
      runs ((messageData m).map (fun b => .partialMessageByte i b)) s (s.messageArrives i c m))

/-- A rescan always ends within its step: no step leaves a byte on a link's rescan list waiting to be examined again
(R146; R147). -/
def Obligations.RescanAlwaysEnds : Prop :=
  (∀ s t : State, (∀ l, (s.link l).rescan = []) → step s = .next t → ∀ l, (t.link l).rescan = []) ∧
  (∀ (s : State) (l : Link), (s.link l).high = true → (s.link l).rescan = [] →
    (∀ b : Byte, ∃ t, exec (.linkByte l b) s = .next t ∧ (t.link l).rescan = []) ∧
    (∀ e : RxEvent, ∃ t, exec (.telegramDiscard l e) s = .next t ∧ (t.link l).rescan = []) ∧
    (∃ t, exec (.gapDeadline l) s = .next t ∧ (t.link l).rescan = []))

/-- A layer's velocity is curve, trim, crossfade and clamp, and always lies within 1 to 127 (R84; R85; 00_scope.md,
Levels). -/
def Obligations.VelocityOfALayer : Prop :=
  (List.range 13).map Config.multiplier = [256, 228, 203, 181, 162, 144, 128, 114, 102, 91, 81, 72, 64] ∧
  ∀ v : Nat, 1 ≤ v → v ≤ 127 →
    Curve.apply .linear v = v ∧
    Curve.apply .soft v * Curve.apply .soft v ≤ 127 * v ∧
    127 * v < (Curve.apply .soft v + 1) * (Curve.apply .soft v + 1) ∧
    Curve.apply .hard v = max 1 (v * v / 127) ∧
    (∀ f, Curve.apply (.fixed f) v = f) ∧
    (∀ c : Curve, c.ok = true → 1 ≤ c.apply v ∧ c.apply v ≤ 127) ∧
    (∀ y : Layer, 1 ≤ y.velocity v ∧ y.velocity v ≤ 127 ∧
      (y.fade = 0 ∨ y.fade ≤ min (v - y.vmin) (y.vmax - v) → y.velocity v = max 1 (min 127 ((y.curve.apply v * Config.multiplier y.trim + 128) / 256))) ∧
      (min (v - y.vmin) (y.vmax - v) < y.fade →
        y.velocity v = max 1 (min 127 ((y.curve.apply v * Config.multiplier y.trim + 128) / 256
          * (min (v - y.vmin) (y.vmax - v) + 1) / (y.fade + 1)))))

/-- The filtered value is the mean of the latest values rounded half up, and scaling is the line from lo to hi
rounded half up (R108; R112). -/
def Obligations.ControllerArithmetic : Prop :=
  (∀ (h : List Nat) (n : Nat), h ≠ [] → 1 ≤ n →
    filtered h n * min n h.length ≤ (h.drop (h.length - min n h.length)).sum + min n h.length / 2 ∧
    (h.drop (h.length - min n h.length)).sum + min n h.length / 2 < (filtered h n + 1) * min n h.length) ∧
  (∀ (h : List Nat) (v : Nat), filtered (h ++ [v]) 1 = v) ∧
  (∀ (y : Layer) (f : Nat), f ≤ 127 →
    127 * y.scale f ≤ y.lo * (127 - f) + y.hi * f + 63 ∧ y.lo * (127 - f) + y.hi * f + 63 < 127 * (y.scale f + 1) ∧
    min y.lo y.hi ≤ y.scale f ∧ y.scale f ≤ max y.lo y.hi ∧ y.scale 0 = y.lo ∧ y.scale 127 = y.hi ∧
    (y.lo = 0 → y.hi = 127 → y.scale f = f))

/-- A ramp's tempo lies between T0 and T1, falls short of the straight line toward T0, and ends at T1 (R7). -/
def Obligations.RampNeverLeavesItsLine : Prop :=
  ∀ (r : Ramp) (k : Nat), 0 < r.len → k ≤ r.len →
    (r.t0 ≤ r.t1 → r.t0 ≤ r.tempoAt k ∧ r.tempoAt k ≤ r.t1 ∧
      (r.tempoAt k - r.t0) * r.len ≤ (r.t1 - r.t0) * k ∧ (r.t1 - r.t0) * k < (r.tempoAt k - r.t0 + 1) * r.len) ∧
    (r.t1 ≤ r.t0 → r.t1 ≤ r.tempoAt k ∧ r.tempoAt k ≤ r.t0 ∧
      (r.t0 - r.tempoAt k) * r.len ≤ (r.t0 - r.t1) * k ∧ (r.t0 - r.t1) * k < (r.t0 - r.tempoAt k + 1) * r.len) ∧
    r.tempoAt 0 = r.t0 ∧ r.tempoAt r.len = r.t1

/-- The walk of a LOCATE, cue by cue: at most 64 chosen, none a GO or HOLD cue, none at or after the bar; and what a
chosen cue does (R139; R140). -/
def Obligations.ChaseWalkChoosesPastCuesOnly : Prop :=
  ∀ (cues : Table CueSlot) (bar n : Nat) (first : Bool),
    (walk cues bar 64 n first []).chosen.length ≤ 64 ∧
    ((walk cues bar 64 n first []).fault = some .chaseLimit → (walk cues bar 64 n first []).chosen.length = 64) ∧
    (∀ c ∈ (walk cues bar 64 n first []).chosen,
      (∃ slot, Table.look cues c.cue = some slot ∧ slot.record = c.record) ∧
      c.record.trigger ≠ .onGo ∧ c.record.isHold = false ∧ (∀ p q, c.record.trigger = .at p q → p < bar)) ∧
    ((∀ slot, Table.look cues n = some slot → slot.record.trigger.ok = true) → (walk cues 1 64 n true []).chosen = []) ∧
    (∀ (k : Nat) (chosen : List Latched),
      walk cues bar 0 n first chosen = ⟨chosen, some n, some .chaseLimit⟩ ∧
      (Table.look cues n = none → walk cues bar (k + 1) n first chosen = ⟨chosen, none, some .emptyCue⟩) ∧
      (∀ x, Table.look cues n = some x →
        let c := x.record
        let stops : Prop := c.trigger = .onGo ∨ c.isHold = true ∨ (∃ p q, c.trigger = .at p q ∧ bar ≤ p) ∨
          (c.trigger = .afterPrevious ∧ first = true ∧ bar ≤ 1)
        (stops → walk cues bar (k + 1) n first chosen = ⟨chosen, some n, none⟩) ∧
        (¬stops → c.isEnd = true → walk cues bar (k + 1) n first chosen = ⟨chosen ++ [⟨n, c⟩], none, none⟩) ∧
        (¬stops → c.isEnd = false →
          walk cues bar (k + 1) n first chosen = walk cues bar k c.next false (chosen ++ [⟨n, c⟩])))) ∧
    (∀ (s : State) (c : Latched) (later : List Latched),
      let acted : State × CueResult := match c.record.action with
        | .tempo _ | .ramp _ _ | .meter _ | .click _ _ | .program _ => s.doAction c false none
        | .scene m => if later.any (fun d => d.record.action.sceneNumber.isSome) then (s, .ok) else s.swapCommand c.cue m
        | .marker _ | .stop _ | .nextSong | .nop => (s, .ok)
      s.chaseCues (c :: later) = (acted.1.writeStatus c.cue acted.2).chaseCues later ∧ s.chaseCues [] = s)

/-- SET_TEMPO and RAMP_TEMPO clamp the tempo, set or ramp it, and answer CLAMPED or DONE; under a follower, STATE
(R5; R6; R16). -/
def Obligations.SetTempoAndRampTempoAct : Prop :=
  ∀ (s : State) (l : Link) (n : Nat), n < 65536 →
    (s.takes l .setTempo (be16 n) = true →
      (s.te.follow ≠ .free → exec (.setTempo l (be16 n)) s = .next (s.answered l .setTempo .state [])) ∧
      (s.te.follow = .free →
        let t := max 3000 (min 30000 n)
        let u : State := { s.answered l .setTempo (if t = n then .done else .clamped) [] with
          te := { s.te with tempo := t, ramp := none } }
        exec (.setTempo l (be16 n)) s =
          .next (if s.te.tempo = t ∧ s.te.ramp = none then u
            else u.broadcastQuiet Mask.tempo (.tempo t none s.te.source .free)))) ∧
    (∀ b : Nat, b < 256 → s.takes l .rampTempo (be16 n ++ [byte b]) = true →
      (s.te.follow ≠ .free →
        exec (.rampTempo l (be16 n ++ [byte b])) s = .next (s.answered l .rampTempo .state [])) ∧
      (s.te.follow = .free → b = 0 ∨ 64 < b →
        exec (.rampTempo l (be16 n ++ [byte b])) s = .next (s.answered l .rampTempo .range [0, 2, 255])) ∧
      (s.te.follow = .free → 1 ≤ b → b ≤ 64 →
        let t := max 3000 (min 30000 n)
        let u : State := s.answered l .rampTempo (if t = n then .done else .clamped) []
        (s.ticking = true → exec (.rampTempo l (be16 n ++ [byte b])) s =
          .next (State.broadcastQuiet
            { u with te := { s.te with ramp := some { t0 := s.te.tempo, t1 := t, len := b * 480, prog := 0 } } }
            Mask.tempo (.tempo s.te.tempo (some t) s.te.source .free))) ∧
        (s.ticking = false → exec (.rampTempo l (be16 n ++ [byte b])) s =
          .next (State.broadcastQuiet { u with te := { s.te with tempo := t } }
            Mask.tempo (.tempo t (s.te.ramp.map Ramp.t1) s.te.source .free)))))

/-- SET_METER sets the meter at once or for the next bar; SET_FOLLOW selects the source of marks and restarts the
follower (R8; R17; R16). -/
def Obligations.SetMeterAndSetFollowAct : Prop :=
  ∀ (s : State) (l : Link) (b : Nat), b < 256 →
    (s.takes l .setMeter [byte b] = true →
      (b = 0 ∨ 16 < b → exec (.setMeter l [byte b]) s = .next (s.answered l .setMeter .range [0, 0, 255])) ∧
      (1 ≤ b → b ≤ 16 → exec (.setMeter l [byte b]) s = .next { s.answered l .setMeter .done [] with
        te := if s.ticking then { s.te with pendingMeter := some b } else { s.te with meter := b, pendingMeter := none } })) ∧
    (s.takes l .setFollow [byte b] = true →
      (3 ≤ b → exec (.setFollow l [byte b]) s = .next (s.answered l .setFollow .range [0, 0, 255])) ∧
      (b = s.te.source.code → exec (.setFollow l [byte b]) s = .next (s.answered l .setFollow .already [])) ∧
      (b = 0 → s.te.source ≠ .none → exec (.setFollow l [byte b]) s =
        .next (State.broadcastQuiet { s.answered l .setFollow .done [] with
            te := { s.te with source := .none, follow := .free, history := [], lastMark := none, lostDeadline := none } }
          Mask.tempo (.tempo s.te.tempo (s.te.ramp.map Ramp.t1) .none .free))) ∧
      (∀ src, src = .line ∨ src = .marks → b = src.code → s.te.source ≠ src → exec (.setFollow l [byte b]) s =
        .next (State.broadcastQuiet { s.answered l .setFollow .done [] with
            te := { s.te with source := src, follow := .seeking, history := [], lastMark := none, lostDeadline := none,
                              ramp := none } }
          Mask.tempo (.tempo s.te.tempo none src .seeking))))

/-- A beat event reaches click, router, sequencer and BEAT notice once each, in a free order; what router and
sequencer then do (R4; R29; R32; R67; R74; R125; R126; R137; R16). -/
def Obligations.BeatEventIsHandedToEveryBlock : Prop :=
  ∀ (s : State) (ev : BeatEvent),
    (∃ order : List Taker, order.Perm [.click, .router, .sequencer, .notice] ∧
      (s.handOn ev = s.takeBeatAll ev order ∨ s.handOn ev = s.choose.takeBeatAll ev order)) ∧
    (s.cs.state ≠ .waiting → (ev.isBar = true → s.cs.segue = none) →
      (∀ g, s.lr.staged = some g → g.point ≠ .nextBeat ∧ (ev.isBar = true → g.point ≠ .nextBar)) →
      s.handOn ev = State.broadcastQuiet
        { s with ck := { s.ck with buses := s.ck.buses.map (fun x => x.beat s.ck.patterns ev) },
                 cs := { s.cs with boundary := 0, chained := false } }
        Mask.beat (.beat ev.bar ev.beat ev.meter s.te.tempo ev.transport)) ∧
    (∀ bar : Bool,
      ((∀ g, s.lr.staged = some g → g.point ≠ .nextBeat ∧ (bar = true → g.point ≠ .nextBar)) → s.routerBeat bar = s) ∧
      (∀ g, s.lr.staged = some g → g.point = .nextBeat ∨ (bar = true ∧ g.point = .nextBar) →
        s.routerBeat bar = if s.lr.lock = none then s.swapped g
          else (State.tellsScene { s with lr := { s.lr with staged := none } } .skippedLock g.scene g.origin).emptied)) ∧
    (let pos : Option BarBeat := some ⟨ev.bar, ev.beat⟩
     let u : State := { s with cs := { s.cs with boundary := 0, chained := false } }
     let a : State := if ev.isBar then u.applySegueRecord pos else u
     (s.cs.segue = none → u.applySegueRecord pos = u) ∧
     (∀ g, s.cs.segue = some g →
       let v : State := { u with
         cs := { u.cs with setPos := some g.pos, song := some g.song, segue := none }
         ck := { s.ck with buses := ⟨(s.bus .band).ask ⟨some g.band, none, none, none, none⟩,
                                     (s.bus .keys).ask ⟨some g.keys, none, none, none, none⟩⟩ } }
       u.applySegueRecord pos = match g.firstCue with
         | none => v
         | some n => v.becomeCurrent n false pos) ∧
     (a.cs.state ≠ .waiting → s.sequencerBeat ev = a) ∧
     (a.cs.state = .waiting → ev.transport ≠ .running → ev.transport ≠ .stopping → s.sequencerBeat ev = a.leadCheck) ∧
     (∀ c, a.cs.state = .waiting → a.cs.current = some c → ev.transport = .running ∨ ev.transport = .stopping →
       (a.cs.goPending = true → s.sequencerBeat ev = a.leadCheck.fire c false ev.closing pos) ∧
       (a.cs.goPending = false →
         (c.record.trigger = .onGo → s.sequencerBeat ev = a.leadCheck) ∧
         (c.record.trigger = .afterPrevious → a.cs.chained = false →
           s.sequencerBeat ev = a.leadCheck.fire c false ev.closing pos) ∧
         (∀ p q : Nat, c.record.trigger = .at p q →
           (ev.bar < p ∨ (ev.bar = p ∧ ev.beat < q) → s.sequencerBeat ev = a.leadCheck) ∧
           (ev.bar = p → ev.beat = q → s.sequencerBeat ev = a.leadCheck.fire c false ev.closing pos) ∧
           ((p : Int) < ev.bar ∨ (ev.bar = p ∧ q < ev.beat) →
             s.sequencerBeat ev = a.leadCheck.fire c true ev.closing pos))))) ∧
    ((s.cs.current = none → s.leadCheck = s) ∧
     (∀ c, s.cs.current = some c →
       (c.record.trigger = .onGo ∨ c.record.trigger = .afterPrevious → s.leadCheck = s) ∧
       (∀ p q : Nat, c.record.trigger = .at p q →
         let d : Int := if 1 ≤ s.te.pos.bar then (p : Int) - s.te.pos.bar else (p : Int) - s.te.pos.bar - 1
         let r : Int := d * (s.te.meter : Int) + ((q : Int) - (s.te.pos.beat : Int))
         s.leadCheck = if 1 ≤ c.record.lead ∧ s.cs.leadSent = false ∧ r ≤ (c.record.lead : Int) then
             State.broadcast { s with cs := { s.cs with leadSent := true } } Mask.cue
               (.cueNear c.cue p q r c.record.action.code c.record.action.sceneNumber)
           else s)))

/-- START begins a count-in or a run with the first tick, beat and bar event, its notice and its timing bytes (R10;
R3; R8; R9; R22; R23; R182). -/
def Obligations.StartBeginsTheRun : Prop :=
  ∀ (s : State) (l : Link), s.takes l .start [] = true →
    (s.st.op = .loading → exec (.start l []) s = .next (s.answered l .start .busy [])) ∧
    (s.st.op ≠ .loading → s.te.transport ≠ .stopped → exec (.start l []) s = .next (s.answered l .start .state [])) ∧
    (s.st.op ≠ .loading → s.te.transport = .stopped →
      let counts : Bool := decide (0 < s.te.countIn ∧ s.te.pos.bar = 1)
      let bar : Int := if counts then -(s.te.countIn : Int) else s.te.pos.bar
      let tr : Transport := if counts then .counting else .running
      let meter := s.te.pendingMeter.getD s.te.meter
      let te : TempoEngine := { s.te with
        acc := 0, clockCount := 0, tickOwed := false, pos := ⟨bar, 1, 0⟩, transport := tr, meter := meter, pendingMeter := none }
      let u : State := State.broadcast { s.answered l .start .done [] with te := te } Mask.transport
        (.transport tr ⟨bar, 1, 0⟩ meter s.te.tempo)
      let v : State := if counts = false ∧ bar = 1 then u.handRealTime 0xFA#8 else u
      exec (.start l []) s = .next (State.handOn { v.handRealTime 0xF8#8 with te := { te with clockCount := 1 } }
        { bar := bar, beat := 1, meter := meter, transport := tr, isBar := true, closing := false }))

/-- STOP(NOW) stops at once at beat 1 of the bar; STOP(AT_BAR) arms the next bar line, or stops a count-in at once
(R12; R13; R7; R9; R23; R130). -/
def Obligations.StopsEndTheRun : Prop :=
  ∀ (s : State) (l : Link),
    let stopped : State → State := fun r =>
      let te : TempoEngine := { s.te with
        transport := .stopped, pos := ⟨if s.te.transport = .counting then 1 else s.te.pos.bar, 1, 0⟩, acc := 0, clockCount := 0,
        tickOwed := false, tempo := (s.te.ramp.map Ramp.t1).getD s.te.tempo, ramp := none, segue := none,
        meter := s.te.pendingMeter.getD s.te.meter, pendingMeter := none }
      let u : State := State.handRealTime { r with te := te, cs := { s.cs with goPending := false, segue := none } } 0xFC#8
      State.broadcast (if s.te.ramp.isSome then u.broadcastQuiet Mask.tempo (.tempo te.tempo none te.source te.follow) else u)
        Mask.transport (.transport .stopped te.pos te.meter te.tempo)
    (s.takes l .stop [0] = true →
      (s.ticking = true → exec (.stopNow l []) s = .next (stopped (s.answered l .stop .done []))) ∧
      (s.ticking = false → exec (.stopNow l []) s = .next (s.answered l .stop .state []))) ∧
    (s.takes l .stop [1] = true →
      (s.te.transport = .running → exec (.stopAtBar l []) s =
        .next (State.broadcast { s.answered l .stop .done [] with te := { s.te with transport := .stopping } } Mask.transport
          (.transport .stopping s.te.pos s.te.meter s.te.tempo))) ∧
      (s.te.transport = .counting → exec (.stopAtBar l []) s = .next (stopped (s.answered l .stop .done []))) ∧
      (s.te.transport = .stopping → exec (.stopAtBar l []) s = .next (s.answered l .stop .already [])) ∧
      (s.te.transport = .stopped → exec (.stopAtBar l []) s = .next (s.answered l .stop .state [])))

/-- LOCATE moves the stopped position, announces it and hands the bar to the sequencer's chase, which walks, executes
and stops (R14; R9; R139; R140). -/
def Obligations.LocateMovesTheStoppedPosition : Prop :=
  ∀ (s : State) (l : Link) (n : Nat), n < 65536 → s.takes l .locate (be16 n) = true →
    let u : State := State.broadcast { s.answered l .locate .done [] with te := { s.te with pos := ⟨n, 1, 0⟩ } } Mask.transport
      (.transport s.te.transport ⟨n, 1, 0⟩ s.te.meter s.te.tempo)
    (n = 0 ∨ 9999 < n → exec (.locate l (be16 n)) s = .next (s.answered l .locate .range [0, 0, 255])) ∧
    (1 ≤ n → n ≤ 9999 → s.te.transport ≠ .stopped → exec (.locate l (be16 n)) s = .next (s.answered l .locate .state [])) ∧
    (1 ≤ n → n ≤ 9999 → s.te.transport = .stopped →
      exec (.locate l (be16 n)) s = .next (u.chase n) ∧
      (s.cs.state = .idle → u.chase n = u) ∧
      (s.cs.state ≠ .idle → s.cs.current = none →
        (∀ k g, s.cs.song = some k → Table.look s.cs.songs k = some g → g.firstCue = none) →
        u.chase n = { u with cs := { s.cs with
          state := .ended, current := none, chained := false, leadSent := false, latchedNext := none, goPending := false } }) ∧
      (s.cs.state ≠ .idle → (∀ k g, s.cs.song = some k → Table.look s.cs.songs k = some g → g.firstCue = none) →
        u.chase n = { u.dropCurrent with cs := { u.dropCurrent.cs with
          state := .ended, current := none, chained := false, leadSent := false } }) ∧
      (∀ k g m, s.cs.state ≠ .idle → s.cs.song = some k → Table.look s.cs.songs k = some g → g.firstCue = some m →
        let w := walk s.cs.cues n 64 m true []
        let v : State := match w.fault with
          | some f => u.dropCurrent.report f none
          | none => u.dropCurrent
        let x := v.chaseCues w.chosen
        u.chase n = match w.stop with
          | some j => x.becomeCurrent j false none
          | none => { x with cs := { x.cs with state := .ended, current := none, chained := false, leadSent := false } }))

/-- A tick steps a ramp, advances tick-in-beat, sounds due subdivisions and sends each clock byte once (R2; R3; R7;
R22; R33). -/
def Obligations.TickMovesTheEngineOn : Prop :=
  (∀ s : State, s.ticking = false → exec .tick s = .next { s with te := { s.te with tickOwed := false } }) ∧
  (∀ s : State, s.ticking = true →
    let acc := if s.te.tickOwed then s.te.acc else accAtTick s.te.acc s.te.tempo
    let te0 : TempoEngine := { s.te with acc := acc, tickOwed := false }
    let u : State := match s.te.ramp with
      | none => { s with te := te0 }
      | some r =>
        if r.len ≤ r.prog + 1 then
          State.broadcastQuiet { s with te := { te0 with tempo := r.t1, ramp := none } } Mask.tempo
            (.tempo r.t1 none s.te.source s.te.follow)
        else { s with te := { te0 with tempo := r.tempoAt (r.prog + 1), ramp := some { r with prog := r.prog + 1 } } }
    let t := s.te.pos.tick + 1
    let te1 : TempoEngine := { u.te with pos := { s.te.pos with tick := t } }
    (t < 480 → t % 20 = 0 → s.te.clockCount ≤ t / 20 →
      exec .tick s = .next { u with
        te := { te1 with clockCount := t / 20 + 1 }
        ck := { s.ck with buses := s.ck.buses.map (fun x => x.tick t) }
        op := s.op.map (fun x => x.handRealTime s.now 0xF8#8) }) ∧
    (t < 480 → t % 20 ≠ 0 ∨ t / 20 < s.te.clockCount →
      exec .tick s = .next { u with te := te1, ck := { s.ck with buses := s.ck.buses.map (fun x => x.tick t) } }) ∧
    (480 ≤ t → exec .tick s = .next u.beatOccurs)) ∧
  (∀ acc tempo : Nat, acc < 12500000 → 0 < tempo → tempo < 12500000 →
    ∃ n, 1 ≤ n ∧ accAtTick acc tempo + 12500000 = acc + n * tempo ∧ acc + (n - 1) * tempo < 12500000)

/-- A beat event advances the beat; past the meter it is a bar event with pending meter, segue and the end of a
count-in (R3; R4; R9; R11; R15; R22; R23). -/
def Obligations.BeatEventsAdvanceBeatAndBar : Prop :=
  ∀ s : State,
    (s.te.pos.beat < s.te.meter → s.beatOccurs = State.handOn
      { s.handRealTime 0xF8#8 with te := { s.te with pos := ⟨s.te.pos.bar, s.te.pos.beat + 1, 0⟩, clockCount := 1 } }
      { bar := s.te.pos.bar, beat := s.te.pos.beat + 1, meter := s.te.meter, transport := s.te.transport, isBar := false,
        closing := false }) ∧
    (s.te.meter ≤ s.te.pos.beat → s.te.segue = none → s.te.transport = .counting ∨ s.te.transport = .running →
      let bar : Int := if s.te.pos.bar = -1 then 1 else if 9999 ≤ s.te.pos.bar then 9999 else s.te.pos.bar + 1
      let begins : Bool := decide (s.te.transport = .counting ∧ bar = 1)
      let te : TempoEngine := { s.te with
        pos := ⟨bar, 1, 0⟩, meter := s.te.pendingMeter.getD s.te.meter, pendingMeter := none,
        transport := if begins then .running else s.te.transport }
      let u : State := if begins then
          State.handRealTime (State.broadcast { s with te := te } Mask.transport
            (.transport .running te.pos te.meter te.tempo)) 0xFA#8
        else { s with te := te }
      s.beatOccurs = State.handOn { u.handRealTime 0xF8#8 with te := { te with clockCount := 1 } }
        { bar := bar, beat := 1, meter := te.meter, transport := te.transport, isBar := true, closing := false }) ∧
    (∀ g, s.te.meter ≤ s.te.pos.beat → s.te.segue = some g → s.te.transport = .counting ∨ s.te.transport = .running →
      let te : TempoEngine := { s.te with
        pos := ⟨1, 1, 0⟩, meter := g.meter, pendingMeter := none, countIn := g.countIn, tempo := g.tempo.getD s.te.tempo,
        ramp := if g.tempo.isSome then none else s.te.ramp, segue := none, transport := .running }
      let u : State := if te.tempo ≠ s.te.tempo ∨ te.ramp ≠ s.te.ramp then
          State.broadcastQuiet { s with te := te } Mask.tempo (.tempo te.tempo (te.ramp.map Ramp.t1) te.source te.follow)
        else { s with te := te }
      let v : State := if s.te.transport = .counting then
          u.broadcast Mask.transport (.transport .running te.pos te.meter te.tempo) else u
      s.beatOccurs = State.handOn { (v.handRealTime 0xFA#8).handRealTime 0xF8#8 with te := { te with clockCount := 1 } }
        { bar := 1, beat := 1, meter := g.meter, transport := .running, isBar := true, closing := false })

/-- The bar event of a stop at the bar is handed on as closing, and then the transport is STOPPED at the bar it began
(R3; R7; R9; R13; R15; R16; R23; R32; R130; R136; R137). -/
def Obligations.ClosingEventStopsAtTheBar : Prop :=
  (∀ s : State, s.te.transport = .stopping → s.te.meter ≤ s.te.pos.beat →
    let bar : Int := if s.te.pos.bar = -1 then 1 else if 9999 ≤ s.te.pos.bar then 9999 else s.te.pos.bar + 1
    let te : TempoEngine := match s.te.segue with
      | none => { s.te with pos := ⟨bar, 1, 0⟩, meter := s.te.pendingMeter.getD s.te.meter, pendingMeter := none }
      | some g => { s.te with
          pos := ⟨1, 1, 0⟩, meter := g.meter, pendingMeter := none, countIn := g.countIn, tempo := g.tempo.getD s.te.tempo,
          ramp := if g.tempo.isSome then none else s.te.ramp, segue := none }
    let u : State := if te.tempo ≠ s.te.tempo ∨ te.ramp ≠ s.te.ramp then
        State.broadcastQuiet { s with te := te } Mask.tempo (.tempo te.tempo (te.ramp.map Ramp.t1) te.source te.follow)
      else { s with te := te }
    let w : State := u.handOn
      { bar := te.pos.bar, beat := 1, meter := te.meter, transport := .stopping, isBar := true, closing := true }
    (w.te.transport ≠ .stopping → s.beatOccurs = w) ∧
    (w.te.transport = .stopping →
      let tempo := (w.te.ramp.map Ramp.t1).getD w.te.tempo
      let a : State := State.handRealTime { w with te := { w.te with
        pos := ⟨w.te.pos.bar, 1, 0⟩, transport := .stopped, acc := 0, clockCount := 0, tickOwed := false, tempo := tempo,
        ramp := none, segue := none } } 0xFC#8
      let b : State := if w.te.ramp = none then a
        else a.broadcastQuiet Mask.tempo (.tempo tempo none w.te.source w.te.follow)
      let c : State := b.broadcast Mask.transport (.transport .stopped ⟨w.te.pos.bar, 1, 0⟩ w.te.meter tempo)
      let d : State := { c with cs := { w.cs with goPending := false, deferred := none } }
      (w.cs.deferred = none → s.beatOccurs = d) ∧
      (∀ p, w.cs.deferred = some p →
        (∀ n g, w.cs.setlist[p]? = some n → Table.look w.cs.songs n = some g →
          s.beatOccurs = d.songSelect p n g none) ∧
        ((∀ n, w.cs.setlist[p]? = some n → Table.look w.cs.songs n = none) → s.beatOccurs = d)))) ∧
  (∀ s : State, s.te.transport = .stopping → s.te.meter ≤ s.te.pos.beat → s.te.segue = none → s.cs.state ≠ .waiting →
    s.cs.segue = none → s.cs.deferred = none →
    (∀ g, s.lr.staged = some g → g.point ≠ .nextBeat ∧ g.point ≠ .nextBar) →
    let bar : Int := if s.te.pos.bar = -1 then 1 else if 9999 ≤ s.te.pos.bar then 9999 else s.te.pos.bar + 1
    let meter := s.te.pendingMeter.getD s.te.meter
    let ev : BeatEvent := { bar := bar, beat := 1, meter := meter, transport := .stopping, isBar := true, closing := true }
    NoticesOnly { s with
        te := { s.te with
          pos := ⟨bar, 1, 0⟩, meter := meter, pendingMeter := none, transport := .stopped, acc := 0, clockCount := 0,
          tickOwed := false, tempo := (s.te.ramp.map Ramp.t1).getD s.te.tempo, ramp := none }
        ck := { s.ck with buses := s.ck.buses.map (fun x => x.beat s.ck.patterns ev) }
        cs := { s.cs with boundary := 0, chained := false, goPending := false }
        op := s.op.map (fun x => x.handRealTime s.now 0xFC#8) }
      s.beatOccurs)

/-- A mark of the selected source is a first mark (when LOCKED: logs 28, 44), an interval, or an estimate with its
lock, deadline and phase correction (R17; R18; R19; R20; R153; R16). -/
def Obligations.MarksDriveTheFollower : Prop :=
  ∀ s : State,
    (s.te.source ≠ .line → exec .beatEdge s = .next s) ∧
    ((s.link .s2).high = true → s.te.source ≠ .marks → exec (.mark .s2 []) s = .next (s.heard .s2)) ∧
    (∀ (c : Instr) (u : State),
      (c = .beatEdge ∧ u = s ∧ s.te.source = .line) ∨
        (c = .mark .s2 [] ∧ u = s.heard .s2 ∧ (s.link .s2).high = true ∧ s.te.source = .marks) →
      (s.te.lastMark = none → s.te.follow ≠ .freewheel →
        exec c s = .next { u with te := { s.te with lastMark := some s.now } }) ∧
      (s.te.lastMark = none → s.te.follow = .freewheel →
        exec c s = .next (State.broadcastQuiet
          { u with te := { s.te with lastMark := some s.now, follow := .seeking, lostDeadline := none } }
          Mask.tempo (.tempo s.te.tempo (s.te.ramp.map Ramp.t1) s.te.source .seeking))) ∧
      (∀ m, s.te.lastMark = some m →
        let d := stampSince s.now m
        let v : State := { u with te := { s.te with lastMark := some s.now, history := [], lostDeadline := none } }
        let h := s.te.history ++ [d]
        let h4 := h.drop (h.length - 4)
        let avg := h4.sum / h4.length
        let t := (6000000000 + avg / 2) / avg
        let w : State := { u with te := { s.te with
          lastMark := some s.now, history := h4, tempo := t, follow := .locked,
          lostDeadline := some (stampAfter s.now (3 * avg)) } }
        let x : State := if s.te.tempo = t ∧ s.te.follow = .locked then w
          else w.broadcastQuiet Mask.tempo (.tempo t (s.te.ramp.map Ramp.t1) s.te.source .locked)
        (d < 200000 ∨ 2000000 < d → s.te.follow ≠ .locked → s.te.follow ≠ .freewheel → exec c s = .next v) ∧
        (d < 200000 ∨ 2000000 < d → s.te.follow = .locked ∨ s.te.follow = .freewheel →
          exec c s = .next (State.broadcastQuiet { v with te := { v.te with follow := .seeking } }
            Mask.tempo (.tempo s.te.tempo (s.te.ramp.map Ramp.t1) s.te.source .seeking))) ∧
        (200000 ≤ d → d ≤ 2000000 → s.te.history = [] →
          exec c s = .next { u with te := { s.te with lastMark := some s.now, history := [d] } }) ∧
        (200000 ≤ d → d ≤ 2000000 → s.te.history ≠ [] → s.ticking = false ∨ s.te.pos.tick = 0 → exec c s = .next x) ∧
        (200000 ≤ d → d ≤ 2000000 → s.te.history ≠ [] → s.ticking = true → 1 ≤ s.te.pos.tick → s.te.pos.tick ≤ 239 →
          exec c s = .next { x with te := { x.te with pos := { s.te.pos with tick := 0 }, acc := 0 } }) ∧
        (200000 ≤ d → d ≤ 2000000 → s.te.history ≠ [] → s.ticking = true → 240 ≤ s.te.pos.tick →
          exec c s = .next (State.beatOccurs { x with te := { x.te with acc := 0 } }))))

/-- A last mark time expires; every lost deadline leaves FREEWHEEL (after a late first mark too: the model's choice,
log 44), a FOLLOW fault only while ticking (R18; R21; R16). -/
def Obligations.FollowerDeadlinesPass : Prop :=
  ∀ s : State,
    exec .lastMarkExpiry s = .next { s with te := { s.te with lastMark := none } } ∧
    (s.te.lostDeadline = none → exec .lostDeadline s = .next s) ∧
    (s.te.lostDeadline ≠ none →
      let u : State := State.broadcastQuiet { s with te := { s.te with
          follow := .freewheel, history := [], lastMark := none, lostDeadline := none } }
        Mask.tempo (.tempo s.te.tempo (s.te.ramp.map Ramp.t1) s.te.source .freewheel)
      (s.ticking = false → exec .lostDeadline s = .next u) ∧
      (s.ticking = true → exec .lostDeadline s = .next (u.reportAt .followLost none (some ⟨s.te.pos.bar, s.te.pos.beat⟩))))

/-- WRITE_PATTERN replaces one pattern, SET_CLICK merges into the pending change, MUTE_CLICK acts at once (R27; R28;
R31). -/
def Obligations.ClickRequestsAct : Prop :=
  ∀ (s : State) (l : Link),
    (∀ (n : Nat) (q : Pattern), n ≤ 15 → patternOk q = true → s.st.op = .none →
      s.takes l .writePattern (patternPayload n q) = true →
      exec (.writePattern l (patternPayload n q)) s = .next
        { s.answered l .writePattern .done [] with ck := { s.ck with patterns := setPattern s.ck.patterns n q } } ∧
      (∀ m : Nat, (Table.sorted s.ck.patterns = true ∨ q ≠ defaultPattern) →
        patternAt (setPattern s.ck.patterns n q) m = if m = n then q else patternAt s.ck.patterns m)) ∧
    (∀ (b : Bus) (c : ClickChange), c.ok = true → s.st.op = .none → s.takes l .setClick (clickPayload b c) = true →
      let old := (s.bus b).change
      exec (.setClick l (clickPayload b c)) s = .next
        (if c = ⟨none, none, none, none, none⟩ then s.answered l .setClick .done []
         else (s.answered l .setClick .done []).setBus b
           { s.bus b with change := some ({ pattern := if c.pattern.isSome then c.pattern else old.bind ClickChange.pattern
                                            level := if c.level.isSome then c.level else old.bind ClickChange.level
                                            accent := if c.accent.isSome then c.accent else old.bind ClickChange.accent
                                            normal := if c.normal.isSome then c.normal else old.bind ClickChange.normal
                                            sub := if c.sub.isSome then c.sub else old.bind ClickChange.sub } : ClickChange) })) ∧
    (∀ (b : Bus) (m : Bool), s.takes l .muteClick [byte (Bus.code b), flag m] = true →
      exec (.muteClick l [byte (Bus.code b), flag m]) s = .next
        (if (s.bus b).mute = m then s.answered l .muteClick .already []
         else (s.answered l .muteClick .done []).setBus b { s.bus b with mute := m })) ∧
    (∀ (x : Byte) (m : Bool), 2 ≤ x.toNat → s.takes l .muteClick [x, flag m] = true →
      exec (.muteClick l [x, flag m]) s = .next (s.answered l .muteClick .range [0, 0, 255]))

/-- A beat applies the pending change and clicks by its table; a tick clicks on each subdivision of its beat once
(R25; R29; R32; R33; R34; R36). -/
def Obligations.BeatAndSubdivisionClicks : Prop :=
  ∀ (x : ClickBus) (table : Table Pattern),
    (∀ ev : BeatEvent,
      let ch : ClickChange := x.change.getD ⟨none, none, none, none, none⟩
      let y : ClickBus := { x with
        pattern := ch.pattern.getD x.pattern
        level := ch.level.getD x.level
        accent := ch.accent.getD x.accent
        normal := ch.normal.getD x.normal
        sub := ch.sub.getD x.sub
        change := none }
      let q : PatPos := (patternAt table y.pattern).getD (ev.beat - 1) ⟨.silent, 1⟩
      let burst : ClickClass → Option Burst := fun c =>
        if x.mute then x.burst
        else some { cls := c, n := 0,
                    peak := 8388607 * (Config.multiplier (match c with
                      | .accent => y.accent | .normal => y.normal | .sub => y.sub) * Config.multiplier y.level) / 65536 }
      (ev.closing = true → x.beat table ev = { y with subdiv := 1, subCount := 0 }) ∧
      (ev.closing = false → ev.transport = .counting →
        x.beat table ev = { y with subdiv := 1, subCount := 0, burst := burst (if ev.beat = 1 then .accent else .normal) }) ∧
      (ev.closing = false → ev.transport = .running ∨ ev.transport = .stopping →
        x.beat table ev = { y with subdiv := q.sub, subCount := 0,
                                   burst := match q.cls with
                                     | .accent => burst .accent
                                     | .normal => burst .normal
                                     | .silent => x.burst })) ∧
    (∀ t : Nat, 1 ≤ t → t ≤ 479 →
      (1 < x.subdiv ∧ t % (480 / x.subdiv) = 0 ∧ x.subCount < t / (480 / x.subdiv) →
        x.tick t = { x with
          subCount := t / (480 / x.subdiv)
          burst := if x.mute then x.burst else
            some ⟨.sub, 8388607 * (Config.multiplier x.sub * Config.multiplier x.level) / 65536, 0⟩ }) ∧
      (¬(1 < x.subdiv ∧ t % (480 / x.subdiv) = 0 ∧ x.subCount < t / (480 / x.subdiv)) → x.tick t = x)) ∧
    (∀ c : ClickClass, x.level ≤ 12 → x.accent ≤ 12 → x.normal ≤ 12 → x.sub ≤ 12 →
      524287 ≤ x.peak c ∧ x.peak c ≤ 8388607)

/-- A sample period sends each bus's burst sample with its falling magnitude and sign, or 0, and moves the index on
(R34; R35). -/
def Obligations.SamplePeriodSendsTheBurst : Prop :=
  ∀ s : State,
    exec .samplePeriod s = .next { s with ck := { s.ck with buses := ⟨(s.bus .band).samplePeriod, (s.bus .keys).samplePeriod⟩ } } ∧
    (∀ x : ClickBus, x.burst = none → x.samplePeriod = { x with sample := 0 }) ∧
    (∀ (x : ClickBus) (b : Burst), x.burst = some b → b.n ≤ 479 →
      let mag : Nat := b.peak * (480 - b.n) / 480
      let half : Nat := match b.cls with
        | .accent => 12
        | .normal => 24
        | .sub => 32
      x.samplePeriod = { x with
        sample := if b.n % (2 * half) < half then (mag : Int) else -(mag : Int)
        burst := if b.n = 479 then none else some { b with n := b.n + 1 } } ∧
      (b.peak ≤ 8388607 → -8388607 ≤ x.samplePeriod.sample ∧ x.samplePeriod.sample ≤ 8388607))

/-- WRITE_SCENE, WRITE_SONG, WRITE_CUE and WRITE_SETLIST put the record in its slot and leave every other slot alone
(R62; R119; R120; R122; R65). -/
def Obligations.WritesReplaceOneSlot : Prop :=
  (∀ (s : State) (l : Link), s.st.op = .none →
    (∀ (n : Nat) (r : Scene), n ≤ 127 → r.ok = true → s.takes l .writeScene (byte n :: sceneBytes r) = true →
      exec (.writeScene l (byte n :: sceneBytes r)) s = .next
        (if s.lr.staged.map Staging.scene = some n then s.answered l .writeScene .retry []
         else { s.answered l .writeScene .done [] with cs := { s.cs with scenes := Table.put s.cs.scenes n r } })) ∧
    (∀ (n : Nat) (g : Song), n ≤ 63 → g.ok = true → s.takes l .writeSong (byte n :: songBytes g) = true →
      exec (.writeSong l (byte n :: songBytes g)) s = .next
        { s.answered l .writeSong .done [] with cs := { s.cs with songs := Table.put s.cs.songs n g } }) ∧
    (∀ (n : Nat) (c : Cue), n ≤ 255 → c.ok = true → s.takes l .writeCue (byte n :: cueBytes c) = true →
      exec (.writeCue l (byte n :: cueBytes c)) s = .next
        (if s.cs.current.map Latched.cue = some n ∨ s.cs.latchedNext.map Latched.cue = some n then
           s.answered l .writeCue .retry []
         else { s.answered l .writeCue .done [] with
           cs := { s.cs with cues := Table.put s.cs.cues n { record := c, done := false, result := .none } } })) ∧
    (∀ ns : List Nat, ns.length ≤ 64 → (∀ n ∈ ns, n ≤ 63) →
      s.takes l .writeSetlist (byte ns.length :: ns.map byte) = true →
      exec (.writeSetlist l (byte ns.length :: ns.map byte)) s = .next
        (if s.cs.segue.isSome then s.answered l .writeSetlist .retry []
         else { s.answered l .writeSetlist .done [] with
           cs := { s.cs with
             setlist := ns
             setPos := match s.cs.setPos with
               | some p => if p < ns.length then some p else none
               | none => none } }))) ∧
  (∀ (t : Table Scene) (k m : Nat) (x : Scene), Table.look (Table.put t k x) m = if m = k then some x else Table.look t m) ∧
  (∀ (t : Table Song) (k m : Nat) (x : Song), Table.look (Table.put t k x) m = if m = k then some x else Table.look t m) ∧
  (∀ (t : Table CueSlot) (k m : Nat) (x : CueSlot),
    Table.look (Table.put t k x) m = if m = k then some x else Table.look t m)

/-- READ_SCENE, READ_SONG, READ_CUE and READ_SETLIST answer with the table as it stands and change nothing (R63;
R119; R120; R122; R182). -/
def Obligations.ReadsReturnTheTables : Prop :=
  ∀ (s : State) (l : Link),
    (∀ n : Nat, n ≤ 255 → s.takes l .readScene [byte n] = true →
      exec (.readScene l [byte n]) s = .next
        (if 127 < n then s.answered l .readScene .range [0, 0, 255]
         else if s.st.op = .loading then s.answered l .readScene .busy []
         else match Table.look s.cs.scenes n with
           | some r => s.answered l .readScene .done (sceneBytes r)
           | none => s.answered l .readScene .empty [0, 0, 0])) ∧
    (∀ n : Nat, n ≤ 255 → s.takes l .readSong [byte n] = true →
      exec (.readSong l [byte n]) s = .next
        (if 63 < n then s.answered l .readSong .range [0, 0, 255]
         else if s.st.op = .loading then s.answered l .readSong .busy []
         else match Table.look s.cs.songs n with
           | some g => s.answered l .readSong .done (songBytes g)
           | none => s.answered l .readSong .empty (0 :: 0xFF :: 0xFF :: be16 12000 ++ [4, 0, 0, 0]))) ∧
    (∀ n : Nat, n ≤ 255 → s.takes l .readCue [byte n] = true →
      exec (.readCue l [byte n]) s = .next
        (if s.st.op = .loading then s.answered l .readCue .busy []
         else match Table.look s.cs.cues n with
           | some c => s.answered l .readCue .done (cueBytes c.record ++ [flag c.done, byte c.result.code])
           | none => s.answered l .readCue .empty [2, 0, 0, 0, 0, 0, 0, 0, 0, 0])) ∧
    (s.takes l .readSetlist [] = true →
      exec (.readSetlist l []) s = .next
        (if s.st.op = .loading then s.answered l .readSetlist .busy []
         else s.answered l .readSetlist .done
           (byte s.cs.setlist.length :: s.cs.setlist.map byte ++ [byte (s.cs.setPos.getD 255), byte (s.cs.song.getD 255)])))

/-- LOCK and UNLOCK act and answer by the lock holder and the sender, and the timing station has no right to either
(R75; R76). -/
def Obligations.LockTable : Prop :=
  ∀ (s : State) (l : Link), s.hearsRequest l = true → s.ready = true →
    let notice : Option Link → Notice := fun h => .scene .lock s.lr.live.scene none none h
      (if s.te.transport = .stopped then none else some ⟨s.te.pos.bar, s.te.pos.beat⟩)
    let taken : State := State.broadcast { s.answered l .lock .done [] with lr := { s.lr with lock := some l } }
      Mask.scene (notice (some l))
    let released : State := State.broadcast { s.answered l .unlock .done [] with lr := { s.lr with lock := none } }
      Mask.scene (notice none)
    (l = .s2 → exec (.lock l []) s = .next (s.answered l .lock .denied []) ∧
      ∀ f : Bool, exec (.unlock l [flag f]) s = .next (s.answered l .unlock .denied [])) ∧
    (l ≠ .s2 →
      (s.lr.lock = none → l = .s3 → exec (.lock l []) s = .next taken) ∧
      (∀ x : Station, s.lr.lock = none → l = x.link →
        exec (.lock l []) s = .next
          (if (s.station x).state = .up ∨ (s.station x).state = .suspect then taken else s.answered l .lock .state [])) ∧
      (s.lr.lock = some l → exec (.lock l []) s = .next (s.answered l .lock .already [])) ∧
      (∀ h, s.lr.lock = some h → h ≠ l → exec (.lock l []) s = .next (s.answered l .lock .denied [])) ∧
      exec (.unlock l [flag false]) s = .next
        (if s.lr.lock = some l then released else s.answered l .unlock .denied []) ∧
      (l = .s3 → exec (.unlock l [flag true]) s = .next
        (if s.lr.lock = none then s.answered l .unlock .done [] else released)) ∧
      (l ≠ .s3 → exec (.unlock l [flag true]) s = .next (s.answered l .unlock .denied [])))

/-- LOAD_SCENE_NOW is checked in turn, then staged or swapped; a cue's stage, swap and withdraw commands; a swap, its
programs, held notes (R61; R65; R66; R68; R69; R70; R71; R72; R73; R74; R98; R182). -/
def Obligations.LoadSceneNowStagesOrSwaps : Prop :=
  ∀ s : State,
    (∀ (l : Link) (n q : Nat), n ≤ 255 → q ≤ 255 → s.takes l .loadSceneNow [byte n, byte q] = true →
      (127 < n → exec (.loadSceneNow l [byte n, byte q]) s = .next (s.answered l .loadSceneNow .range [0, 0, 255])) ∧
      (n ≤ 127 → 2 < q →
        exec (.loadSceneNow l [byte n, byte q]) s = .next (s.answered l .loadSceneNow .range [0, 1, 255])) ∧
      (n ≤ 127 → q ≤ 2 →
        (s.st.op = .loading → exec (.loadSceneNow l [byte n, byte q]) s = .next (s.answered l .loadSceneNow .busy [])) ∧
        (s.st.op ≠ .loading → s.lr.lock ≠ none →
          exec (.loadSceneNow l [byte n, byte q]) s = .next (s.answered l .loadSceneNow .denied [])) ∧
        (s.st.op ≠ .loading → s.lr.lock = none → s.lr.staged ≠ none →
          exec (.loadSceneNow l [byte n, byte q]) s = .next (s.answered l .loadSceneNow .busy [])) ∧
        (s.st.op ≠ .loading → s.lr.lock = none → s.lr.staged = none →
          let r : Scene := (Table.look s.cs.scenes n).getD ⟨[], [], []⟩
          let g : SwapPoint → Staging := fun p => { record := r, scene := n, point := p, origin := .link l }
          (1 ≤ q → exec (.loadSceneNow l [byte n, byte q]) s = .next { s.answered l .loadSceneNow .done [] with
            lr := { s.lr with staged := some (g (if q = 1 then .nextBeat else .nextBar)) } }) ∧
          (q = 0 → r.programs = [] → s.lr.claim = none →
            let live : LayerRouter := { s.lr with live := ⟨r.layers, some n⟩, staged := some (g .now) }
            exec (.loadSceneNow l [byte n, byte q]) s = .next
              { State.broadcast { s.answered l .loadSceneNow .done [] with lr := live } Mask.scene
                  (.scene .swapped (some n) (some n) (some (.link l)) none s.barBeat) with
                lr := { s.lr with live := ⟨r.layers, some n⟩ } }) ∧
          (q = 0 → exec (.loadSceneNow l [byte n, byte q]) s = .next (State.swapped
            { s.answered l .loadSceneNow .done [] with lr := { s.lr with staged := some (g .now) } } (g .now)))))) ∧
    (∀ cue m : Nat,
      let g : Staging := { record := (Table.look s.cs.scenes m).getD ⟨[], [], []⟩, scene := m, point := .cue, origin := .cue cue }
      let waiting : State → State := fun u =>
        { u with lr := { u.lr with claim := if u.lr.claim.map CueClaim.cue = some cue then none else u.lr.claim } }
      (s.lr.staged = none → s.stageCommand cue m = { s with lr := { s.lr with claim := none, staged := some g } }) ∧
      (∀ h, s.lr.staged = some h →
        (∀ j, h.origin = .cue j → s.stageCommand cue m = { s with lr := { s.lr with claim := none, staged := some g } }) ∧
        (∀ j, h.origin = .link j → s.stageCommand cue m = { s with lr := { s.lr with claim := some ⟨cue, m⟩ } })) ∧
      (s.lr.lock = none →
        (∀ h, s.lr.staged = some h → h.origin = .cue cue → s.swapCommand cue m = (s.swapped h, .ok)) ∧
        ((∀ h, s.lr.staged = some h → h.origin ≠ .cue cue) → s.swapCommand cue m =
          (State.swapped { s with lr := { s.lr with claim := none, staged := some g } } g, .ok))) ∧
      (s.lr.lock ≠ none → s.swapCommand cue m =
        (State.tellsScene { s with lr := { s.lr with claim := none, staged := none } } .skippedLock m (.cue cue), .skippedLock)) ∧
      s.withdraw cue = if s.lr.staged.map Staging.origin = some (.cue cue) then (waiting s).emptied else waiting s) ∧
    (∀ e : ProgEntry,
      (∀ o, e.dest = .out o →
        let r := s.offerGroup o ((match e.msb with
          | some v => [.control e.chan 0 v]
          | none => []) ++ (match e.lsb with
          | some v => [.control e.chan 32 v]
          | none => []) ++ [.program e.chan e.program])
        s.sendProgram e = (r.1, decide (r.2 = .dropped))) ∧
      (e.dest = .sound → s.sendProgram e =
        ((s.mirrorLive { replay := false, chan := e.chan, kind := .program e.program e.msb e.lsb }).1, false))) ∧
    (∀ g : Staging,
      (s.swapped g).lr.live = ⟨g.record.layers, some g.scene⟩ ∧ (s.swapped g).lr.slots = s.lr.slots ∧
      (s.swapped g).lr.held.map HeldEntry.bare = s.lr.held.map HeldEntry.bare)

/-- SELECT_SONG and GO by the state; how a cue becomes current, fires, takes its action, completes, chains on;
NEXT_SONG (R124; R127; R128; R129; R131; R132; R133; R134; R135; R136; R138; 7.6). -/
def Obligations.SelectSongAndGo : Prop :=
  (∀ (s : State) (l : Link) (p : Nat), p ≤ 255 → s.takes l .selectSong [byte p] = true →
    (s.st.op = .loading → exec (.selectSong l [byte p]) s = .next (s.answered l .selectSong .busy [])) ∧
    (s.st.op ≠ .loading →
      (s.cs.setlist[p]? = none → exec (.selectSong l [byte p]) s = .next (s.answered l .selectSong .range [0, 0, 255])) ∧
      (∀ n, s.cs.setlist[p]? = some n →
        (s.te.transport ≠ .stopped ∨ Table.look s.cs.songs n = none →
          exec (.selectSong l [byte p]) s = .next (s.answered l .selectSong .state [])) ∧
        (∀ g, s.te.transport = .stopped → Table.look s.cs.songs n = some g →
          (∀ c, s.cs.current = some c → c.record.action.sceneNumber = none) →
          (∀ c x, g.firstCue = some c → Table.look s.cs.cues c = some x →
            x.record.action.sceneNumber = none ∧ x.record.lead = 0) →
          let te : TempoEngine := { s.te with
            tempo := if s.te.follow = .free then g.tempo else s.te.tempo
            meter := g.meter
            pendingMeter := none
            countIn := g.countIn
            pos := ⟨1, 1, 0⟩ }
          let ck : ClickGen := { s.ck with
            buses := ⟨(s.bus .band).ask ⟨some g.band, none, none, none, none⟩,
                      (s.bus .keys).ask ⟨some g.keys, none, none, none, none⟩⟩ }
          let cs : CueSeq := { s.cs with
            setPos := some p
            song := some n
            state := .ended
            current := none
            chained := false
            leadSent := false
            latchedNext := none
            goPending := false }
          let cs2 : CueSeq := match g.firstCue.bind (fun c => (Table.look s.cs.cues c).map (fun x => (c, x))) with
            | none => cs
            | some (c, x) => { cs with
                state := .waiting
                current := some ⟨c, x.record⟩
                cues := Table.put s.cs.cues c { x with done := false, result := .none } }
          ∃ t, exec (.selectSong l [byte p]) s = .next t ∧
            NoticesOnly { s.answered l .selectSong .done [] with te := te, ck := ck, cs := cs2 } t)))) ∧
  (∀ (s : State) (l : Link), s.takes l .go [] = true →
    (s.cs.state = .idle ∨ s.cs.state = .ended → exec (.go l []) s = .next (s.answered l .go .state [])) ∧
    (∀ c, s.cs.state = .waiting → s.cs.current = some c → s.ticking = true →
      exec (.go l []) s = .next
        (if s.cs.goPending then s.answered l .go .already []
         else { s.answered l .go .done [] with cs := { s.cs with goPending := true } })) ∧
    (∀ c x, s.cs.state = .waiting → s.cs.current = some c → s.ticking = false → c.record.action = .nop →
      c.record.isEnd = true → Table.look s.cs.cues c.cue = some x →
      ∃ t, exec (.go l []) s = .next t ∧
        NoticesOnly { s.answered l .go .done [] with cs := { s.cs with
          state := .ended
          current := none
          chained := false
          leadSent := false
          goPending := false
          boundary := 1
          cues := Table.put s.cs.cues c.cue { x with done := true, result := .ok } } } t) ∧
    (∀ c x, s.cs.state = .held → s.cs.latchedNext = some c → Table.look s.cs.cues c.cue = some x →
      x.record.action.sceneNumber = none → x.record.lead = 0 →
      exec (.go l []) s = .next { s.answered l .go .done [] with cs := { s.cs with
        state := .waiting
        current := some ⟨c.cue, x.record⟩
        chained := false
        leadSent := false
        latchedNext := none
        cues := Table.put s.cs.cues c.cue { x with done := false, result := .none } } })) ∧
  (∀ (s : State) (l : Link),
    (∀ p n g, p ≤ 255 → s.takes l .selectSong [byte p] = true → s.st.op ≠ .loading → s.cs.setlist[p]? = some n →
      s.te.transport = .stopped → Table.look s.cs.songs n = some g →
      exec (.selectSong l [byte p]) s = .next ((s.answered l .selectSong .done []).songSelect p n g none)) ∧
    (s.takes l .go [] = true →
      (∀ c, s.cs.state = .waiting → s.cs.current = some c → s.ticking = false → exec (.go l []) s =
        .next (State.fire { s.answered l .go .done [] with cs := { s.cs with boundary := 0 } } c false false none)) ∧
      (∀ c, s.cs.state = .held → s.cs.latchedNext = some c → exec (.go l []) s = .next
        (State.becomeCurrent { s.answered l .go .done [] with cs := { s.cs with latchedNext := none } } c.cue false s.barBeat)))) ∧
  (∀ (s : State) (pos : Option BarBeat),
    let ended : State → State := fun u =>
      { u with cs := { u.cs with state := .ended, current := none, chained := false, leadSent := false } }
    let faulted : State → FaultKind → State := fun u k => u.reportAt k none (if u.ticking = true then pos else none)
    (let cleared : State → State := fun u => { u with
        cs := { u.cs with current := none, chained := false, leadSent := false, latchedNext := none, goPending := false } }
     (∀ c n, s.cs.current = some c → c.record.action = .scene n → s.dropCurrent = cleared (s.withdraw c.cue)) ∧
     ((∀ c n, s.cs.current = some c → c.record.action ≠ .scene n) → s.dropCurrent = cleared s)) ∧
    (∀ (p n : Nat) (g : Song),
      let tempo := if s.te.follow = .free then g.tempo else s.te.tempo
      let a : State := { s.dropCurrent with
        cs := { s.dropCurrent.cs with setPos := some p, song := some n }
        te := { s.te with tempo := tempo, meter := g.meter, pendingMeter := none, countIn := g.countIn, pos := ⟨1, 1, 0⟩ } }
      let b : State := if tempo = s.te.tempo then a else
        a.broadcastQuiet Mask.tempo (.tempo tempo (s.te.ramp.map Ramp.t1) s.te.source s.te.follow)
      let d : State := { b.broadcast Mask.transport (.transport s.te.transport ⟨1, 1, 0⟩ g.meter tempo) with
        ck := { s.ck with buses := ⟨(s.bus .band).ask ⟨some g.band, none, none, none, none⟩,
                                    (s.bus .keys).ask ⟨some g.keys, none, none, none, none⟩⟩ } }
      s.songSelect p n g pos = match g.firstCue with
        | none => ended d
        | some c => d.becomeCurrent c false pos) ∧
    (∀ (n : Nat) (chained : Bool),
      (Table.look s.cs.cues n = none → s.becomeCurrent n chained pos = faulted (ended s) .emptyCue) ∧
      (∀ x, Table.look s.cs.cues n = some x →
        let u : State := { s with cs := { s.cs with
          state := .waiting, current := some ⟨n, x.record⟩, chained := chained, leadSent := false,
          cues := Table.put s.cs.cues n { x with done := false, result := .none } } }
        s.becomeCurrent n chained pos = match x.record.action with
          | .scene m => (u.stageCommand n m).leadCheck
          | _ => u.leadCheck)) ∧
    (∀ (n : Nat) (r : CueResult),
      (Table.look s.cs.cues n = none → s.writeStatus n r = s) ∧
      (∀ x, Table.look s.cs.cues n = some x →
        s.writeStatus n r = { s with cs := { s.cs with cues := Table.put s.cs.cues n { x with done := true, result := r } } })) ∧
    (∀ (c : Latched) (late closing : Bool),
      let r := s.doAction c closing pos
      let result : CueResult := if r.2 = .ok then (if late then .late else .ok) else r.2
      let u := r.1.writeStatus c.cue result
      let v := if late then faulted u .late else u
      let w := if c.record.isNotify then v.broadcast Mask.cue (.cueDone c.cue result c.record.action.code pos) else v
      let z : State := { w with cs := { w.cs with boundary := w.cs.boundary + 1 } }
      (c.record.action = .nextSong → s.completeCue c late closing pos = w) ∧
      (c.record.action ≠ .nextSong →
        (c.record.isEnd = true → s.completeCue c late closing pos = ended z) ∧
        (c.record.isEnd = false → c.record.isHold = true →
          (Table.look z.cs.cues c.record.next = none →
            s.completeCue c late closing pos = faulted (ended z) .emptyCue) ∧
          (∀ x, Table.look z.cs.cues c.record.next = some x → s.completeCue c late closing pos = { z with cs := { z.cs with
            state := .held, current := none, chained := false, leadSent := false,
            latchedNext := some ⟨c.record.next, x.record⟩ } })) ∧
        (c.record.isEnd = false → c.record.isHold = false →
          s.completeCue c late closing pos = z.becomeCurrent c.record.next true pos))) ∧
    (∀ closing : Bool,
      (∀ (c : Latched) (late : Bool), s.fire c late closing pos = State.chain closing pos 9
        (State.completeCue { s with cs := { s.cs with goPending := false } } c late closing pos)) ∧
      (∀ (c : Latched) (k : Nat), s.cs.state = .waiting → s.cs.current = some c → c.record.trigger = .afterPrevious →
        s.cs.chained = true → s.chain closing pos (k + 1) =
          if s.cs.boundary < 8 then (s.completeCue c false closing pos).chain closing pos k
          else faulted s .chainLimit) ∧
      ((∀ c, s.cs.state = .waiting → s.cs.current = some c → s.cs.chained = true → c.record.trigger ≠ .afterPrevious) →
        ∀ k : Nat, s.chain closing pos k = s) ∧
      (∀ (c : Latched) (x : CueSlot), s.cs.boundary = 0 → Table.look s.cs.cues c.cue = some x → x.record = c.record →
        c.record = ⟨.afterPrevious, .nop, false, false, false, c.record.lead, c.cue⟩ →
        s.fire c false closing pos = faulted { s with cs := { s.cs with
          goPending := false, boundary := 8, state := .waiting, current := some c, chained := true, leadSent := false,
          cues := Table.put s.cs.cues c.cue { x with done := false, result := .none } } } .chainLimit)) ∧
    (∀ (c : Latched) (closing : Bool), s.doAction c closing pos = match c.record.action with
      | .nop => (s, .ok)
      | .scene n => s.swapCommand c.cue n
      | .tempo t =>
        let u : State := { s with te := { s.te with tempo := t, ramp := none } }
        if s.te.follow ≠ .free then (s, .following)
        else if s.te.tempo = t ∧ s.te.ramp = none then (u, .ok)
        else (u.broadcastQuiet Mask.tempo (.tempo t none s.te.source .free), .ok)
      | .ramp t b =>
        if s.te.follow ≠ .free then (s, .following)
        else if s.ticking then (State.broadcastQuiet
            { s with te := { s.te with ramp := some { t0 := s.te.tempo, t1 := t, len := b * 480, prog := 0 } } }
            Mask.tempo (.tempo s.te.tempo (some t) s.te.source .free), .ok)
        else (State.broadcastQuiet { s with te := { s.te with tempo := t } }
            Mask.tempo (.tempo t (s.te.ramp.map Ramp.t1) s.te.source .free), .ok)
      | .meter b => ({ s with
          te := if s.ticking then { s.te with pendingMeter := some b } else { s.te with meter := b, pendingMeter := none } }, .ok)
      | .click band keys => ({ s with ck := { s.ck with buses :=
          ⟨if band.isSome then (s.bus .band).ask ⟨band, none, none, none, none⟩ else s.bus .band,
           if keys.isSome then (s.bus .keys).ask ⟨keys, none, none, none, none⟩ else s.bus .keys⟩ } }, .ok)
      | .program es => ((s.sendPrograms es).1, if (s.sendPrograms es).2 then .fault else .ok)
      | .marker text => (s.broadcast Mask.cue (.marker c.cue text pos), .ok)
      | .stop .now => (s.stopNow, .ok)
      | .stop .atBar => (s.stopAtBar, .ok)
      | .nextSong => s.nextSong closing pos) ∧
    (s.sendPrograms [] = (s, false) ∧ ∀ (e : ProgEntry) (es : List ProgEntry), s.sendPrograms (e :: es) =
      (((s.sendProgram e).1.sendPrograms es).1, (s.sendProgram e).2 || ((s.sendProgram e).1.sendPrograms es).2)) ∧
    (∀ closing : Bool,
      (s.cs.setPos = none → s.nextSong closing pos = (ended s, .endOfSet)) ∧
      (∀ p, s.cs.setPos = some p →
        (s.cs.setlist[p + 1]? = none → s.nextSong closing pos = (ended s, .endOfSet)) ∧
        (∀ n, s.cs.setlist[p + 1]? = some n →
          (Table.look s.cs.songs n = none → s.nextSong closing pos = (ended (faulted s .emptySong), .fault)) ∧
          (∀ g, Table.look s.cs.songs n = some g → s.nextSong closing pos =
            if s.te.transport = .stopped then (s.songSelect (p + 1) n g pos, .ok)
            else if closing then (ended { s with cs := { s.cs with deferred := some (p + 1) } }, .ok)
            else (ended { s with
              te := { s.te with segue := some ⟨if s.te.follow = .free then some g.tempo else none, g.meter, g.countIn⟩ }
              cs := { s.cs with segue := some ⟨p + 1, n, g.firstCue, g.band, g.keys⟩ } }, .ok))))))

/-- SET_INPUT, SET_OUTPUT and SET_WATCH replace the settings they name, with the moves of input, output and station
(R49; R56; R96; R97; R117; R168; R177). -/
def Obligations.PortAndWatchSettingsAct : Prop :=
  ∀ (s : State) (l : Link), s.st.op = .none →
    (∀ (i : InPort) (t : InSettings), t.ok = true → s.takes l .setInput (inputPayload i t) = true →
      let x : MidiIn := s.midiIn i
      (t.enabled = x.settings.enabled → t.filter = x.settings.filter →
        exec (.setInput l (inputPayload i t)) s =
          .next ((s.answered l .setInput .done []).setIn i { x with settings := t })) ∧
      (x.settings.enabled = false → t.enabled = false →
        exec (.setInput l (inputPayload i t)) s =
          .next ((s.answered l .setInput .done []).setIn i { x with settings := t })) ∧
      (x.settings.enabled = false → t.enabled = true →
        exec (.setInput l (inputPayload i t)) s = .next ((s.answered l .setInput .done []).setIn i
          { x with settings := t, running := none, collected := none, skip := .none, sensing := .unwatched, deadline := none })) ∧
      (x.settings.enabled = true → t.enabled = false → (∀ e ∈ s.lr.held, e.input ≠ i) →
        exec (.setInput l (inputPayload i t)) s = .next
          { (s.answered l .setInput .done []).setIn i
              { x with settings := t, running := none, collected := none, skip := .none, sensing := .unwatched,
                       deadline := none, sustain := 0#16 } with
            lr := { s.lr with slots := s.lr.slots.filter (fun q => decide (q.key.input ≠ i)) } }) ∧
      (x.settings.enabled = true → t.enabled = false →
        let u : State := State.releaseAll ((s.answered l .setInput .done []).setIn i
            { x with settings := t, running := none, collected := none, skip := .none, sensing := .unwatched,
                     deadline := none, sustain := 0#16 }) (fun e => decide (e.input = i)) (fun _ => 64)
        exec (.setInput l (inputPayload i t)) s = .next
          { u with lr := { u.lr with slots := u.lr.slots.filter (fun q => decide (q.key.input ≠ i)) } }) ∧
      (x.settings.enabled = true → t.enabled = true →
        let dropped : List Chan := allChans.filter (fun c =>
          decide ((x.settings.filter = none ∨ x.settings.filter = some c) ∧ ¬(t.filter = none ∨ t.filter = some c)))
        exec (.setInput l (inputPayload i t)) s = .next (dropped.foldl
          (fun u c => State.releaseAll (u.setIn i { u.midiIn i with sustain := (u.midiIn i).sustain &&& ~~~(1#16 <<< c.val) })
            (fun e => decide (e.input = i ∧ e.chan = c)) (fun _ => 64))
          ((s.answered l .setInput .done []).setIn i { x with settings := t })))) ∧
    (∀ (o : OutPort) (t : OutSettings), s.takes l .setOutput (outputPayload o t) = true →
      let x : MidiOut := s.midiOut o
      exec (.setOutput l (outputPayload o t)) s = .next ((s.answered l .setOutput .done []).setOut o
        (match x.mode with
          | .enabled =>
            if t.enabled then { x with settings := t }
            else if x.sounding = 0 ∧ x.queue = [] ∧ x.tx = none then
              { x with settings := t, mode := .disabled, realTime := [], line := none }
            else { x with settings := t, mode := .draining }
          | .draining => if t.enabled then { x with settings := t, mode := .enabled } else { x with settings := t }
          | .disabled =>
            if t.enabled then { x with settings := t, mode := .enabled, statusMem := none } else { x with settings := t }))) ∧
    (∀ n : Nat, n ≤ 255 → s.takes l .setWatch [byte n] = true →
      let m : Nat := max 3 (min 20 n)
      (∀ x : Station, (s.station x).state = .suspect ∨ (s.station x).state = .joining → (s.station x).miss < m) →
      exec (.setWatch l [byte n]) s = .next
        { s.answered l .setWatch (if m = n then .done else .clamped) [] with sw := { s.sw with limit := m } }) ∧
    (∀ n : Nat, n ≤ 255 → s.takes l .setWatch [byte n] = true →
      let m : Nat := max 3 (min 20 n)
      let r : State := { s.answered l .setWatch (if m = n then .done else .clamped) [] with sw := { s.sw with limit := m } }
      let goes : Station → Prop := fun x =>
        ((s.station x).state = .suspect ∨ (s.station x).state = .joining) ∧ m ≤ (s.station x).miss
      let down : Station → State → State := fun x u => (u.moved x .down).report .lost (some (.link x.link))
      (∀ x : Station, goes x → ¬goes x.other → exec (.setWatch l [byte n]) s = .next (down x r)) ∧
      (goes .a → goes .b → exec (.setWatch l [byte n]) s =
        .next (if Config.aFirst s.choices then down .b (down .a r.choose) else down .a (down .b r.choose))))

/-- SET_FAULT_MODE sets one class's mode, ACK_FAULTS acknowledges all, READ_FAULTS reads, and ALERT follows at once
(R184; R186; R187). -/
def Obligations.FaultLogRequestsAct : Prop :=
  ∀ (s : State) (l : Link),
    (∀ c m : Nat, c ≤ 255 → m ≤ 255 → s.st.op = .none → s.takes l .setFaultMode [byte c, byte m] = true →
      (9 < c → exec (.setFaultMode l [byte c, byte m]) s = .next (s.answered l .setFaultMode .range [0, 0, 255])) ∧
      (c ≤ 9 → 2 < m → exec (.setFaultMode l [byte c, byte m]) s = .next (s.answered l .setFaultMode .range [0, 1, 255]))) ∧
    (∀ (c : FaultClass) (m : FaultMode), s.st.op = .none →
      s.takes l .setFaultMode [byte c.code, byte m.code] = true →
      (s.fl.modes.get c = m →
        exec (.setFaultMode l [byte c.code, byte m.code]) s = .next (s.answered l .setFaultMode .already [])) ∧
      (s.fl.modes.get c ≠ m → ∃ modes : FaultModes, modes.get c = m ∧ (∀ d, d ≠ c → modes.get d = s.fl.modes.get d) ∧
        exec (.setFaultMode l [byte c.code, byte m.code]) s = .next { s.answered l .setFaultMode .done [] with
          fl := { s.fl with
            modes := modes
            alert := s.fl.records.any (fun r => !r.acked && decide (modes.get r.kind.cls = .alert)) } })) ∧
    (s.takes l .ackFaults [] = true →
      exec (.ackFaults l []) s = .next { s.answered l .ackFaults .done [] with
        fl := { s.fl with records := s.fl.records.map (fun r => { r with acked := true }), alert := false } }) ∧
    (∀ n : Nat, n ≤ 255 → s.takes l .readFaults [byte n] = true →
      exec (.readFaults l [byte n]) s = .next
        (if 31 < n then s.answered l .readFaults .range [0, 0, 255]
         else s.answered l .readFaults .done
           (byte s.fl.records.length :: ((s.fl.records.drop n).take 16).flatMap faultBytes)))

/-- SUBSCRIBE sets its own link's mask and answers with it; READ_STATUS answers the 171 bytes of 11.5's snapshot
(R159; R162; R188; R190; 11.5). -/
def Obligations.SubscribeAndReadStatusAct : Prop :=
  ∀ (s : State) (l : Link),
    (∀ b : Byte, s.takes l .subscribe [b] = true →
      let m : Mask := { beat := b.getLsbD 0, tempo := b.getLsbD 1, transport := b.getLsbD 2, scene := b.getLsbD 3,
                        cue := b.getLsbD 4, fault := b.getLsbD 5, active := b.getLsbD 6 }
      let u : State := s.answered l .subscribe .done [b]
      exec (.subscribe l [b]) s = .next (u.setLink l { u.link l with mask := m })) ∧
    (∀ b : Byte, s.hearsRequest l = true → 128 ≤ b.toNat →
      exec (.subscribe l [b]) s = .next (s.answered l .subscribe .bad [])) ∧
    (s.takes l .readStatus [] = true →
      exec (.readStatus l []) s = .next (s.answered l .readStatus .done (s.heard l).snapshot)) ∧
    s.snapshot.length = 171 ∧
    (let te : TempoEngine := s.te
     let lr : LayerRouter := s.lr
     let cs : CueSeq := s.cs
     let sw : Watch := s.sw
     let bus : ClickBus → List Byte := fun x =>
       [byte x.pattern, byte x.level, byte x.accent, byte x.normal, byte x.sub, flag x.mute, flag x.change.isSome]
     let input : MidiIn → List Byte := fun x =>
       [flag x.settings.enabled, (match x.settings.filter with | none => 0 | some c => byte (c.val + 1)),
        byte x.settings.average, byte x.settings.deadband, byte x.settings.interval, byte x.sensing.code,
        byte (x.sustain.toNat / 256), byte x.sustain.toNat]
     let output : MidiOut → List Byte := fun x =>
       [byte (x.settings.enabled.toNat + 2 * x.settings.running.toNat + 4 * x.settings.clock.toNat), byte x.mode.code,
        byte x.queue.length, byte x.sounding]
     let link : LinkState → List Byte := fun x =>
       flag x.high :: flag x.hold.isSome
         :: be16 (match x.hold with
             | none => 0
             | some e => if (s.now - e).toNat < 2147483648 then 0 else (e - s.now).toNat / 1000)
         ++ [byte (128 - x.queue.length),
             byte (x.mask.beat.toNat + 2 * x.mask.tempo.toNat + 4 * x.mask.transport.toNat + 8 * x.mask.scene.toNat
               + 16 * x.mask.cue.toNat + 32 * x.mask.fault.toNat + 64 * x.mask.active.toNat)]
     let origin : List Byte := match lr.staged.map Staging.origin with
       | none => [255, 255]
       | some (.link k) => [0, byte (Link.code k)]
       | some (.cue n) => [1, byte n]
     let trigger : List Byte := match cs.current.map (fun x : Latched => x.record.trigger) with
       | none => [0, 0, 0, 0]
       | some (.at p q) => 0 :: be16 p ++ [byte q]
       | some .afterPrevious => [1, 0, 0, 0]
       | some .onGo => [2, 0, 0, 0]
     s.snapshot =
       [flag s.ready] ++ be32 (s.micros / 1000 % 4294967296)
       ++ ([byte te.transport.code] ++ int16 te.pos.bar ++ [byte te.pos.beat] ++ be16 te.pos.tick ++ be16 te.tempo
         ++ [byte te.meter, byte (te.pendingMeter.getD 255), byte te.countIn]
         ++ be16 (match te.ramp with | none => 0 | some r => r.t1)
         ++ [byte (match te.ramp with | none => 255 | some r => (r.len - r.prog + 479) / 480), flag te.segue.isSome,
             byte te.source.code, byte te.follow.code, byte te.history.length])
       ++ (bus s.ck.buses.band ++ bus s.ck.buses.keys)
       ++ (input s.ip.in0 ++ input s.ip.in1 ++ input s.ip.in2 ++ input s.ip.in3 ++ input s.ip.in4 ++ input s.ip.in5)
       ++ (output s.op.out0 ++ output s.op.out1 ++ output s.op.out2 ++ output s.op.out3)
       ++ ([byte (lr.live.scene.getD 255), flag lr.staged.isSome, byte ((lr.staged.map Staging.scene).getD 255),
            byte ((lr.staged.map (fun g => g.point.code)).getD 255)] ++ origin
         ++ be16 ((lr.claim.map CueClaim.cue).getD 65535)
         ++ [byte ((lr.claim.map CueClaim.scene).getD 255),
             byte (match lr.lock with | none => 0 | some .s0 => 1 | some .s1 => 2 | some .s3 => 3 | some .s2 => 255),
             byte lr.held.length, byte (lr.held.countP (fun e => decide (e.state = .held))),
             byte (lr.held.countP (fun e => decide (e.state ≠ .held))), byte (lr.held.countP (fun e => e.pend.a)),
             byte (lr.held.countP (fun e => e.pend.b)), byte lr.slots.length,
             byte (lr.slots.countP (fun q => decide (q.deadline ≠ none)))])
       ++ ([byte cs.state.code, byte (cs.setPos.getD 255), byte (cs.song.getD 255)]
         ++ be16 ((cs.current.map Latched.cue).getD 65535) ++ trigger ++ [flag cs.leadSent]
         ++ be16 ((cs.latchedNext.map Latched.cue).getD 65535)
         ++ [flag cs.goPending, flag cs.segue.isSome, byte ((cs.segue.map SegueRecord.pos).getD 255), flag cs.deferred.isSome])
       ++ (link s.sl.s0 ++ link s.sl.s1 ++ link s.sl.s2 ++ link s.sl.s3)
       ++ [byte sw.stations.a.state.code, byte sw.stations.a.miss, byte sw.stations.b.state.code, byte sw.stations.b.miss,
           byte sw.limit, byte (match sw.active with | none => 255 | some .a => 0 | some .b => 1), byte sw.pulse,
           byte ((decide (sw.stations.a.phase ≠ .none)).toNat + 2 * (decide (sw.stations.b.phase ≠ .none)).toNat)]
       ++ [byte s.st.status.code, byte (match s.st.op with | .none => 0 | .saving _ => 1 | .loading => 2)]
       ++ [byte s.fl.records.length, byte (s.fl.records.countP (fun r => !r.acked)), flag s.fl.alert]) ∧
    (∀ b : Bool, flag b = if b then 1 else 0) ∧
    [Transport.stopped, .counting, .running, .stopping].map Transport.code = [0, 1, 2, 3] ∧
    [FollowSource.none, .line, .marks].map FollowSource.code = [0, 1, 2] ∧
    [FollowState.free, .seeking, .locked, .freewheel].map FollowState.code = [0, 1, 2, 3] ∧
    [Sensing.unwatched, .watched, .lost].map Sensing.code = [0, 1, 2] ∧
    [OutMode.enabled, .draining, .disabled].map OutMode.code = [0, 1, 2] ∧
    [SwapPoint.now, .nextBeat, .nextBar, .cue].map SwapPoint.code = [0, 1, 2, 3] ∧
    [Link.s0, .s1, .s2, .s3].map Link.code = [0, 1, 2, 3] ∧
    [SeqState.idle, .waiting, .held, .ended].map SeqState.code = [0, 1, 2, 3] ∧
    [StationState.absent, .down, .joining, .up, .suspect].map StationState.code = [0, 1, 2, 3, 4] ∧
    [ImageStatus.valid, .blank, .invalid].map ImageStatus.code = [0, 1, 2]

/-- RESTART brings engine, sequencer, map state and click back to the start of a show and releases every held note
(R24; R23; R38; R78; R91; R103; R142). -/
def Obligations.RestartClearsTheShow : Prop :=
  ∀ (s : State) (l : Link), s.takes l .restart [] = true →
    let te : TempoEngine := { s.te with
      transport := .stopped
      pos := ⟨1, 1, 0⟩
      acc := 0
      clockCount := 0
      tickOwed := false
      source := .none
      follow := .free
      history := []
      lastMark := none
      lostDeadline := none
      ramp := none
      pendingMeter := none
      segue := none }
    let cs : CueSeq := { s.cs with
      state := .idle
      current := none
      chained := false
      leadSent := false
      latchedNext := none
      goPending := false
      boundary := 0
      segue := none
      deferred := none
      setPos := none
      song := none }
    let u0 : State := { s.answered l .restart .done [] with te := te }
    let u1 : State := if s.ticking = true then u0.handRealTime 0xFC#8 else u0
    let u2 : State := if s.ticking = true ∨ s.te.pos ≠ ⟨1, 1, 0⟩ then
        u1.broadcast Mask.transport (.transport .stopped ⟨1, 1, 0⟩ s.te.meter s.te.tempo)
      else u1
    let u3 : State := if s.te.follow ≠ .free ∨ s.te.ramp ≠ none then
        u2.broadcastQuiet Mask.tempo (.tempo s.te.tempo none .none .free)
      else u2
    let u4 : State := { u3 with cs := cs, lr := { s.lr with staged := none, claim := none, lock := none } }
    let u5 : State := if s.lr.lock = none then u4
      else u4.broadcast Mask.scene (.scene .lock s.lr.live.scene none none none none)
    let released : State → State := fun u => u.releaseAll (fun _ => true) (fun _ => 64)
    exec (.restart l []) s = .next { released u5 with
      ck := { s.ck with buses := s.ck.buses.map (fun x => { x with change := none, subdiv := 1, subCount := 0 }) } } ∧
    (released u5).lr.held = [] ∧
    (∀ u : State, u.lr.held = [] → released u = u) ∧
    (∀ (u : State) (e : HeldEntry) (r : List HeldEntry), u.lr.held = e :: r →
      released u = released (e.targets.foldl (fun v t => v.releaseTarget e.pend 64 t) { u with lr := { u.lr with held := r } }))

/-- SAVE_SHOW copies the show at acceptance, refuses what could change it until SAVE_DONE, and ends in one of three
ways (R180; R181; R182). -/
def Obligations.SaveRunsFromACopy : Prop :=
  ∀ (s : State),
    (∀ l : Link, s.st.op = .none → s.takes l .saveShow [] = true →
      let copy : ShowImage :=
        { scenes := s.cs.scenes
          cues := s.cs.cues.map (fun e => (e.1, e.2.record))
          songs := s.cs.songs
          setlist := s.cs.setlist
          patterns := s.ck.patterns.map (fun e => (e.1, some e.2))
          inputs := ⟨s.ip.in0.settings, s.ip.in1.settings, s.ip.in2.settings, s.ip.in3.settings, s.ip.in4.settings,
            s.ip.in5.settings⟩
          outputs := ⟨s.op.out0.settings, s.op.out1.settings, s.op.out2.settings, s.op.out3.settings⟩
          limit := s.sw.limit
          modes := s.fl.modes }
      exec (.saveShow l []) s = .next { s.answered l .saveShow .accepted [] with st := { s.st with op := .saving copy } }) ∧
    (∀ (i : Instr) (l : Link) (k : ReqKind) (p : List Byte), i.asRequest = some (l, k, p) → s.st.op ≠ .none →
      s.takes l k p = true → k ∈ [ReqKind.writeScene, .writeCue, .writeSong, .writeSetlist, .writePattern, .setClick,
        .setInput, .setOutput, .setWatch, .setFaultMode, .loadShow, .saveShow] →
      exec i s = .next (s.answered l k .busy [])) ∧
    (∀ (e : SaveEnd) (g : ShowImage), s.st.op = .saving g →
      let status : ImageStatus := match e with
        | .matched => .valid
        | .writeFailed true => .blank
        | .writeFailed false => .invalid
        | .differed => .invalid
      let flash : Flash := match status with
        | .valid => .image g (crc16 (Config.imageBytes g))
        | .blank => .blank
        | .invalid => .garbled
      let u : State := State.broadcast { s with st := { status := status, op := .none, flash := flash } }
        (fun _ => true) (.store .save (decide (e = .matched)))
      exec (.saveDone e) s = .next (match e with
        | .matched => u
        | .writeFailed _ => u.report .write none
        | .differed => u.report .verify none)) ∧
    (∀ e : SaveEnd, (∀ g, s.st.op ≠ .saving g) → exec (.saveDone e) s = .next s)

/-- LOAD_SHOW reads the flash to LOAD_DONE and start-up reads it once; a valid image is taken whole, another reported
(R26; R38; R49; R56; R177; R180; R182; R183; R184; R186). -/
def Obligations.LoadAndStartUpTakeTheImage : Prop :=
  ∀ s : State,
    let tables : State → ShowImage → State := fun u g =>
      { u with
        cs := { u.cs with
          scenes := g.scenes
          cues := g.cues.map (fun e => (e.1, { record := e.2, done := false, result := .none }))
          songs := g.songs
          setlist := g.setlist }
        ck := { u.ck with patterns := loadPatterns g.patterns } }
    let settings : State → ShowImage → State := fun u g =>
      let v : State := [InPort.in0, .in1, .in2, .in3, .in4, .in5].foldl (fun w i => w.applyInput i (g.inputs.get i)) u
      State.setLimit ([OutPort.out0, .out1, .out2, .out3].foldl
        (fun w o => w.setOut o ((w.midiOut o).applySettings (g.outputs.get o))) v) (max 3 (min 20 g.limit))
    let modes : State → FaultModes → State := fun u m =>
      { u with fl := { u.fl with
        modes := m
        alert := u.fl.records.any (fun r => !r.acked && decide (m.get r.kind.cls = .alert)) } }
    let cause : FaultKind := match s.cause with
      | .powerOn => .powerOn
      | .resetLine => .resetLine
    let taken : State → ShowImage → Prop := fun t g =>
      t.te = s.te ∧ t.fl.modes = g.modes ∧ t.lr.live = s.lr.live ∧ t.sw.limit = max 3 (min 20 g.limit) ∧
      t.cs = { s.cs with
        scenes := g.scenes
        cues := g.cues.map (fun e => (e.1, { record := e.2, done := false, result := .none }))
        songs := g.songs
        setlist := g.setlist } ∧
      t.ck.buses = s.ck.buses ∧
      (Table.sorted g.patterns = true →
        ∀ n, patternAt t.ck.patterns n = ((Table.look g.patterns n).getD none).getD defaultPattern) ∧
      (∀ i, (t.midiIn i).settings = g.inputs.get i) ∧ (∀ o, (t.midiOut o).settings = g.outputs.get o)
    (∀ l : Link, s.st.op = .none → s.takes l .loadShow [] = true →
      exec (.loadShow l []) s = .next
        (if s.te.transport = .stopped ∧ s.cs.state = .idle ∧ s.lr.staged = none then
           { s.answered l .loadShow .accepted [] with st := { s.st with op := .loading } }
         else s.answered l .loadShow .state [])) ∧
    (s.st.op ≠ .loading → exec .loadDone s = .next s) ∧
    (s.st.op = .loading → ∀ st k, s.st.flash.read = (st, none) → st.fault = some k →
      exec .loadDone s = .next ((State.broadcast { s with st := { s.st with status := st, op := .none } }
        (fun _ => true) (.store .load false)).report k none)) ∧
    (s.st.op = .loading → ∀ g : ShowImage, s.st.flash = .image g (crc16 (Config.imageBytes g)) →
      let t : State := (modes (settings (tables { s with st := { s.st with status := .valid, op := .none } } g) g) g.modes).broadcast
        (fun _ => true) (.store .load true)
      exec .loadDone s = .next t ∧ t.st = { s.st with status := .valid, op := .none } ∧ taken t g) ∧
    (s.ready = true → exec .startupImageRead s = .next s) ∧
    (s.ready = false → ∀ st k, s.st.flash.read = (st, none) → st.fault = some k →
      exec .startupImageRead s = .next
        { State.broadcast ((State.report { s with st := { s.st with status := st } } cause none).report k none)
            (fun _ => true) (.store .startup false) with ready := true }) ∧
    (s.ready = false → ∀ g : ShowImage, s.st.flash = .image g (crc16 (Config.imageBytes g)) →
      let t : State := { State.broadcast ((settings (tables (modes { s with st := { s.st with status := .valid } } g.modes) g) g).report
          cause none) (fun _ => true) (.store .startup true) with ready := true }
      exec .startupImageRead s = .next t ∧ t.st = { s.st with status := .valid } ∧ t.ready = true ∧ taken t g) ∧
    (∀ f : Flash, f.read = (match f with
      | .blank => (.blank, none)
      | .garbled => (.invalid, none)
      | .image g c => if crc16 (Config.imageBytes g) = c then (.valid, some g) else (.invalid, none))) ∧
    ImageStatus.fault .blank = some .blank ∧ ImageStatus.fault .invalid = some .check

/-- SET_ACTIVE switches to a station that is UP, and RESYNC sends a station back to JOINING with its sounding notes
marked (R77; R100; R168; R171; R174; R175; R176; R178). -/
def Obligations.ActiveAndResyncRequestsAct : Prop :=
  ∀ (s : State) (l : Link) (x : Station),
    (s.takes l .setActive [byte (Station.code x)] = true →
      ((s.station x).state = .up → s.sw.active = some x →
        exec (.setActive l [byte (Station.code x)]) s = .next (s.answered l .setActive .already [])) ∧
      ((s.station x).state = .up → s.sw.active ≠ some x →
        exec (.setActive l [byte (Station.code x)]) s = .next
          (State.broadcast { s.answered l .setActive .done [] with
              sw := { s.sw with active := some x, audioHigh := decide (x = .b) } } Mask.active
            (.active (some x) .request (s.station .a).state (s.station .b).state))) ∧
      ((s.station x).state ≠ .up →
        exec (.setActive l [byte (Station.code x)]) s = .next (s.answered l .setActive .state []))) ∧
    (s.takes l .resync [byte (Station.code x)] = true →
      ((s.station x).state ≠ .up → (s.station x).state ≠ .suspect →
        exec (.resync l [byte (Station.code x)]) s = .next (s.answered l .resync .state [])) ∧
      ((s.station x).state = .up ∨ (s.station x).state = .suspect → s.lr.lock ≠ some x.link → s.sw.active ≠ some x →
        let u : State := (s.answered l .resync .done []).setStation x
          { s.station x with state := .joining, phase := .clearing }
        exec (.resync l [byte (Station.code x)]) s = .next (State.report (State.clears { u with
          lr := { s.lr with held := s.lr.held.map (fun e =>
            if e.targets.any (fun t => decide (t.dest = .sound)) then { e with pend := e.pend.set x true } else e) } } x)
          .requested (some (.link x.link)))) ∧
      ((s.station x).state = .up ∨ (s.station x).state = .suspect →
        let r : State := s.answered l .resync .done []
        let u : State := (State.marked (r.setStation x { s.station x with state := .joining, phase := .clearing }) x).clears x
        exec (.resync l [byte (Station.code x)]) s = .next ((u.offAir x true).report .requested (some (.link x.link))))) ∧
    (∀ b : Byte, 2 ≤ b.toNat →
      (s.takes l .setActive [b] = true → exec (.setActive l [b]) s = .next (s.answered l .setActive .range [0, 0, 255])) ∧
      (s.takes l .resync [b] = true → exec (.resync l [b]) s = .next (s.answered l .resync .range [0, 0, 255])))

/-- PANIC flushes every live output to sixteen all-notes-offs, empties the held-note table, and lifts every pedal
(R57; R101; R117; R154; R168; R170; R179). -/
def Obligations.PanicSilencesEverything : Prop :=
  ∀ (s : State) (l : Link), s.takes l .panic [] = true →
    let u : State := s.answered l .panic .done []
    let hears : Station → Bool := fun x =>
      decide ((s.station x).state = .up ∨ (s.station x).state = .suspect ∨ (s.station x).state = .joining)
    let flush : MidiOut → MidiOut := fun x =>
      if x.mode = .disabled then x
      else MidiOut.kick { x with
        queue := (List.range 16).map (fun c => ⟨.control (Fin.ofNat 16 c) 123 0, false⟩)
        sounding := 0 } s.now
    let told : State → Station → State := fun v x =>
      if hears x ∧ (s.link x.link).high = true then v.post x.link (.notice .allOff) else v
    let offered : State → Station → State := fun v x =>
      let state : StationState := (v.station x).state
      if (v.link x.link).high = true ∧ (state = .up ∨ state = .suspect ∨ state = .joining) then
        if 16 ≤ (v.link x.link).free then v.post x.link (.notice .allOff)
        else
          let w : State := v.report .noticeDrop (some (.link x.link))
          if state = .joining ∧ (v.station x).phase ≠ .replaying then w
          else (w.moved x .joining).report .overflow (some (.link x.link))
      else v
    let full : Station → Prop := fun x =>
      hears x = true ∧ (s.link x.link).high = true ∧ (u.link x.link).free < 16
    let v : State := { u with op := ⟨flush s.op.out0, flush s.op.out1, flush s.op.out2, flush s.op.out3⟩ }
    let ends : State → State := fun w =>
      { w with lr := { w.lr with held := [], slots := [] }, ip := s.ip.map (fun x => { x with sustain := 0#16 }) }
    ((∀ x : Station, hears x = true → (s.link x.link).high = true → 16 ≤ (u.link x.link).free) →
      exec (.panic l []) s = .next { told (told u .a) .b with
        op := ⟨flush s.op.out0, flush s.op.out1, flush s.op.out2, flush s.op.out3⟩
        lr := { s.lr with held := [], slots := [] }
        ip := s.ip.map (fun x => { x with sustain := 0#16 }) }) ∧
    ((∃ x, full x) → exec (.panic l []) s = .next (ends
      (if Config.aFirst s.choices then offered (offered v.choose .a) .b else offered (offered v.choose .b) .a)))

/-- A notice joins each connected, subscribed link with 16 free places; a report is ignored, merged or appended by
its mode (R154; R155; R184; R185; R186). -/
def Obligations.NoticesAndReportsReachTheirPlaces : Prop :=
  (∀ (s : State) (g : Mask → Bool) (n : Notice) (l : Link),
    let want : LinkState := if g (s.link l).mask ∧ (s.link l).high = true ∧ 16 ≤ (s.link l).free then
      (s.link l).admitTelegram s.now (.notice n) else s.link l
    (s.broadcastQuiet g n).link l = want ∧
    (s.fl.modes.frame ≠ .alert → (s.broadcast g n).link l = want)) ∧
  (∀ (s : State) (g : Mask → Bool) (n : Notice),
    let room : State → Link → Bool := fun v l => decide (16 ≤ (v.link l).free)
    let dropped : State → Link → State := fun v l => v.report .noticeDrop (some (.link l))
    let taken : State → Link → State := fun v l => v.setLink l ((v.link l).admitTelegram v.now (.notice n))
    s.broadcast g n = [Link.s0, .s1, .s2, .s3].foldl (fun v l =>
      if g (v.link l).mask = true ∧ (v.link l).high = true then
        if room v l = true then taken v l else dropped v l
      else v) s ∧
    s.broadcastQuiet g n = [Link.s0, .s1, .s2, .s3].foldl (fun v l =>
      if g (v.link l).mask = true ∧ (v.link l).high = true ∧ room v l = true then taken v l else v) s) ∧
  (∀ (s : State) (k : FaultKind) (p : Option FaultPort),
    let pos : Option BarBeat := if s.te.transport = .stopped then none else some ⟨s.te.pos.bar, s.te.pos.beat⟩
    let time : Nat := s.micros / 1000 % 4294967296
    let fresh : FaultRecord :=
      { number := s.fl.counter, kind := k, port := p, pos := pos, time := time, repeats := 1, acked := false }
    let merged : Option (List FaultRecord) := s.fl.records.getLast?.bind (fun r =>
      if r.kind = k ∧ r.port = p then
        some (s.fl.records.dropLast ++ [{ r with repeats := min 255 (r.repeats + 1), time := time, pos := pos, acked := false }])
      else none)
    let records : List FaultRecord := merged.getD (s.fl.records.drop (s.fl.records.length - 31) ++ [fresh])
    let fl : FaultLog := { s.fl with
      records := records
      counter := if merged.isSome then s.fl.counter else (s.fl.counter + 1) % 65536
      alert := records.any (fun r => !r.acked && decide (s.fl.modes.get r.kind.cls = .alert)) }
    s.fl.records.length ≤ 32 →
    (s.fl.modes.get k.cls = .ignore → s.report k p = s) ∧
    (s.fl.modes.get k.cls = .log → s.report k p = { s with fl := fl }) ∧
    (s.fl.modes.get k.cls = .alert → ∀ r, records.getLast? = some r →
      s.report k p = State.broadcastQuiet { s with fl := fl } Mask.fault (.fault r)))

/-- HOLD pauses its link, RESUME and the expiry end the pause, and the oldest telegram goes out when the line is free
(R153; R156; R157; R158). -/
def Obligations.HoldsPauseAndTelegramsFollow : Prop :=
  ∀ (s : State) (l : Link),
    let start : LinkState → LinkState := fun x =>
      match x.queue with
      | t :: rest =>
        if x.high = true ∧ x.hold = none ∧ x.tx = none then
          { x with queue := rest, tx := some { telegram := t, left := t.bytes, byteEnds := s.now + 10#32 } }
        else x
      | [] => x
    let quiet : LinkState := { s.link l with collecting := false, collected := [], gap := none }
    ((s.link l).high = true →
      (∀ ms : Nat, 1 ≤ ms → ms < 65536 → exec (.hold l (be16 ms)) s = .next
        (s.setLink l { quiet with hold := some (s.now + BitVec.ofNat 32 (1000 * min 1000 ms)) })) ∧
      exec (.hold l [0, 0]) s = .next (s.setLink l (start { quiet with hold := none })) ∧
      exec (.resume l []) s = .next (s.setLink l (start { quiet with hold := none }))) ∧
    ((s.link l).hold ≠ none → exec (.holdExpiry l) s = .next (s.setLink l (start { s.link l with hold := none }))) ∧
    ((s.link l).hold = none → exec (.holdExpiry l) s = .next s) ∧
    ((s.link l).tx ≠ none → exec (.telegramSent l) s = .next (s.setLink l (start { s.link l with tx := none }))) ∧
    ((s.link l).tx = none → exec (.telegramSent l) s = .next s)

/-- A receiver hunts for 9Ch, collects, and logs what it must discard; a telegram of a wrong class or report goes to
the log (R145; R146; R147; R148; R153). -/
def Obligations.ReceiverTakesTelegramsAndDiscards : Prop :=
  ∀ (s : State) (l : Link),
    let x : LinkState := s.link l
    let hunt : LinkState → LinkState := fun y => { y with collecting := false, collected := [], gap := none }
    let gap : Option Stamp := some (s.now + 2000#32)
    let logged : FaultKind → State := fun k => (s.setLink l (hunt x)).report k (some (.link l))
    (x.high = false →
      (∀ b, exec (.linkByte l b) s = .next s) ∧ (∀ e, exec (.telegramDiscard l e) s = .next s) ∧
      (∀ k p, exec (.badClassTelegram l k p) s = .next s) ∧ (∀ c p, exec (.badReport l c p) s = .next s) ∧
      (∀ c p, exec (.reportDenied l c p) s = .next s)) ∧
    (x.high = true → x.rescan = [] →
      (x.collecting = false →
        exec (.linkByte l 0x9C#8) s = .next (s.setLink l { x with collecting := true, collected := [], gap := gap }) ∧
        (∀ b : Byte, b ≠ 0x9C#8 → exec (.linkByte l b) s = .next s) ∧
        exec (.telegramDiscard l .badStop) s = .next s) ∧
      (x.collecting = true → ∀ b : Byte, byteAt (x.collected ++ [b]) 0 ≤ 240 →
        x.collected.length + 1 < byteAt (x.collected ++ [b]) 0 + 3 →
        exec (.linkByte l b) s = .next (s.setLink l { x with collected := x.collected ++ [b], gap := gap })) ∧
      (x.collecting = true → x.collected = [] →
        (∀ b : Byte, 240 < b.toNat → ∃ t, exec (.telegramDiscard l (.byte b)) s = .next t ∧
          (t.link l).collecting = false ∧ (t.link l).collected = [] ∧ (t.link l).gap = none ∧ (t.link l).rescan = [] ∧
          (s.report .length (some (.link l))).fl = t.fl) ∧
        exec (.telegramDiscard l .badStop) s = .next ((s.report .line (some (.link l))).setLink l
          (hunt ((s.report .line (some (.link l))).link l))) ∧
        (x.gap.isSome → exec (.gapDeadline l) s = .next ((s.report .gap (some (.link l))).setLink l
          (hunt ((s.report .gap (some (.link l))).link l)))))) ∧
    (x.high = true → x.rescan = [] → x.collecting = true →
      let discarded : FaultKind → State := fun k =>
        (s.report k (some (.link l))).setLink l (hunt ((s.report k (some (.link l))).link l))
      let taken : List Byte → State → State → Prop := fun bs u t => runs (bs.map (Instr.linkByte l)) u t
      (∀ b : Byte,
        let c : List Byte := x.collected ++ [b]
        exec (.telegramDiscard l (.byte b)) s = exec (.linkByte l b) s ∧
        (byteAt c 0 ≤ 240 → c.length = byteAt c 0 + 3 → crc8 (x.collected) ≠ b →
          ∃ t, exec (.linkByte l b) s = .next t ∧ taken c (discarded .badCheck) t) ∧
        (240 < byteAt c 0 → ∃ t, exec (.linkByte l b) s = .next t ∧ taken c (discarded .length) t) ∧
        (byteAt c 0 ≤ 240 → c.length = byteAt c 0 + 3 → crc8 (x.collected) = b →
          exec (.linkByte l b) s = .next ((s.setLink l (hunt x)).takeTelegram l (c.getD 1 0) (x.collected.drop 2)))) ∧
      (∃ t, exec (.telegramDiscard l .badStop) s = .next t ∧ taken x.collected (discarded .line) t) ∧
      (x.gap.isSome → ∃ t, exec (.gapDeadline l) s = .next t ∧ taken x.collected (discarded .gap) t)) ∧
    (x.collecting = false → exec (.gapDeadline l) s = .next s) ∧
    (x.high = true →
      (∀ (k : Byte) (p : List Byte), 128 ≤ k.toNat → exec (.badClassTelegram l k p) s = .next (logged .badClass)) ∧
      (∀ (c : Fin 64) (p : List Byte), c.val = 0 ∨ 4 < c.val → exec (.badReport l c p) s = .next (logged .badReport)) ∧
      (∀ (k : RepKind) (p : List Byte), k.allowed (Link.role l) = true → k.fits p = false →
        exec (.badReport l (Fin.ofNat 64 k.code) p) s = .next (logged .badReport)) ∧
      (∀ (k : RepKind) (p : List Byte), k.allowed (Link.role l) = false →
        exec (.reportDenied l (Fin.ofNat 64 k.code) p) s = .next (logged .reportDenied)))

/-- DETECT falling ends a link's session and makes its station ABSENT, and rising opens a fresh one with its station
DOWN (R77; R144; R160; R161; R167; R168; R174). -/
def Obligations.DetectEndsAndOpensSessions : Prop :=
  ∀ s : State,
    let gone : Station → State → StationState → State := fun x u st =>
      { u.setStation x { state := st, miss := 0, awaited := none, echoed := false, phase := .none } with
        lr := { u.lr with held := u.lr.held.map (fun e => { e with pend := e.pend.set x false }) } }
    (∀ l : Link, (s.link l).high = false → exec (.detectFall l) s = .next s) ∧
    (∀ l : Link, (s.link l).high = true → exec (.detectRise l) s = .next s) ∧
    ((s.link .s2).high = true → exec (.detectFall .s2) s = .next (s.setLink .s2 LinkState.reset)) ∧
    ((s.link .s3).high = true →
      exec (.detectFall .s3) s = .next
        (if s.lr.lock = some .s3 then
           State.broadcast { s.setLink .s3 LinkState.reset with lr := { s.lr with lock := none } } Mask.scene
             (.scene .lock s.lr.live.scene none none none s.barBeat)
         else s.setLink .s3 LinkState.reset)) ∧
    (∀ x : Station, (s.link x.link).high = true → s.lr.lock ≠ some x.link → s.sw.active ≠ some x →
      let u : State := gone x (s.setLink x.link LinkState.reset) .absent
      exec (.detectFall x.link) s = .next
        (if (s.station x).state = .down ∨ (s.station x).state = .absent then u
         else u.report .disconnected (some (.link x.link)))) ∧
    (∀ l : Link, l = .s2 ∨ l = .s3 → (s.link l).high = false →
      exec (.detectRise l) s = .next (s.setLink l { s.link l with high := true })) ∧
    (∀ x : Station, (s.link x.link).high = false → (s.station x).state = .absent → s.lr.lock ≠ some x.link →
      exec (.detectRise x.link) s = .next (gone x (s.setLink x.link { s.link x.link with high := true }) .down)) ∧
    (∀ x : Station, (s.link x.link).high = true →
      let u : State := State.unmarked ((s.setLink x.link LinkState.reset).setStation x
        { state := .absent, miss := 0, awaited := none, echoed := false, phase := .none }) x
      let v : State := u.offAir x (decide ((s.station x).state = .up ∨ (s.station x).state = .suspect))
      exec (.detectFall x.link) s = .next
        (if (s.station x).state = .up ∨ (s.station x).state = .suspect ∨ (s.station x).state = .joining then
           v.report .disconnected (some (.link x.link))
         else v))

/-- A pulse deadline counts what was not echoed and moves each station by its count; an echo of the awaited pulse
brings it back (R77; R153; R154; R164; R165; R166; R168; R171; R174; R177). -/
def Obligations.PulsesAndEchoesDriveTheStations : Prop :=
  (∀ s : State, ∃ t, exec .pulseDeadline s = .next t ∧
    t.sw.deadline = s.sw.deadline + 50000#32 ∧ t.sw.pulse = (s.sw.pulse + 1) % 256 ∧ t.sw.limit = s.sw.limit ∧
    ∀ x : Station,
      let r : StationRec := s.station x
      let missed : Bool := r.awaited.isSome && !r.echoed && decide ((s.link x.link).hold = none)
      let miss : Nat := if missed then min 255 (r.miss + 1) else r.miss
      let state : StationState :=
        if missed = false then r.state
        else match r.state with
          | .up => if s.sw.limit ≤ miss then .down else if 2 ≤ miss then .suspect else .up
          | .suspect => if s.sw.limit ≤ miss then .down else .suspect
          | .joining => if s.sw.limit ≤ miss then .down else .joining
          | .down => .down
          | .absent => .absent
      if r.state = .absent then t.station x = r
      else t.station x = {
        state := state
        miss := miss
        awaited := some ((s.sw.pulse + 1) % 256)
        echoed := false
        phase := if state = r.state then r.phase else .none }) ∧
  (∀ s : State,
    let n : Nat := (s.sw.pulse + 1) % 256
    let s1 : State := { s with sw := { s.sw with deadline := s.sw.deadline + 50000#32, pulse := n } }
    let checked : State → Station → State := fun v x =>
      let r : StationRec := v.station x
      if r.awaited = none ∨ r.echoed = true ∨ (v.link x.link).hold ≠ none then v
      else
        let miss : Nat := min 255 (r.miss + 1)
        let m : State := v.setStation x { r with miss := miss }
        if (r.state = .up ∨ r.state = .suspect ∨ r.state = .joining) ∧ s.sw.limit ≤ miss then
          (m.moved x .down).report .lost (some (.link x.link))
        else if r.state = .up ∧ 2 ≤ miss then (m.moved x .suspect).report .suspect (some (.link x.link))
        else m
    let pulsed : State → Station → State := fun v x =>
      if (v.link x.link).high = false then v
      else if 16 ≤ (v.link x.link).free then v.post x.link (.notice (.pulse n))
      else v.report .noticeDrop (some (.link x.link))
    let share : State → Station → State := fun v x =>
      if (v.station x).state = .absent then v
      else
        let p : State := pulsed (checked v x) x
        p.setStation x { p.station x with awaited := some n, echoed := false }
    exec .pulseDeadline s = .next (share (share s1 .a) .b) ∨
      exec .pulseDeadline s = .next
        (if Config.aFirst s.choices then share (share s1.choose .a) .b else share (share s1.choose .b) .a)) ∧
  (∀ (s : State) (x : Station) (n : Nat), n < 256 → (s.link x.link).high = true →
    let l : Link := x.link
    let u : State := s.setLink l { s.link l with collecting := false, collected := [], gap := none }
    let r : StationRec := { s.station x with echoed := true, miss := 0 }
    ((s.station x).awaited ≠ some n → exec (.echo l [byte n]) s = .next u) ∧
    ((s.station x).awaited = some n →
      ((s.station x).state = .up ∨ (s.station x).state = .joining ∨ (s.station x).state = .absent →
        exec (.echo l [byte n]) s = .next (u.setStation x r)) ∧
      (∀ y, (s.station x).state = .suspect → s.sw.active = some y → y = x ∨ (s.station y).state.onAir = true →
        exec (.echo l [byte n]) s = .next (u.setStation x { r with state := .up, phase := .none })) ∧
      ((s.station x).state = .down → s.lr.lock ≠ some l →
        exec (.echo l [byte n]) s = .next (State.clears { u.setStation x { r with state := .joining, phase := .clearing } with
          lr := { s.lr with held := s.lr.held.map (fun e =>
            if e.targets.any (fun t => decide (t.dest = .sound)) then { e with pend := e.pend.set x true } else e) } } x)) ∧
      ((s.station x).state = .suspect → exec (.echo l [byte n]) s = .next
        ((u.setStation x { r with state := .up, phase := .none }).joinsAir x)) ∧
      ((s.station x).state = .down → exec (.echo l [byte n]) s = .next
        (((State.marked (u.setStation x { r with state := .joining, phase := .clearing }) x).clears x).offAir x false))))

/-- A refused EVENT sends its station to resync: ALL_OFF, then each pending entry's note-ons when there is room, then
JOINED, and UP (R154; R169; R170; R171; R172; R173; R174). -/
def Obligations.ResyncGivesBackTheHeldNotes : Prop :=
  ∀ (s : State) (x : Station),
    let r : StationRec := s.station x
    let k : LinkState := s.link x.link
    let room : Bool := k.high && decide (16 ≤ k.free)
    exec (.resyncAllOff x) s = .next
      (if r.state = .joining ∧ r.phase = .clearing ∧ room = true then
         (s.post x.link (.notice .allOff)).setStation x { r with phase := .replaying }
       else s) ∧
    (r.state = .joining → r.phase = .replaying →
      ∀ (before : List HeldEntry) (e : HeldEntry) (after : List HeldEntry), s.lr.held = before ++ e :: after →
        (∀ d ∈ before, d.pend.get x = false) → e.pend.get x = true →
        let notes : List Target := e.targets.filter (fun t => decide (t.dest = .sound))
        let ready : Bool := notes.isEmpty || (k.high && decide (k.hold = none) && decide (15 + notes.length ≤ k.free))
        (ready = false → exec (.resyncReplay x) s = .next s) ∧
        (ready = true → ∃ t, exec (.resyncReplay x) s = .next t ∧
          NoticesOnly { s with lr := { s.lr with held := before ++ { e with pend := e.pend.set x false } :: after } } t ∧
          (t.link x.link).line = (s.link x.link).line ++ notes.map (fun t =>
            .notice (.event { replay := true, chan := t.chan, kind := .noteOn t.key t.vel })) ∧
          (∀ j, j ≠ x.link → t.link j = s.link j) ∧ t.fl = s.fl)) ∧
    (r.state ≠ .joining ∨ r.phase ≠ .replaying →
      exec (.resyncReplay x) s = .next s ∧ exec (.resyncJoined x) s = .next s) ∧
    ((∀ e ∈ s.lr.held, e.pend.get x = false) → exec (.resyncReplay x) s = .next s) ∧
    (r.state = .joining → r.phase = .replaying →
      ((∃ e ∈ s.lr.held, e.pend.get x = true) ∨ room = false → exec (.resyncJoined x) s = .next s) ∧
      (∀ y, (∀ e ∈ s.lr.held, e.pend.get x = false) → room = true → s.sw.active = some y →
        y = x ∨ (s.station y).state.onAir = true →
        exec (.resyncJoined x) s = .next
          ((s.post x.link (.notice .joined)).setStation x { r with state := .up, phase := .none })) ∧
      ((∀ e ∈ s.lr.held, e.pend.get x = false) → room = true → s.sw.active = none →
        let u : State := (s.post x.link (.notice .joined)).setStation x { r with state := .up, phase := .none }
        let v : State := { u with sw := { u.sw with active := some x, audioHigh := decide (x = .b) } }
        exec (.resyncJoined x) s = .next
          (v.broadcast Mask.active (.active (some x) .first (u.station .a).state (u.station .b).state))) ∧
      ((∀ e ∈ s.lr.held, e.pend.get x = false) → room = true →
        exec (.resyncJoined x) s = .next
          (((s.post x.link (.notice .joined)).setStation x { r with state := .up, phase := .none }).joinsAir x))) ∧
    (∀ (want pend : PerStation Bool) (e : Event),
      let refuses : State → Station → Bool := fun v y =>
        (v.link y.link).high && (decide ((v.station y).phase = .clearing) || decide ((v.link y.link).free < 16))
      let taken : State → Station → State := fun v y =>
        if want.get y = true ∧ (v.link y.link).high = true then v.post y.link (.notice (.event e)) else v
      let offered : State → Station → State × Bool := fun v y =>
        if want.get y = false then (v, false)
        else if refuses v y = true then
          (if (v.station y).state = .up ∨ (v.station y).state = .suspect
              ∨ ((v.station y).state = .joining ∧ (v.station y).phase = .replaying) then
            (v.moved y .joining).report .overflow (some (.link y.link))
           else v, true)
        else (taken v y, false)
      let hears : Station → Bool := fun y =>
        decide ((s.station y).state = .up ∨ (s.station y).state = .suspect ∨ (s.station y).state = .joining)
      ((∀ y, want.get y = true → refuses s y = false) → s.mirror want e = (taken (taken s .a) .b, ⟨false, false⟩)) ∧
      (∀ y, want.get y = true → refuses s y = true → s.mirror want e =
        (if Config.aFirst s.choices then
          ((offered (offered s.choose .a).1 .b).1, ⟨(offered s.choose .a).2, (offered (offered s.choose .a).1 .b).2⟩)
         else ((offered (offered s.choose .b).1 .a).1, ⟨(offered (offered s.choose .b).1 .a).2, (offered s.choose .b).2⟩))) ∧
      s.mirrorLive e = s.mirror ⟨hears .a, hears .b⟩ e ∧
      s.mirrorOff pend e = (s.mirror ⟨hears .a && !pend.a, hears .b && !pend.b⟩ e).1)

/-- A note-on ends the key's old note, picks up to four targets, steals when full, offers each, and holds what was
admitted (R45; R52; R81; R82; R83; R84; R87; R88; R89; R90; R169; R170). -/
def Obligations.NoteOnSoundsItsTargets : Prop :=
  ∀ (s : State) (i : InPort) (c : Chan) (key vel : Val7), 1 ≤ vel.val →
    let u : State := s.messageSeen i (byte (0x90 + c.val))
    let live : Prop := s.ready = true ∧ (s.midiIn i).settings.enabled = true
    (¬live → exec (.noteOn i c key vel) s = .next s) ∧
    (live → (∃ d, (s.midiIn i).settings.filter = some d ∧ d ≠ c) → exec (.noteOn i c key vel) s = .next u) ∧
    (live → (∀ d, (s.midiIn i).settings.filter = some d → d = c) →
      (∀ e ∈ s.lr.held, ¬(e.input = i ∧ e.chan = c ∧ e.key = key.val)) → s.lr.held.length < 128 →
      ∀ y : Layer, s.lr.live.layers = [y] →
        let out : Int := (key.val : Int) + y.transpose
        let takes : Prop := y.input = i ∧ (∀ d, y.chan = some d → d = c) ∧ y.zoneLow ≤ key.val ∧ key.val ≤ y.zoneHigh ∧
          y.vmin ≤ vel.val ∧ vel.val ≤ y.vmax ∧ 0 ≤ out ∧ out ≤ 127
        let t : Target :=
          { dest := y.dest, chan := y.outChan, key := out.toNat, vel := y.velocity vel.val, sustain := y.sustain }
        let entry : HeldEntry :=
          { input := i, chan := c, key := key.val, state := .held, targets := [t], pend := ⟨false, false⟩ }
        (¬takes → exec (.noteOn i c key vel) s = .next u) ∧
        (takes → ∀ o, y.dest = .out o →
          let x : MidiOut := s.midiOut o
          (x.mode ≠ .enabled → exec (.noteOn i c key vel) s = .next u) ∧
          (x.mode = .enabled → 64 ≤ x.sounding →
            exec (.noteOn i c key vel) s = .next (u.report .voiceCap (some (.output o)))) ∧
          (x.mode = .enabled → x.sounding < 64 → 64 ≤ x.queue.length →
            exec (.noteOn i c key vel) s = .next (u.report .full (some (.output o)))) ∧
          (x.mode = .enabled → x.sounding < 64 → x.queue.length < 64 →
            exec (.noteOn i c key vel) s = .next
              { u.setOut o (MidiOut.kick { x with
                  sounding := x.sounding + 1
                  queue := x.queue ++ [⟨.noteOn t.chan t.key t.vel, false⟩] } s.now) with
                lr := { s.lr with held := s.lr.held ++ [entry] } })) ∧
        (takes → y.dest = .sound → (∀ z, (s.station z).state = .down ∨ (s.station z).state = .absent) →
          exec (.noteOn i c key vel) s = .next { u with lr := { s.lr with held := s.lr.held ++ [entry] } })) ∧
    (live → (∀ d, (s.midiIn i).settings.filter = some d → d = c) →
      let out : Layer → Int := fun y => (key.val : Int) + y.transpose
      let takes : Layer → Bool := fun y => decide (y.input = i ∧ (y.chan = none ∨ y.chan = some c) ∧ y.zoneLow ≤ key.val ∧
        key.val ≤ y.zoneHigh ∧ y.vmin ≤ vel.val ∧ vel.val ≤ y.vmax ∧ 0 ≤ out y ∧ out y ≤ 127)
      let target : Layer → Target := fun y =>
        { dest := y.dest, chan := y.outChan, key := (out y).toNat, vel := y.velocity vel.val, sustain := y.sustain }
      let same : Target → Target → Bool := fun t r => decide (t.dest = r.dest ∧ t.chan = r.chan ∧ t.key = r.key)
      let candidates : List Target := s.lr.live.layers.foldl (fun acc y =>
        if takes y = true ∧ acc.length < 4 ∧ acc.any (same (target y)) = false then acc ++ [target y] else acc) []
      let released : State → HeldEntry → State := fun w e =>
        e.targets.foldl (fun v t => v.releaseTarget e.pend 64 t) { w with lr := { w.lr with held := w.lr.held.erase e } }
      let cleared : State := match s.lr.held.find? (fun e => decide (e.input = i ∧ e.chan = c ∧ e.key = key.val)) with
        | some e => released u e
        | none => u
      let held : List HeldEntry := cleared.lr.held
      let ready : State :=
        if held.length < 128 then cleared
        else match held.find? (fun e => decide (e.state ≠ .held)) with
          | some e => (released cleared e).report .stealSustained (some (.input e.input))
          | none => match held.head? with
            | some e => (released cleared e).report .stealHeld (some (.input e.input))
            | none => cleared
      let offered : State × List Target × PerStation Bool → Target → State × List Target × PerStation Bool := fun a t =>
        match t.dest with
        | .out o =>
          let x : MidiOut := a.1.midiOut o
          if x.mode ≠ .enabled then a
          else if 64 ≤ x.sounding then (a.1.report .voiceCap (some (.output o)), a.2)
          else if 64 ≤ x.queue.length then (a.1.report .full (some (.output o)), a.2)
          else
            (a.1.setOut o (MidiOut.kick { x with
              sounding := x.sounding + 1
              queue := x.queue ++ [⟨.noteOn t.chan t.key t.vel, false⟩] } a.1.now), a.2.1 ++ [t], a.2.2)
        | .sound =>
          let r := a.1.mirrorLive { replay := false, chan := t.chan, kind := .noteOn t.key t.vel }
          (r.1, a.2.1 ++ [t], ⟨a.2.2.a || r.2.a, a.2.2.b || r.2.b⟩)
      let r := candidates.foldl offered (ready, [], ⟨false, false⟩)
      exec (.noteOn i c key vel) s = .next
        (if candidates = [] then cleared
         else if r.2.1 = [] then r.1
         else { r.1 with lr := { r.1.lr with held := r.1.lr.held ++
           [{ input := i, chan := c, key := key.val, state := .held, targets := r.2.1, pend := r.2.2 }] } }))

/-- A note-off, a pedal up, an all-notes-off or a second note-on releases held entries, each target with one note-off
(R46; R47; R81; R91; R92; R93; R94; R95; R96; R169). -/
def Obligations.ReleasesEndTheirNotes : Prop :=
  ∀ (s : State) (i : InPort) (c : Chan) (key : Val7),
    let seen : Nat → State := fun n => s.messageSeen i (byte (n + c.val))
    (s.ready = false ∨ (s.midiIn i).settings.enabled = false →
      (∀ rel : Val7, exec (.noteOff i c key rel) s = .next s) ∧ (∀ v : Val7, exec (.sustainChange i c v) s = .next s) ∧
      (∀ v : Val7, exec (.allNotesOff i c v) s = .next s)) ∧
    (∀ d, s.ready = true → (s.midiIn i).settings.enabled = true → (s.midiIn i).settings.filter = some d → d ≠ c →
      (∀ rel : Val7, exec (.noteOff i c key rel) s = .next (seen 0x80)) ∧
      (∀ v : Val7, exec (.sustainChange i c v) s = .next (seen 0xB0)) ∧
      (∀ v : Val7, exec (.allNotesOff i c v) s = .next (seen 0xB0))) ∧
    (s.ready = true → (s.midiIn i).settings.enabled = true → (∀ d, (s.midiIn i).settings.filter = some d → d = c) →
    let pedal : Bool := (s.midiIn i).sustain.getLsbD c.val
    let off : State → OutPort → Target → Nat → State := fun u o t rel => u.setOut o (MidiOut.kick { u.midiOut o with
      sounding := (u.midiOut o).sounding - 1
      queue := (u.midiOut o).queue ++ [⟨.noteOff t.chan t.key rel, false⟩] } s.now)
    let keep : State → List HeldEntry → State := fun u h => { u with lr := { s.lr with held := h } }
    (∀ rel : Val7, (∀ e ∈ s.lr.held, ¬(e.input = i ∧ e.chan = c ∧ e.key = key.val)) →
      exec (.noteOff i c key rel) s = .next (seen 0x80)) ∧
    (∀ (before after : List HeldEntry) (e : HeldEntry) (t : Target) (o : OutPort),
      s.lr.held = before ++ e :: after → (∀ d ∈ before, ¬(d.input = i ∧ d.chan = c ∧ d.key = key.val)) →
      e.input = i → e.chan = c → e.key = key.val → e.targets = [t] → t.dest = .out o → (s.midiOut o).mode ≠ .disabled →
      (∀ rel : Val7, e.state = .held → pedal = false ∨ t.sustain = .ignore →
        exec (.noteOff i c key rel) s = .next (off (keep (seen 0x80) (before ++ after)) o t rel.val)) ∧
      (∀ rel : Val7, e.state = .held → pedal = true → t.sustain = .follow → e ∉ after →
        exec (.noteOff i c key rel) s = .next
          (keep (seen 0x80) (before ++ { e with state := .sustained rel.val } :: after))) ∧
      (∀ (rel : Val7) (n : Nat), e.state = .sustained n → exec (.noteOff i c key rel) s = .next (seen 0x80)) ∧
      (∀ vel : Val7, 1 ≤ vel.val → s.lr.live.layers = [] →
        exec (.noteOn i c key vel) s = .next (off (keep (seen 0x90) (before ++ after)) o t 64)) ∧
      (∀ v : Val7, before = [] → after = [] →
        exec (.allNotesOff i c v) s = .next (off (keep (seen 0xB0) []) o t 64)) ∧
      (∀ v : Val7, before = [] → after = [] → v.val < 64 → pedal = true →
        let up : State := (seen 0xB0).setIn i { (seen 0xB0).midiIn i with
          sustain := (s.midiIn i).sustain &&& ~~~(1#16 <<< c.val) }
        exec (.sustainChange i c v) s = .next (match e.state with
          | .sustained n => off (keep up []) o t n
          | .held => up))) ∧
    (∀ v : Val7, 64 ≤ v.val → pedal = false →
      exec (.sustainChange i c v) s = .next ((seen 0xB0).setIn i { (seen 0xB0).midiIn i with
        sustain := (s.midiIn i).sustain ||| (1#16 <<< c.val) })) ∧
    (∀ v : Val7, pedal = decide (64 ≤ v.val) → exec (.sustainChange i c v) s = .next (seen 0xB0)) ∧
    (let ends : PerStation Bool → Nat → State → Target → State := fun pend rel u t =>
      match t.dest with
      | .out o => if (u.midiOut o).mode = .disabled then u
        else u.setOut o (MidiOut.kick { u.midiOut o with
          sounding := (u.midiOut o).sounding - 1
          queue := (u.midiOut o).queue ++ [⟨.noteOff t.chan t.key rel, false⟩] } u.now)
      | .sound => u.mirrorOff pend { replay := false, chan := t.chan, kind := .noteOff t.key rel }
    let table : State → List HeldEntry → State := fun u h => { u with lr := { u.lr with held := h } }
    let removed : State → HeldEntry → Nat → State := fun u e rel =>
      e.targets.foldl (ends e.pend rel) (table u (u.lr.held.erase e))
    (∀ (u : State) (p : HeldEntry → Bool) (rel : HeldEntry → Nat),
      (u.lr.held.find? p = none → u.releaseAll p rel = u) ∧
      (∀ e, u.lr.held.find? p = some e → u.releaseAll p rel = (removed u e (rel e)).releaseAll p rel)) ∧
    (∀ (e : HeldEntry) (rel : Val7),
      s.lr.held.find? (fun d => decide (d.input = i ∧ d.chan = c ∧ d.key = key.val)) = some e → e.state = .held →
      (pedal = false → exec (.noteOff i c key rel) s = .next (removed (seen 0x80) e rel.val)) ∧
      (pedal = true →
        let stay : List Target := e.targets.filter (fun t => decide (t.sustain = .follow))
        let go : List Target := e.targets.filter (fun t => decide (t.sustain = .ignore))
        exec (.noteOff i c key rel) s = .next (go.foldl (ends e.pend rel.val) (table (seen 0x80)
          (if stay = [] then s.lr.held.erase e
           else s.lr.held.map (fun d => if d = e then { e with state := .sustained rel.val, targets := stay } else d)))))) ∧
    (∀ (e : HeldEntry) (rel : Val7) (n : Nat),
      s.lr.held.find? (fun d => decide (d.input = i ∧ d.chan = c ∧ d.key = key.val)) = some e → e.state = .sustained n →
      exec (.noteOff i c key rel) s = .next (seen 0x80)) ∧
    (∀ v : Val7, exec (.allNotesOff i c v) s = .next
      ((seen 0xB0).releaseAll (fun e => decide (e.input = i ∧ e.chan = c)) (fun _ => 64))) ∧
    (∀ v : Val7, v.val < 64 → pedal = true → exec (.sustainChange i c v) s = .next
      (((seen 0xB0).setIn i { (seen 0xB0).midiIn i with sustain := (s.midiIn i).sustain &&& ~~~(1#16 <<< c.val) }).releaseAll
        (fun e => decide (e.input = i ∧ e.chan = c ∧ e.state ≠ .held))
        (fun e => match e.state with
          | .sustained n => n
          | .held => 64)))))

/-- Sensing, framing errors, system messages, discarded messages and a lost input: what each changes (R40; R41; R42;
R43; R44; R45; R48; R91; R97; R117). -/
def Obligations.InputBytesBesidesNotes : Prop :=
  ∀ (s : State) (i : InPort),
    let x : MidiIn := s.midiIn i
    let seen : MidiIn := match x.sensing with
      | .watched => { x with deadline := some (s.now + 300000#32) }
      | .lost => { x with sensing := .unwatched }
      | .unwatched => x
    let clear : MidiIn → MidiIn := fun y => { y with running := none, collected := none, skip := .none }
    (s.ready = true ∧ x.settings.enabled = true →
      exec (.activeSensing i) s = .next (s.setIn i { x with sensing := .watched, deadline := some (s.now + 300000#32) }) ∧
      (∀ b, exec (.realTimeDiscard i b) s = .next (s.setIn i seen)) ∧
      (∀ d, exec (.systemExclusive i d) s = .next (s.setIn i (clear seen))) ∧
      (∀ m, exec (.systemCommon i m) s = .next (s.setIn i (clear seen))) ∧
      exec (.inputFramingError i) s = .next ((s.setIn i (clear seen)).report .framing (some (.input i))) ∧
      (∀ c m, (∃ k v, m = .polyPressure k v) ∨ (∃ n v, m = .control n v ∧ 120 ≤ n.val ∧ n.val ≠ 123) ∨
          (∃ d, x.settings.filter = some d ∧ d ≠ c) →
        exec (.channelMessageDiscard i c m) s = .next
          (s.setIn i { seen with running := some (chanStatus c m), collected := none, skip := .none })) ∧
      (∀ b : Byte, b.toNat < 0x80 → x.running = none → x.collected = none → x.skip = .none →
        exec (.partialMessageByte i b) s = .next (s.setIn i seen)) ∧
      (∀ b : Byte, 0x80 ≤ b.toNat → b.toNat < 0xF0 → exec (.partialMessageByte i b) s = .next
        (s.setIn i { seen with running := some b, collected := some ⟨b, []⟩, skip := .none }))) ∧
    (s.ready = false ∨ x.settings.enabled = false →
      exec (.activeSensing i) s = .next s ∧ (∀ b, exec (.realTimeDiscard i b) s = .next s) ∧
      (∀ d, exec (.systemExclusive i d) s = .next s) ∧ (∀ m, exec (.systemCommon i m) s = .next s) ∧
      exec (.inputFramingError i) s = .next s ∧ (∀ c m, exec (.channelMessageDiscard i c m) s = .next s) ∧
      (∀ b, exec (.partialMessageByte i b) s = .next s)) ∧
    (x.sensing ≠ .watched → exec (.sensingDeadline i) s = .next s) ∧
    (x.sensing = .watched → (∀ e ∈ s.lr.held, e.input ≠ i) →
      exec (.sensingDeadline i) s = .next (State.report
        { s.setIn i { clear x with sensing := .lost, deadline := none, sustain := 0#16 } with
          lr := { s.lr with slots := s.lr.slots.filter (fun q => decide (q.key.input ≠ i)) } }
        .sensingLost (some (.input i)))) ∧
    (x.sensing = .watched →
      let lost : State := s.setIn i { clear x with sensing := .lost, deadline := none, sustain := 0#16 }
      let quiet : State := lost.releaseAll (fun e => decide (e.input = i)) (fun _ => 64)
      exec (.sensingDeadline i) s = .next (State.report
        { quiet with lr := { quiet.lr with slots := quiet.lr.slots.filter (fun q => decide (q.key.input ≠ i)) } }
        .sensingLost (some (.input i)))) ∧
    (∀ (u : State) (p : HeldEntry → Bool) (rel : HeldEntry → Nat),
      (u.lr.held.find? p = none → u.releaseAll p rel = u) ∧
      (∀ e, u.lr.held.find? p = some e → u.releaseAll p rel =
        (e.targets.foldl (fun v t => State.releaseTarget v e.pend (rel e) t)
          { u with lr := { u.lr with held := u.lr.held.erase e } }).releaseAll p rel))

/-- A controller is averaged in its slot and forwarded, made pending or held back; bend and program go straight on
(R45; R105; R106; R107; R108; R109; R110; R111; R112; R113; R114; R115). -/
def Obligations.ControllersFilterAndForward : Prop :=
  ∀ s : State,
    let sends : (Layer → Bool) → (State → Layer → State) → State → State := fun takes give u =>
      (u.lr.live.layers.foldl (fun a y =>
        if takes y = true ∧ (y.dest, y.outChan) ∉ a.2 then (give a.1 y, (y.dest, y.outChan) :: a.2) else a)
        (u, ([] : List (Dest × Chan)))).1
    let hears : InPort → Chan → Layer → Bool := fun i c y => decide (y.input = i ∧ (y.chan = none ∨ y.chan = some c))
    let offer : State → Dest → OutMsg → Chan → EventKind → State := fun u d m c kind =>
      match d with
      | .out o => (u.offerCoalescible o m).1
      | .sound => (u.mirrorLive { replay := false, chan := c, kind := kind }).1
    let send : State → SlotKey → Nat → State := fun u k v =>
      let scaled : Layer → Nat := fun y => (y.lo * (127 - v) + y.hi * v + 63) / 127
      match k.kind with
      | .control n => sends (fun y => hears k.input k.chan y && (if n = 1 then y.pass.modulation
            else if n = 11 then y.pass.expression else y.pass.others))
          (fun w y => offer w y.dest (.control y.outChan n (scaled y)) y.outChan (.control n (scaled y))) u
      | .pressure => sends (fun y => hears k.input k.chan y && y.pass.pressure)
          (fun w y => offer w y.dest (.pressure y.outChan (scaled y)) y.outChan (.pressure (scaled y))) u
    (∀ (i : InPort) (c : Chan) (v : Val7), s.ready = true → (s.midiIn i).settings.enabled = true →
      (∀ d, (s.midiIn i).settings.filter = some d → d = c) →
      let set : InSettings := (s.midiIn i).settings
      let takes : State → SlotKind → State → Prop := fun u kind t =>
        let k : SlotKey := ⟨i, c, kind⟩
        let put : List Slot → Slot → State := fun others q => { u with lr := { s.lr with slots := others ++ [q] } }
        let mean : List Nat → Nat := fun hist =>
          let m : Nat := min set.average hist.length
          ((hist.drop (hist.length - m)).sum + m / 2) / m
        ((∀ q ∈ s.lr.slots, q.key ≠ k) → s.lr.slots.length < 32 →
          t = send (put s.lr.slots { key := k, history := [v.val], latest := mean [v.val], lastFwd := some (mean [v.val]),
                                     lastTime := some s.now, deadline := none }) k (mean [v.val])) ∧
        ((∀ q ∈ s.lr.slots, q.key ≠ k) → 32 ≤ s.lr.slots.length →
          t = send (put s.lr.slots.tail { key := k, history := [v.val], latest := mean [v.val],
                                          lastFwd := some (mean [v.val]), lastTime := some s.now, deadline := none })
            k (mean [v.val])) ∧
        (1 ≤ set.average → mean [v.val] = v.val) ∧
        (∀ before q after, s.lr.slots = before ++ q :: after → q.key = k →
          (∀ d ∈ before ++ after, d.key ≠ k) →
          let hist : List Nat := (q.history ++ [v.val]).drop (q.history.length + 1 - 8)
          let f : Nat := mean hist
          let q1 : Slot := { q with history := hist, latest := f }
          let passes : Prop := ∀ w, q.lastFwd = some w → f = 0 ∨ f = 127 ∨ set.deadband < (f - w) + (w - f)
          let due : Prop := ∀ w, q.lastTime = some w → 1000 * set.interval ≤ (s.now - w).toNat
          (q.deadline.isSome ∨ ¬passes → t = put (before ++ after) q1) ∧
          (q.deadline = none → passes → due →
            t = send (put (before ++ after) { q1 with lastFwd := some f, lastTime := some s.now }) k f) ∧
          (∀ w, q.deadline = none → passes → ¬due → q.lastTime = some w →
            t = put (before ++ after) { q1 with deadline := some (w + BitVec.ofNat 32 (1000 * set.interval)) }))
      (∀ n : Val7, n.val ≠ 64 → n.val < 120 →
        ∃ t, exec (.controlChange i c n v) s = .next t ∧ takes (s.messageSeen i (byte (0xB0 + c.val))) (.control n.val) t) ∧
      (∃ t, exec (.channelPressure i c v) s = .next t ∧ takes (s.messageSeen i (byte (0xD0 + c.val))) .pressure t) ∧
      (∀ a : Val7,
        let bend : Nat := a.val + 128 * v.val
        exec (.pitchBend i c a v) s = .next (sends (fun y => hears i c y && y.pass.bend)
          (fun w y => offer w y.dest (.bend y.outChan bend) y.outChan (.bend bend))
          (s.messageSeen i (byte (0xE0 + c.val))))) ∧
      exec (.programChange i c v) s = .next (sends (hears i c)
        (fun w y => match y.dest with
          | .out o => (w.offerGroup o [.program y.outChan v.val]).1
          | .sound => (w.mirrorLive { replay := false, chan := y.outChan, kind := .program v.val none none }).1)
        (s.messageSeen i (byte (0xC0 + c.val))))) ∧
    (∀ (k : SlotKey), (∀ q ∈ s.lr.slots, q.key ≠ k) →
      exec (.filterExpiry k) s = .next s ∧ exec (.forwardTimeExpiry k) s = .next s) ∧
    (∀ before q after, s.lr.slots = before ++ q :: after → (∀ d ∈ before ++ after, d.key ≠ q.key) →
      let put : Slot → State := fun r => { s with lr := { s.lr with slots := before ++ r :: after } }
      exec (.forwardTimeExpiry q.key) s = .next (put { q with lastTime := none }) ∧
      (q.deadline = none → exec (.filterExpiry q.key) s = .next s) ∧
      (q.deadline.isSome → q.lastFwd = some q.latest →
        exec (.filterExpiry q.key) s = .next (put { q with deadline := none })) ∧
      (q.deadline.isSome → q.lastFwd ≠ some q.latest →
        exec (.filterExpiry q.key) s = .next (send (put { q with
          deadline := none
          lastFwd := some q.latest
          lastTime := some s.now }) q.key q.latest)))

/-- An output admits by kind and room, sends real-time bytes first, then its message, then the oldest, and drains to
DISABLED (R51; R52; R53; R54; R55; R56). -/
def Obligations.OutputsAdmitAndSend : Prop :=
  ∀ (s : State) (o : OutPort),
    let x : MidiOut := s.midiOut o
    let queued : MidiOut → List QMsg → MidiOut := fun y ms => MidiOut.kick { y with queue := y.queue ++ ms } s.now
    (∀ (c : Chan) (k v : Nat), s.offerNoteOff o c k v =
      if x.mode = .disabled then s else s.setOut o (queued { x with sounding := x.sounding - 1 } [⟨.noteOff c k v, false⟩])) ∧
    (∀ (c : Chan) (k v : Nat),
      (x.mode ≠ .enabled → s.offerNoteOn o c k v = (s, .discarded)) ∧
      (x.mode = .enabled → s.offerNoteOn o c k v =
        if 64 ≤ x.sounding then (s.report .voiceCap (some (.output o)), .dropped)
        else if 64 ≤ x.queue.length then (s.report .full (some (.output o)), .dropped)
        else (s.setOut o (queued { x with sounding := x.sounding + 1 } [⟨.noteOn c k v, false⟩]), .admitted))) ∧
    (∀ ms : List OutMsg,
      (x.mode ≠ .enabled → s.offerGroup o ms = (s, .discarded)) ∧
      (x.mode = .enabled → x.queue.length + ms.length ≤ 64 →
        s.offerGroup o ms = (s.setOut o (queued x (ms.map (fun m => ⟨m, false⟩))), .admitted)) ∧
      (x.mode = .enabled → 64 < x.queue.length + ms.length →
        s.offerGroup o ms = (s.report .full (some (.output o)), .dropped))) ∧
    (∀ m : OutMsg,
      (x.mode ≠ .enabled → s.offerCoalescible o m = (s, .discarded)) ∧
      (∀ before q after, x.mode = .enabled → x.queue = before ++ q :: after → q.coal = true → q.msg.sameStream m = true →
        (∀ d ∈ before, ¬(d.coal = true ∧ d.msg.sameStream m = true)) →
        s.offerCoalescible o m = (s.setOut o { x with queue := before ++ ⟨m, true⟩ :: after }, .coalesced)) ∧
      (x.mode = .enabled → (∀ d ∈ x.queue, ¬(d.coal = true ∧ d.msg.sameStream m = true)) →
        s.offerCoalescible o m =
          if x.queue.length < 64 then (s.setOut o (queued x [⟨m, true⟩]), .admitted)
          else (s.report .full (some (.output o)), .dropped))) ∧
    (x.line = none → exec (.outputByteSent o) s = .next s) ∧
    (x.line.isSome →
      let ends : Stamp := s.now + 320#32
      let left : List Byte := match x.tx with
        | some t => t.left
        | none => []
      (∀ b r, x.realTime = b :: r → exec (.outputByteSent o) s = .next (s.setOut o { x with
        realTime := r
        line := some ⟨b, ends⟩
        tx := if left = [] then none else x.tx })) ∧
      (∀ m b r, x.realTime = [] → x.tx = some ⟨m, b :: r⟩ → exec (.outputByteSent o) s = .next (s.setOut o { x with
        tx := some ⟨m, r⟩
        line := some ⟨b, ends⟩ })) ∧
      (∀ q rest, x.realTime = [] → left = [] → x.queue = q :: rest →
        let whole : List Byte := if x.settings.running = true ∧ x.statusMem = some q.msg.status then q.msg.data
          else q.msg.status :: q.msg.data
        exec (.outputByteSent o) s = .next (s.setOut o { x with
          queue := rest
          tx := some ⟨q.msg, whole.tail⟩
          statusMem := some q.msg.status
          line := some ⟨whole.headD 0, ends⟩ })) ∧
      (x.realTime = [] → left = [] → x.queue = [] →
        exec (.outputByteSent o) s = .next (s.setOut o { x with tx := none, line := none }))) ∧
    exec (.outputDisabled o) s = .next
      (if x.mode = .draining ∧ x.sounding = 0 ∧ x.queue = [] ∧ x.tx = none then
         s.setOut o { x with mode := .disabled, realTime := [], line := none }
       else s)
end

