-- ==== Sys2Proof/Laws/State.lean ====
section
/-! SUPPORT. One lemma per field per named update of the state, and the read-after-write lemmas of the per-port
containers: later proofs use these and never unfold a record update. -/

namespace Sys2Proof

@[simp] theorem PerLink.get_set_same {α : Type} (p : PerLink α) (i : Link) (x : α) : (p.set i x).get i = x := by
  cases i <;> rfl

theorem PerLink.get_set_of_ne {α : Type} (p : PerLink α) {i j : Link} (x : α) (h : j ≠ i) :
    (p.set i x).get j = p.get j := by
  cases i <;> cases j <;> first | rfl | exact absurd rfl h

@[simp] theorem PerLink.set_get {α : Type} (p : PerLink α) (i : Link) : p.set i (p.get i) = p := by
  cases i <;> rfl

@[simp] theorem PerLink.set_set {α : Type} (p : PerLink α) (i : Link) (x y : α) : (p.set i x).set i y = p.set i y := by
  cases i <;> rfl

@[simp] theorem PerIn.get_set_same {α : Type} (p : PerIn α) (i : InPort) (x : α) : (p.set i x).get i = x := by
  cases i <;> rfl

theorem PerIn.get_set_of_ne {α : Type} (p : PerIn α) {i j : InPort} (x : α) (h : j ≠ i) :
    (p.set i x).get j = p.get j := by
  cases i <;> cases j <;> first | rfl | exact absurd rfl h

@[simp] theorem PerIn.set_get {α : Type} (p : PerIn α) (i : InPort) : p.set i (p.get i) = p := by
  cases i <;> rfl

@[simp] theorem PerIn.set_set {α : Type} (p : PerIn α) (i : InPort) (x y : α) : (p.set i x).set i y = p.set i y := by
  cases i <;> rfl

@[simp] theorem PerOut.get_set_same {α : Type} (p : PerOut α) (i : OutPort) (x : α) : (p.set i x).get i = x := by
  cases i <;> rfl

theorem PerOut.get_set_of_ne {α : Type} (p : PerOut α) {i j : OutPort} (x : α) (h : j ≠ i) :
    (p.set i x).get j = p.get j := by
  cases i <;> cases j <;> first | rfl | exact absurd rfl h

@[simp] theorem PerOut.set_get {α : Type} (p : PerOut α) (i : OutPort) : p.set i (p.get i) = p := by
  cases i <;> rfl

@[simp] theorem PerOut.set_set {α : Type} (p : PerOut α) (i : OutPort) (x y : α) : (p.set i x).set i y = p.set i y := by
  cases i <;> rfl

@[simp] theorem PerStation.get_set_same {α : Type} (p : PerStation α) (i : Station) (x : α) : (p.set i x).get i = x := by
  cases i <;> rfl

theorem PerStation.get_set_of_ne {α : Type} (p : PerStation α) {i j : Station} (x : α) (h : j ≠ i) :
    (p.set i x).get j = p.get j := by
  cases i <;> cases j <;> first | rfl | exact absurd rfl h

@[simp] theorem PerStation.set_get {α : Type} (p : PerStation α) (i : Station) : p.set i (p.get i) = p := by
  cases i <;> rfl

@[simp] theorem PerStation.set_set {α : Type} (p : PerStation α) (i : Station) (x y : α) : (p.set i x).set i y = p.set i y := by
  cases i <;> rfl

@[simp] theorem PerBus.get_set_same {α : Type} (p : PerBus α) (i : Bus) (x : α) : (p.set i x).get i = x := by
  cases i <;> rfl

theorem PerBus.get_set_of_ne {α : Type} (p : PerBus α) {i j : Bus} (x : α) (h : j ≠ i) :
    (p.set i x).get j = p.get j := by
  cases i <;> cases j <;> first | rfl | exact absurd rfl h

@[simp] theorem PerBus.set_get {α : Type} (p : PerBus α) (i : Bus) : p.set i (p.get i) = p := by
  cases i <;> rfl

@[simp] theorem PerBus.set_set {α : Type} (p : PerBus α) (i : Bus) (x y : α) : (p.set i x).set i y = p.set i y := by
  cases i <;> rfl

@[simp] theorem PerIn.get_map {α β : Type} (f : α → β) (p : PerIn α) (i : InPort) : (p.map f).get i = f (p.get i) := by
  cases i <;> rfl

@[simp] theorem PerOut.get_map {α β : Type} (f : α → β) (p : PerOut α) (i : OutPort) : (p.map f).get i = f (p.get i) := by
  cases i <;> rfl

@[simp] theorem PerBus.get_map {α β : Type} (f : α → β) (p : PerBus α) (i : Bus) : (p.map f).get i = f (p.get i) := by
  cases i <;> rfl

namespace Machine

/-! ### State.setLink -/

@[simp] theorem State.setLink_te (s : State) (l : Link) (x : LinkState) : (s.setLink l x).te = s.te := rfl
@[simp] theorem State.setLink_ck (s : State) (l : Link) (x : LinkState) : (s.setLink l x).ck = s.ck := rfl
@[simp] theorem State.setLink_ip (s : State) (l : Link) (x : LinkState) : (s.setLink l x).ip = s.ip := rfl
@[simp] theorem State.setLink_op (s : State) (l : Link) (x : LinkState) : (s.setLink l x).op = s.op := rfl
@[simp] theorem State.setLink_lr (s : State) (l : Link) (x : LinkState) : (s.setLink l x).lr = s.lr := rfl
@[simp] theorem State.setLink_cs (s : State) (l : Link) (x : LinkState) : (s.setLink l x).cs = s.cs := rfl
@[simp] theorem State.setLink_sw (s : State) (l : Link) (x : LinkState) : (s.setLink l x).sw = s.sw := rfl
@[simp] theorem State.setLink_st (s : State) (l : Link) (x : LinkState) : (s.setLink l x).st = s.st := rfl
@[simp] theorem State.setLink_fl (s : State) (l : Link) (x : LinkState) : (s.setLink l x).fl = s.fl := rfl
@[simp] theorem State.setLink_ready (s : State) (l : Link) (x : LinkState) : (s.setLink l x).ready = s.ready := rfl
@[simp] theorem State.setLink_micros (s : State) (l : Link) (x : LinkState) : (s.setLink l x).micros = s.micros := rfl
@[simp] theorem State.setLink_cause (s : State) (l : Link) (x : LinkState) : (s.setLink l x).cause = s.cause := rfl
@[simp] theorem State.setLink_choices (s : State) (l : Link) (x : LinkState) : (s.setLink l x).choices = s.choices := rfl
@[simp] theorem State.setLink_pending (s : State) (l : Link) (x : LinkState) : (s.setLink l x).pending = s.pending := rfl

/-! ### State.setIn -/

@[simp] theorem State.setIn_te (s : State) (i : InPort) (x : MidiIn) : (s.setIn i x).te = s.te := rfl
@[simp] theorem State.setIn_ck (s : State) (i : InPort) (x : MidiIn) : (s.setIn i x).ck = s.ck := rfl
@[simp] theorem State.setIn_op (s : State) (i : InPort) (x : MidiIn) : (s.setIn i x).op = s.op := rfl
@[simp] theorem State.setIn_lr (s : State) (i : InPort) (x : MidiIn) : (s.setIn i x).lr = s.lr := rfl
@[simp] theorem State.setIn_cs (s : State) (i : InPort) (x : MidiIn) : (s.setIn i x).cs = s.cs := rfl
@[simp] theorem State.setIn_sl (s : State) (i : InPort) (x : MidiIn) : (s.setIn i x).sl = s.sl := rfl
@[simp] theorem State.setIn_sw (s : State) (i : InPort) (x : MidiIn) : (s.setIn i x).sw = s.sw := rfl
@[simp] theorem State.setIn_st (s : State) (i : InPort) (x : MidiIn) : (s.setIn i x).st = s.st := rfl
@[simp] theorem State.setIn_fl (s : State) (i : InPort) (x : MidiIn) : (s.setIn i x).fl = s.fl := rfl
@[simp] theorem State.setIn_ready (s : State) (i : InPort) (x : MidiIn) : (s.setIn i x).ready = s.ready := rfl
@[simp] theorem State.setIn_micros (s : State) (i : InPort) (x : MidiIn) : (s.setIn i x).micros = s.micros := rfl
@[simp] theorem State.setIn_cause (s : State) (i : InPort) (x : MidiIn) : (s.setIn i x).cause = s.cause := rfl
@[simp] theorem State.setIn_choices (s : State) (i : InPort) (x : MidiIn) : (s.setIn i x).choices = s.choices := rfl
@[simp] theorem State.setIn_pending (s : State) (i : InPort) (x : MidiIn) : (s.setIn i x).pending = s.pending := rfl

/-! ### State.setOut -/

@[simp] theorem State.setOut_te (s : State) (o : OutPort) (x : MidiOut) : (s.setOut o x).te = s.te := rfl
@[simp] theorem State.setOut_ck (s : State) (o : OutPort) (x : MidiOut) : (s.setOut o x).ck = s.ck := rfl
@[simp] theorem State.setOut_ip (s : State) (o : OutPort) (x : MidiOut) : (s.setOut o x).ip = s.ip := rfl
@[simp] theorem State.setOut_lr (s : State) (o : OutPort) (x : MidiOut) : (s.setOut o x).lr = s.lr := rfl
@[simp] theorem State.setOut_cs (s : State) (o : OutPort) (x : MidiOut) : (s.setOut o x).cs = s.cs := rfl
@[simp] theorem State.setOut_sl (s : State) (o : OutPort) (x : MidiOut) : (s.setOut o x).sl = s.sl := rfl
@[simp] theorem State.setOut_sw (s : State) (o : OutPort) (x : MidiOut) : (s.setOut o x).sw = s.sw := rfl
@[simp] theorem State.setOut_st (s : State) (o : OutPort) (x : MidiOut) : (s.setOut o x).st = s.st := rfl
@[simp] theorem State.setOut_fl (s : State) (o : OutPort) (x : MidiOut) : (s.setOut o x).fl = s.fl := rfl
@[simp] theorem State.setOut_ready (s : State) (o : OutPort) (x : MidiOut) : (s.setOut o x).ready = s.ready := rfl
@[simp] theorem State.setOut_micros (s : State) (o : OutPort) (x : MidiOut) : (s.setOut o x).micros = s.micros := rfl
@[simp] theorem State.setOut_cause (s : State) (o : OutPort) (x : MidiOut) : (s.setOut o x).cause = s.cause := rfl
@[simp] theorem State.setOut_choices (s : State) (o : OutPort) (x : MidiOut) : (s.setOut o x).choices = s.choices := rfl
@[simp] theorem State.setOut_pending (s : State) (o : OutPort) (x : MidiOut) : (s.setOut o x).pending = s.pending := rfl

/-! ### State.setStation -/

@[simp] theorem State.setStation_te (s : State) (x : Station) (r : StationRec) : (s.setStation x r).te = s.te := rfl
@[simp] theorem State.setStation_ck (s : State) (x : Station) (r : StationRec) : (s.setStation x r).ck = s.ck := rfl
@[simp] theorem State.setStation_ip (s : State) (x : Station) (r : StationRec) : (s.setStation x r).ip = s.ip := rfl
@[simp] theorem State.setStation_op (s : State) (x : Station) (r : StationRec) : (s.setStation x r).op = s.op := rfl
@[simp] theorem State.setStation_lr (s : State) (x : Station) (r : StationRec) : (s.setStation x r).lr = s.lr := rfl
@[simp] theorem State.setStation_cs (s : State) (x : Station) (r : StationRec) : (s.setStation x r).cs = s.cs := rfl
@[simp] theorem State.setStation_sl (s : State) (x : Station) (r : StationRec) : (s.setStation x r).sl = s.sl := rfl
@[simp] theorem State.setStation_st (s : State) (x : Station) (r : StationRec) : (s.setStation x r).st = s.st := rfl
@[simp] theorem State.setStation_fl (s : State) (x : Station) (r : StationRec) : (s.setStation x r).fl = s.fl := rfl
@[simp] theorem State.setStation_ready (s : State) (x : Station) (r : StationRec) : (s.setStation x r).ready = s.ready := rfl
@[simp] theorem State.setStation_micros (s : State) (x : Station) (r : StationRec) : (s.setStation x r).micros = s.micros := rfl
@[simp] theorem State.setStation_cause (s : State) (x : Station) (r : StationRec) : (s.setStation x r).cause = s.cause := rfl
@[simp] theorem State.setStation_choices (s : State) (x : Station) (r : StationRec) : (s.setStation x r).choices = s.choices := rfl
@[simp] theorem State.setStation_pending (s : State) (x : Station) (r : StationRec) : (s.setStation x r).pending = s.pending := rfl

/-! ### State.setBus -/

@[simp] theorem State.setBus_te (s : State) (b : Bus) (x : ClickBus) : (s.setBus b x).te = s.te := rfl
@[simp] theorem State.setBus_ip (s : State) (b : Bus) (x : ClickBus) : (s.setBus b x).ip = s.ip := rfl
@[simp] theorem State.setBus_op (s : State) (b : Bus) (x : ClickBus) : (s.setBus b x).op = s.op := rfl
@[simp] theorem State.setBus_lr (s : State) (b : Bus) (x : ClickBus) : (s.setBus b x).lr = s.lr := rfl
@[simp] theorem State.setBus_cs (s : State) (b : Bus) (x : ClickBus) : (s.setBus b x).cs = s.cs := rfl
@[simp] theorem State.setBus_sl (s : State) (b : Bus) (x : ClickBus) : (s.setBus b x).sl = s.sl := rfl
@[simp] theorem State.setBus_sw (s : State) (b : Bus) (x : ClickBus) : (s.setBus b x).sw = s.sw := rfl
@[simp] theorem State.setBus_st (s : State) (b : Bus) (x : ClickBus) : (s.setBus b x).st = s.st := rfl
@[simp] theorem State.setBus_fl (s : State) (b : Bus) (x : ClickBus) : (s.setBus b x).fl = s.fl := rfl
@[simp] theorem State.setBus_ready (s : State) (b : Bus) (x : ClickBus) : (s.setBus b x).ready = s.ready := rfl
@[simp] theorem State.setBus_micros (s : State) (b : Bus) (x : ClickBus) : (s.setBus b x).micros = s.micros := rfl
@[simp] theorem State.setBus_cause (s : State) (b : Bus) (x : ClickBus) : (s.setBus b x).cause = s.cause := rfl
@[simp] theorem State.setBus_choices (s : State) (b : Bus) (x : ClickBus) : (s.setBus b x).choices = s.choices := rfl
@[simp] theorem State.setBus_pending (s : State) (b : Bus) (x : ClickBus) : (s.setBus b x).pending = s.pending := rfl

/-! ### State.withTe -/

@[simp] theorem State.withTe_ck (s : State) (x : TempoEngine) : (s.withTe x).ck = s.ck := rfl
@[simp] theorem State.withTe_ip (s : State) (x : TempoEngine) : (s.withTe x).ip = s.ip := rfl
@[simp] theorem State.withTe_op (s : State) (x : TempoEngine) : (s.withTe x).op = s.op := rfl
@[simp] theorem State.withTe_lr (s : State) (x : TempoEngine) : (s.withTe x).lr = s.lr := rfl
@[simp] theorem State.withTe_cs (s : State) (x : TempoEngine) : (s.withTe x).cs = s.cs := rfl
@[simp] theorem State.withTe_sl (s : State) (x : TempoEngine) : (s.withTe x).sl = s.sl := rfl
@[simp] theorem State.withTe_sw (s : State) (x : TempoEngine) : (s.withTe x).sw = s.sw := rfl
@[simp] theorem State.withTe_st (s : State) (x : TempoEngine) : (s.withTe x).st = s.st := rfl
@[simp] theorem State.withTe_fl (s : State) (x : TempoEngine) : (s.withTe x).fl = s.fl := rfl
@[simp] theorem State.withTe_ready (s : State) (x : TempoEngine) : (s.withTe x).ready = s.ready := rfl
@[simp] theorem State.withTe_micros (s : State) (x : TempoEngine) : (s.withTe x).micros = s.micros := rfl
@[simp] theorem State.withTe_cause (s : State) (x : TempoEngine) : (s.withTe x).cause = s.cause := rfl
@[simp] theorem State.withTe_choices (s : State) (x : TempoEngine) : (s.withTe x).choices = s.choices := rfl
@[simp] theorem State.withTe_pending (s : State) (x : TempoEngine) : (s.withTe x).pending = s.pending := rfl

/-! ### State.withCs -/

@[simp] theorem State.withCs_te (s : State) (x : CueSeq) : (s.withCs x).te = s.te := rfl
@[simp] theorem State.withCs_ck (s : State) (x : CueSeq) : (s.withCs x).ck = s.ck := rfl
@[simp] theorem State.withCs_ip (s : State) (x : CueSeq) : (s.withCs x).ip = s.ip := rfl
@[simp] theorem State.withCs_op (s : State) (x : CueSeq) : (s.withCs x).op = s.op := rfl
@[simp] theorem State.withCs_lr (s : State) (x : CueSeq) : (s.withCs x).lr = s.lr := rfl
@[simp] theorem State.withCs_sl (s : State) (x : CueSeq) : (s.withCs x).sl = s.sl := rfl
@[simp] theorem State.withCs_sw (s : State) (x : CueSeq) : (s.withCs x).sw = s.sw := rfl
@[simp] theorem State.withCs_st (s : State) (x : CueSeq) : (s.withCs x).st = s.st := rfl
@[simp] theorem State.withCs_fl (s : State) (x : CueSeq) : (s.withCs x).fl = s.fl := rfl
@[simp] theorem State.withCs_ready (s : State) (x : CueSeq) : (s.withCs x).ready = s.ready := rfl
@[simp] theorem State.withCs_micros (s : State) (x : CueSeq) : (s.withCs x).micros = s.micros := rfl
@[simp] theorem State.withCs_cause (s : State) (x : CueSeq) : (s.withCs x).cause = s.cause := rfl
@[simp] theorem State.withCs_choices (s : State) (x : CueSeq) : (s.withCs x).choices = s.choices := rfl
@[simp] theorem State.withCs_pending (s : State) (x : CueSeq) : (s.withCs x).pending = s.pending := rfl

/-! ### State.withStore -/

@[simp] theorem State.withStore_te (s : State) (x : ShowStore) : (s.withStore x).te = s.te := rfl
@[simp] theorem State.withStore_ck (s : State) (x : ShowStore) : (s.withStore x).ck = s.ck := rfl
@[simp] theorem State.withStore_ip (s : State) (x : ShowStore) : (s.withStore x).ip = s.ip := rfl
@[simp] theorem State.withStore_op (s : State) (x : ShowStore) : (s.withStore x).op = s.op := rfl
@[simp] theorem State.withStore_lr (s : State) (x : ShowStore) : (s.withStore x).lr = s.lr := rfl
@[simp] theorem State.withStore_cs (s : State) (x : ShowStore) : (s.withStore x).cs = s.cs := rfl
@[simp] theorem State.withStore_sl (s : State) (x : ShowStore) : (s.withStore x).sl = s.sl := rfl
@[simp] theorem State.withStore_sw (s : State) (x : ShowStore) : (s.withStore x).sw = s.sw := rfl
@[simp] theorem State.withStore_fl (s : State) (x : ShowStore) : (s.withStore x).fl = s.fl := rfl
@[simp] theorem State.withStore_ready (s : State) (x : ShowStore) : (s.withStore x).ready = s.ready := rfl
@[simp] theorem State.withStore_micros (s : State) (x : ShowStore) : (s.withStore x).micros = s.micros := rfl
@[simp] theorem State.withStore_cause (s : State) (x : ShowStore) : (s.withStore x).cause = s.cause := rfl
@[simp] theorem State.withStore_choices (s : State) (x : ShowStore) : (s.withStore x).choices = s.choices := rfl
@[simp] theorem State.withStore_pending (s : State) (x : ShowStore) : (s.withStore x).pending = s.pending := rfl

@[simp] theorem State.withTe_te (s : State) (x : TempoEngine) : (s.withTe x).te = x := rfl
@[simp] theorem State.withCs_cs (s : State) (x : CueSeq) : (s.withCs x).cs = x := rfl
@[simp] theorem State.withStore_st (s : State) (x : ShowStore) : (s.withStore x).st = x := rfl

/-! ### State.choose -/

@[simp] theorem State.choose_te (s : State) : s.choose.te = s.te := rfl
@[simp] theorem State.choose_ck (s : State) : s.choose.ck = s.ck := rfl
@[simp] theorem State.choose_ip (s : State) : s.choose.ip = s.ip := rfl
@[simp] theorem State.choose_op (s : State) : s.choose.op = s.op := rfl
@[simp] theorem State.choose_lr (s : State) : s.choose.lr = s.lr := rfl
@[simp] theorem State.choose_cs (s : State) : s.choose.cs = s.cs := rfl
@[simp] theorem State.choose_sl (s : State) : s.choose.sl = s.sl := rfl
@[simp] theorem State.choose_sw (s : State) : s.choose.sw = s.sw := rfl
@[simp] theorem State.choose_st (s : State) : s.choose.st = s.st := rfl
@[simp] theorem State.choose_fl (s : State) : s.choose.fl = s.fl := rfl
@[simp] theorem State.choose_ready (s : State) : s.choose.ready = s.ready := rfl
@[simp] theorem State.choose_micros (s : State) : s.choose.micros = s.micros := rfl
@[simp] theorem State.choose_cause (s : State) : s.choose.cause = s.cause := rfl
@[simp] theorem State.choose_pending (s : State) : s.choose.pending = s.pending := rfl

/-! ### Reads of one port after a write of one port -/

@[simp] theorem State.link_setLink_same (s : State) (l : Link) (x : LinkState) : (s.setLink l x).link l = x := by
  cases l <;> rfl

theorem State.link_setLink_of_ne (s : State) {l j : Link} (x : LinkState) (h : j ≠ l) :
    (s.setLink l x).link j = s.link j := by
  cases l <;> cases j <;> first | rfl | exact absurd rfl h

@[simp] theorem State.setLink_setLink (s : State) (l : Link) (u x : LinkState) :
    (s.setLink l u).setLink l x = s.setLink l x := by
  cases l <;> rfl

@[simp] theorem State.setLink_link (s : State) (l : Link) : s.setLink l (s.link l) = s := by
  cases l <;> rfl

@[simp] theorem State.midiIn_setIn_same (s : State) (i : InPort) (x : MidiIn) : (s.setIn i x).midiIn i = x := by
  cases i <;> rfl

theorem State.midiIn_setIn_of_ne (s : State) {i j : InPort} (x : MidiIn) (h : j ≠ i) :
    (s.setIn i x).midiIn j = s.midiIn j := by
  cases i <;> cases j <;> first | rfl | exact absurd rfl h

@[simp] theorem State.setIn_setIn (s : State) (i : InPort) (u x : MidiIn) :
    (s.setIn i u).setIn i x = s.setIn i x := by
  cases i <;> rfl

@[simp] theorem State.setIn_midiIn (s : State) (i : InPort) : s.setIn i (s.midiIn i) = s := by
  cases i <;> rfl

@[simp] theorem State.midiOut_setOut_same (s : State) (o : OutPort) (x : MidiOut) : (s.setOut o x).midiOut o = x := by
  cases o <;> rfl

theorem State.midiOut_setOut_of_ne (s : State) {o j : OutPort} (x : MidiOut) (h : j ≠ o) :
    (s.setOut o x).midiOut j = s.midiOut j := by
  cases o <;> cases j <;> first | rfl | exact absurd rfl h

@[simp] theorem State.setOut_setOut (s : State) (o : OutPort) (u x : MidiOut) :
    (s.setOut o u).setOut o x = s.setOut o x := by
  cases o <;> rfl

@[simp] theorem State.setOut_midiOut (s : State) (o : OutPort) : s.setOut o (s.midiOut o) = s := by
  cases o <;> rfl

@[simp] theorem State.station_setStation_same (s : State) (x : Station) (r : StationRec) : (s.setStation x r).station x = r := by
  cases x <;> rfl

theorem State.station_setStation_of_ne (s : State) {x j : Station} (r : StationRec) (h : j ≠ x) :
    (s.setStation x r).station j = s.station j := by
  cases x <;> cases j <;> first | rfl | exact absurd rfl h

@[simp] theorem State.setStation_setStation (s : State) (x : Station) (u r : StationRec) :
    (s.setStation x u).setStation x r = s.setStation x r := by
  cases x <;> rfl

@[simp] theorem State.setStation_station (s : State) (x : Station) : s.setStation x (s.station x) = s := by
  cases x <;> rfl

@[simp] theorem State.bus_setBus_same (s : State) (b : Bus) (x : ClickBus) : (s.setBus b x).bus b = x := by
  cases b <;> rfl

theorem State.bus_setBus_of_ne (s : State) {b j : Bus} (x : ClickBus) (h : j ≠ b) :
    (s.setBus b x).bus j = s.bus j := by
  cases b <;> cases j <;> first | rfl | exact absurd rfl h

@[simp] theorem State.setBus_setBus (s : State) (b : Bus) (u x : ClickBus) :
    (s.setBus b u).setBus b x = s.setBus b x := by
  cases b <;> rfl

@[simp] theorem State.setBus_bus (s : State) (b : Bus) : s.setBus b (s.bus b) = s := by
  cases b <;> rfl

@[simp] theorem State.midiIn_setLink (s : State) (l : Link) (x : LinkState) (j : InPort) : (s.setLink l x).midiIn j = s.midiIn j := rfl
@[simp] theorem State.midiOut_setLink (s : State) (l : Link) (x : LinkState) (j : OutPort) : (s.setLink l x).midiOut j = s.midiOut j := rfl
@[simp] theorem State.station_setLink (s : State) (l : Link) (x : LinkState) (j : Station) : (s.setLink l x).station j = s.station j := rfl
@[simp] theorem State.bus_setLink (s : State) (l : Link) (x : LinkState) (j : Bus) : (s.setLink l x).bus j = s.bus j := rfl
@[simp] theorem State.link_setIn (s : State) (i : InPort) (x : MidiIn) (j : Link) : (s.setIn i x).link j = s.link j := rfl
@[simp] theorem State.midiOut_setIn (s : State) (i : InPort) (x : MidiIn) (j : OutPort) : (s.setIn i x).midiOut j = s.midiOut j := rfl
@[simp] theorem State.station_setIn (s : State) (i : InPort) (x : MidiIn) (j : Station) : (s.setIn i x).station j = s.station j := rfl
@[simp] theorem State.bus_setIn (s : State) (i : InPort) (x : MidiIn) (j : Bus) : (s.setIn i x).bus j = s.bus j := rfl
@[simp] theorem State.link_setOut (s : State) (o : OutPort) (x : MidiOut) (j : Link) : (s.setOut o x).link j = s.link j := rfl
@[simp] theorem State.midiIn_setOut (s : State) (o : OutPort) (x : MidiOut) (j : InPort) : (s.setOut o x).midiIn j = s.midiIn j := rfl
@[simp] theorem State.station_setOut (s : State) (o : OutPort) (x : MidiOut) (j : Station) : (s.setOut o x).station j = s.station j := rfl
@[simp] theorem State.bus_setOut (s : State) (o : OutPort) (x : MidiOut) (j : Bus) : (s.setOut o x).bus j = s.bus j := rfl
@[simp] theorem State.link_setStation (s : State) (x : Station) (r : StationRec) (j : Link) : (s.setStation x r).link j = s.link j := rfl
@[simp] theorem State.midiIn_setStation (s : State) (x : Station) (r : StationRec) (j : InPort) : (s.setStation x r).midiIn j = s.midiIn j := rfl
@[simp] theorem State.midiOut_setStation (s : State) (x : Station) (r : StationRec) (j : OutPort) : (s.setStation x r).midiOut j = s.midiOut j := rfl
@[simp] theorem State.bus_setStation (s : State) (x : Station) (r : StationRec) (j : Bus) : (s.setStation x r).bus j = s.bus j := rfl
@[simp] theorem State.link_setBus (s : State) (b : Bus) (x : ClickBus) (j : Link) : (s.setBus b x).link j = s.link j := rfl
@[simp] theorem State.midiIn_setBus (s : State) (b : Bus) (x : ClickBus) (j : InPort) : (s.setBus b x).midiIn j = s.midiIn j := rfl
@[simp] theorem State.midiOut_setBus (s : State) (b : Bus) (x : ClickBus) (j : OutPort) : (s.setBus b x).midiOut j = s.midiOut j := rfl
@[simp] theorem State.station_setBus (s : State) (b : Bus) (x : ClickBus) (j : Station) : (s.setBus b x).station j = s.station j := rfl
@[simp] theorem State.link_withTe (s : State) (x : TempoEngine) (j : Link) : (s.withTe x).link j = s.link j := rfl
@[simp] theorem State.midiIn_withTe (s : State) (x : TempoEngine) (j : InPort) : (s.withTe x).midiIn j = s.midiIn j := rfl
@[simp] theorem State.midiOut_withTe (s : State) (x : TempoEngine) (j : OutPort) : (s.withTe x).midiOut j = s.midiOut j := rfl
@[simp] theorem State.station_withTe (s : State) (x : TempoEngine) (j : Station) : (s.withTe x).station j = s.station j := rfl
@[simp] theorem State.bus_withTe (s : State) (x : TempoEngine) (j : Bus) : (s.withTe x).bus j = s.bus j := rfl
@[simp] theorem State.link_withCs (s : State) (x : CueSeq) (j : Link) : (s.withCs x).link j = s.link j := rfl
@[simp] theorem State.midiIn_withCs (s : State) (x : CueSeq) (j : InPort) : (s.withCs x).midiIn j = s.midiIn j := rfl
@[simp] theorem State.midiOut_withCs (s : State) (x : CueSeq) (j : OutPort) : (s.withCs x).midiOut j = s.midiOut j := rfl
@[simp] theorem State.station_withCs (s : State) (x : CueSeq) (j : Station) : (s.withCs x).station j = s.station j := rfl
@[simp] theorem State.bus_withCs (s : State) (x : CueSeq) (j : Bus) : (s.withCs x).bus j = s.bus j := rfl
@[simp] theorem State.link_withStore (s : State) (x : ShowStore) (j : Link) : (s.withStore x).link j = s.link j := rfl
@[simp] theorem State.midiIn_withStore (s : State) (x : ShowStore) (j : InPort) : (s.withStore x).midiIn j = s.midiIn j := rfl
@[simp] theorem State.midiOut_withStore (s : State) (x : ShowStore) (j : OutPort) : (s.withStore x).midiOut j = s.midiOut j := rfl
@[simp] theorem State.station_withStore (s : State) (x : ShowStore) (j : Station) : (s.withStore x).station j = s.station j := rfl
@[simp] theorem State.bus_withStore (s : State) (x : ShowStore) (j : Bus) : (s.withStore x).bus j = s.bus j := rfl

@[simp] theorem State.link_choose (s : State) (j : Link) : s.choose.link j = s.link j := rfl
@[simp] theorem State.midiIn_choose (s : State) (j : InPort) : s.choose.midiIn j = s.midiIn j := rfl
@[simp] theorem State.midiOut_choose (s : State) (j : OutPort) : s.choose.midiOut j = s.midiOut j := rfl
@[simp] theorem State.station_choose (s : State) (j : Station) : s.choose.station j = s.station j := rfl
@[simp] theorem State.bus_choose (s : State) (j : Bus) : s.choose.bus j = s.bus j := rfl

/-! ### The clock and the position -/

@[simp] theorem State.now_setLink (s : State) (l : Link) (x : LinkState) : (s.setLink l x).now = s.now := rfl
@[simp] theorem State.ticking_setLink (s : State) (l : Link) (x : LinkState) : (s.setLink l x).ticking = s.ticking := rfl
@[simp] theorem State.barBeat_setLink (s : State) (l : Link) (x : LinkState) : (s.setLink l x).barBeat = s.barBeat := rfl
@[simp] theorem State.millis_setLink (s : State) (l : Link) (x : LinkState) : (s.setLink l x).millis = s.millis := rfl
@[simp] theorem State.now_setIn (s : State) (i : InPort) (x : MidiIn) : (s.setIn i x).now = s.now := rfl
@[simp] theorem State.ticking_setIn (s : State) (i : InPort) (x : MidiIn) : (s.setIn i x).ticking = s.ticking := rfl
@[simp] theorem State.barBeat_setIn (s : State) (i : InPort) (x : MidiIn) : (s.setIn i x).barBeat = s.barBeat := rfl
@[simp] theorem State.millis_setIn (s : State) (i : InPort) (x : MidiIn) : (s.setIn i x).millis = s.millis := rfl
@[simp] theorem State.now_setOut (s : State) (o : OutPort) (x : MidiOut) : (s.setOut o x).now = s.now := rfl
@[simp] theorem State.ticking_setOut (s : State) (o : OutPort) (x : MidiOut) : (s.setOut o x).ticking = s.ticking := rfl
@[simp] theorem State.barBeat_setOut (s : State) (o : OutPort) (x : MidiOut) : (s.setOut o x).barBeat = s.barBeat := rfl
@[simp] theorem State.millis_setOut (s : State) (o : OutPort) (x : MidiOut) : (s.setOut o x).millis = s.millis := rfl
@[simp] theorem State.now_setStation (s : State) (x : Station) (r : StationRec) : (s.setStation x r).now = s.now := rfl
@[simp] theorem State.ticking_setStation (s : State) (x : Station) (r : StationRec) : (s.setStation x r).ticking = s.ticking := rfl
@[simp] theorem State.barBeat_setStation (s : State) (x : Station) (r : StationRec) : (s.setStation x r).barBeat = s.barBeat := rfl
@[simp] theorem State.millis_setStation (s : State) (x : Station) (r : StationRec) : (s.setStation x r).millis = s.millis := rfl
@[simp] theorem State.now_setBus (s : State) (b : Bus) (x : ClickBus) : (s.setBus b x).now = s.now := rfl
@[simp] theorem State.ticking_setBus (s : State) (b : Bus) (x : ClickBus) : (s.setBus b x).ticking = s.ticking := rfl
@[simp] theorem State.barBeat_setBus (s : State) (b : Bus) (x : ClickBus) : (s.setBus b x).barBeat = s.barBeat := rfl
@[simp] theorem State.millis_setBus (s : State) (b : Bus) (x : ClickBus) : (s.setBus b x).millis = s.millis := rfl
@[simp] theorem State.now_withTe (s : State) (x : TempoEngine) : (s.withTe x).now = s.now := rfl
@[simp] theorem State.millis_withTe (s : State) (x : TempoEngine) : (s.withTe x).millis = s.millis := rfl
@[simp] theorem State.now_withCs (s : State) (x : CueSeq) : (s.withCs x).now = s.now := rfl
@[simp] theorem State.ticking_withCs (s : State) (x : CueSeq) : (s.withCs x).ticking = s.ticking := rfl
@[simp] theorem State.barBeat_withCs (s : State) (x : CueSeq) : (s.withCs x).barBeat = s.barBeat := rfl
@[simp] theorem State.millis_withCs (s : State) (x : CueSeq) : (s.withCs x).millis = s.millis := rfl
@[simp] theorem State.now_withStore (s : State) (x : ShowStore) : (s.withStore x).now = s.now := rfl
@[simp] theorem State.ticking_withStore (s : State) (x : ShowStore) : (s.withStore x).ticking = s.ticking := rfl
@[simp] theorem State.barBeat_withStore (s : State) (x : ShowStore) : (s.withStore x).barBeat = s.barBeat := rfl
@[simp] theorem State.millis_withStore (s : State) (x : ShowStore) : (s.withStore x).millis = s.millis := rfl
@[simp] theorem State.now_choose (s : State) : s.choose.now = s.now := rfl

end Machine
end Sys2Proof
end

