-- ==== Sys2Proof/Laws/Frames.lean ====
section
/-! SUPPORT. What the shared operations leave alone, said once: `LinksOnly` for notices and fault reports, `WatchOnly` for
the consequences of a station's change, `RouterOnly` for what routing and swaps do, and `SetsOnly` for cue actions. -/

namespace Sys2Proof.Machine

/-! ## The relations -/

theorem Noticed.refl (x : LinkState) : Noticed x x :=
  ⟨⟨[], by simp⟩, rfl, rfl, rfl, rfl, rfl, rfl, rfl⟩

theorem Noticed.trans {x y z : LinkState} (h : Noticed x y) (k : Noticed y z) : Noticed x z := by
  obtain ⟨⟨ns, hn⟩, h1, h2, h3, h4, h5, h6, h7⟩ := h
  obtain ⟨⟨ms, hm⟩, k1, k2, k3, k4, k5, k6, k7⟩ := k
  exact ⟨⟨ns ++ ms, by rw [hm, hn]; simp⟩, k1.trans h1, k2.trans h2, k3.trans h3, k4.trans h4, k5.trans h5,
    k6.trans h6, k7.trans h7⟩

/-- The performance lock is released, or stays as it was and the live map with it (R74). -/
def MapKept (a b : LayerRouter) : Prop := b.lock = none ∨ (b.lock = a.lock ∧ b.live = a.live)

theorem MapKept.refl (a : LayerRouter) : MapKept a a := .inr ⟨rfl, rfl⟩

theorem MapKept.trans {a b c : LayerRouter} (h : MapKept a b) (k : MapKept b c) : MapKept a c := by
  rcases k with k | ⟨k1, k2⟩
  · exact .inl k
  · exact h.imp k1.trans (fun e => ⟨k1.trans e.1, k2.trans e.2⟩)

/-- What every operation inside a step keeps: links only gain notices, the Fault Log and the watch stay as the manual
promises, the live map does not change under the performance lock, and the clock, the part state, the queue and the store's
records do not move. -/
structure Calm (s t : State) : Prop where
  link : ∀ l, Noticed (s.link l) (t.link l)
  fl : s.fl.ok = true → t.fl.ok = true
  modes : t.fl.modes = s.fl.modes
  sw : s.sw.ok = true → t.sw.ok = true
  st : t.st = s.st
  ready : t.ready = s.ready
  micros : t.micros = s.micros
  cause : t.cause = s.cause
  pending : t.pending = s.pending
  map : MapKept s.lr t.lr

theorem Calm.refl (s : State) : Calm s s :=
  ⟨fun _ => Noticed.refl _, id, rfl, id, rfl, rfl, rfl, rfl, rfl, MapKept.refl _⟩

theorem Calm.trans {s t u : State} (h : Calm s t) (k : Calm t u) : Calm s u :=
  ⟨fun l => (h.link l).trans (k.link l), fun x => k.fl (h.fl x), k.modes.trans h.modes, fun x => k.sw (h.sw x),
    k.st.trans h.st, k.ready.trans h.ready, k.micros.trans h.micros, k.cause.trans h.cause, k.pending.trans h.pending,
    h.map.trans k.map⟩

theorem Calm.now {s t : State} (h : Calm s t) : t.now = s.now := by simp [State.now, h.micros]

theorem Calm.millis {s t : State} (h : Calm s t) : t.millis = s.millis := by simp [State.millis, h.micros]

/-- Everything but the links' queues and the Fault Log is as it was. -/
structure LinksOnly (s t : State) : Prop extends Calm s t where
  te : t.te = s.te
  ck : t.ck = s.ck
  ip : t.ip = s.ip
  op : t.op = s.op
  lr : t.lr = s.lr
  cs : t.cs = s.cs
  watch : t.sw = s.sw
  choices : t.choices = s.choices

theorem LinksOnly.refl (s : State) : LinksOnly s s := ⟨Calm.refl s, rfl, rfl, rfl, rfl, rfl, rfl, rfl, rfl⟩

theorem LinksOnly.trans {s t u : State} (h : LinksOnly s t) (k : LinksOnly t u) : LinksOnly s u :=
  ⟨h.toCalm.trans k.toCalm, k.te.trans h.te, k.ck.trans h.ck, k.ip.trans h.ip, k.op.trans h.op, k.lr.trans h.lr,
    k.cs.trans h.cs, k.watch.trans h.watch, k.choices.trans h.choices⟩

/-- Everything but the links' queues, the Fault Log, the watch, the lock and the replay-pending sets is as it was. -/
structure WatchOnly (s t : State) : Prop extends Calm s t where
  te : t.te = s.te
  ck : t.ck = s.ck
  ip : t.ip = s.ip
  op : t.op = s.op
  cs : t.cs = s.cs
  live : t.lr.live = s.lr.live
  staged : t.lr.staged = s.lr.staged
  claim : t.lr.claim = s.lr.claim
  slots : t.lr.slots = s.lr.slots
  held : t.lr.held.map HeldEntry.bare = s.lr.held.map HeldEntry.bare
  lock : t.lr.lock = s.lr.lock ∨ t.lr.lock = none
  pulse : t.sw.pulse = s.sw.pulse
  limit : t.sw.limit = s.sw.limit
  deadline : t.sw.deadline = s.sw.deadline

theorem WatchOnly.refl (s : State) : WatchOnly s s :=
  ⟨Calm.refl s, rfl, rfl, rfl, rfl, rfl, rfl, rfl, rfl, rfl, rfl, .inl rfl, rfl, rfl, rfl⟩

theorem WatchOnly.trans {s t u : State} (h : WatchOnly s t) (k : WatchOnly t u) : WatchOnly s u :=
  ⟨h.toCalm.trans k.toCalm, k.te.trans h.te, k.ck.trans h.ck, k.ip.trans h.ip, k.op.trans h.op, k.cs.trans h.cs,
    k.live.trans h.live, k.staged.trans h.staged, k.claim.trans h.claim, k.slots.trans h.slots, k.held.trans h.held,
    k.lock.elim (fun e => h.lock.imp e.trans e.trans) .inr, k.pulse.trans h.pulse, k.limit.trans h.limit, k.deadline.trans h.deadline⟩

theorem LinksOnly.watchOnly {s t : State} (h : LinksOnly s t) : WatchOnly s t :=
  ⟨h.toCalm, h.te, h.ck, h.ip, h.op, h.cs, by rw [h.lr], by rw [h.lr], by rw [h.lr], by rw [h.lr], by rw [h.lr],
    .inl (by rw [h.lr]), by rw [h.watch], by rw [h.watch], by rw [h.watch]⟩

/-- Everything but the links' queues, the Fault Log, the watch, the router and the outputs is as it was. -/
structure RouterOnly (s t : State) : Prop extends Calm s t where
  te : t.te = s.te
  ck : t.ck = s.ck
  ip : t.ip = s.ip
  cs : t.cs = s.cs

theorem RouterOnly.refl (s : State) : RouterOnly s s := ⟨Calm.refl s, rfl, rfl, rfl, rfl⟩

theorem RouterOnly.trans {s t u : State} (h : RouterOnly s t) (k : RouterOnly t u) : RouterOnly s u :=
  ⟨h.toCalm.trans k.toCalm, k.te.trans h.te, k.ck.trans h.ck, k.ip.trans h.ip, k.cs.trans h.cs⟩

theorem WatchOnly.routerOnly {s t : State} (h : WatchOnly s t) : RouterOnly s t :=
  ⟨h.toCalm, h.te, h.ck, h.ip, h.cs⟩

theorem LinksOnly.routerOnly {s t : State} (h : LinksOnly s t) : RouterOnly s t := h.watchOnly.routerOnly

/-- A fold of steps that each stand in a reflexive and transitive relation. -/
theorem foldl_rel {σ α : Type} (R : σ → σ → Prop) (refl : ∀ s, R s s)
    (trans : ∀ {s t u : σ}, R s t → R t u → R s u) {f : σ → α → σ} (hf : ∀ s a, R s (f s a)) :
    ∀ (l : List α) (s : σ), R s (l.foldl f s)
  | [], s => refl s
  | a :: l, s => trans (hf s a) (foldl_rel R refl trans hf l (f s a))

/-! ## Queues and transmission -/

@[simp] theorem LinkState.startTx_line (x : LinkState) (now : Stamp) : (x.startTx now).line = x.line := by
  unfold LinkState.startTx
  split
  · rfl
  · split
    · next h => simp_all [LinkState.line]
    · rfl

theorem LinkState.startTx_noticed (x : LinkState) (now : Stamp) : Noticed x (x.startTx now) := by
  refine ⟨⟨[], by simp⟩, ?_, ?_, ?_, ?_, ?_, ?_, ?_⟩ <;>
    (unfold LinkState.startTx; split <;> first | rfl | (split <;> rfl))

@[simp] theorem LinkState.admitTelegram_line (x : LinkState) (now : Stamp) (t : Telegram) :
    (x.admitTelegram now t).line = x.line ++ [t] := by
  rw [LinkState.admitTelegram, LinkState.startTx_line]
  simp [LinkState.line]

theorem LinkState.admitNotice_noticed (x : LinkState) (now : Stamp) (n : Notice) :
    Noticed x (x.admitTelegram now (.notice n)) := by
  have h := LinkState.startTx_noticed { x with queue := x.queue ++ [.notice n] } now
  refine ⟨⟨[n], by simp⟩, h.high, h.collecting, h.collected, h.rescan, h.gap, h.hold, h.mask⟩

/-- A write of one link's record is `LinksOnly` where the link has only gained notices. -/
theorem State.setLink_linksOnly (s : State) (l : Link) (x : LinkState) (h : Noticed (s.link l) x) :
    LinksOnly s (s.setLink l x) := by
  refine ⟨⟨fun j => ?_, id, rfl, id, rfl, rfl, rfl, rfl, rfl, MapKept.refl _⟩, rfl, rfl, rfl, rfl, rfl, rfl, rfl, rfl⟩
  by_cases e : j = l
  · subst e; simpa using h
  · rw [State.link_setLink_of_ne s x e]; exact Noticed.refl _

theorem State.postNotice_linksOnly (s : State) (l : Link) (n : Notice) : LinksOnly s (s.post l (.notice n)) :=
  s.setLink_linksOnly l _ (LinkState.admitNotice_noticed _ _ _)

/-! ## Fault reports -/

theorem FaultLog.review_ok {f : FaultLog} (h : f.records.length ≤ 32) (k : f.counter < 65536) : f.review.ok = true := by
  simp [FaultLog.ok, FaultLog.review, FaultLog.alerting, h, k]

/-- A recorded report keeps the log as the manual promises it, and leaves the modes. -/
theorem FaultLog.record_ok (f : FaultLog) (k : FaultKind) (p : Option FaultPort) (pos : Option BarBeat) (time : Nat)
    (h : f.ok = true) : (f.record k p pos time).ok = true := by
  have hl : f.records.length ≤ 32 ∧ f.counter < 65536 := by simp [FaultLog.ok] at h; exact ⟨h.1.1, h.1.2⟩
  have happ : (f.append k p pos time).review.ok = true := by
    apply FaultLog.review_ok
    · simp only [FaultLog.append]; split <;> simp [Config.faultRoom] at * <;> omega
    · simp only [FaultLog.append]; omega
  unfold FaultLog.record
  split
  · next r hr =>
    split
    · apply FaultLog.review_ok
      · have : f.records ≠ [] := by intro e; simp [e] at hr
        have := List.length_pos_of_ne_nil this
        simp; omega
      · exact hl.2
    · exact happ
  · exact happ

@[simp] theorem FaultLog.record_modes (f : FaultLog) (k : FaultKind) (p : Option FaultPort) (pos : Option BarBeat)
    (time : Nat) : (f.record k p pos time).modes = f.modes := by
  unfold FaultLog.record
  split
  · split <;> rfl
  · rfl

theorem State.record_linksOnly (s : State) (k : FaultKind) (p : Option FaultPort) (pos : Option BarBeat) (time : Nat) :
    LinksOnly s { s with fl := s.fl.record k p pos time } :=
  ⟨⟨fun _ => Noticed.refl _, fun h => FaultLog.record_ok _ _ _ _ _ h, by simp, id, rfl, rfl, rfl, rfl, rfl, MapKept.refl _⟩, rfl, rfl,
    rfl, rfl, rfl, rfl, rfl, rfl⟩

theorem State.offerQuiet_linksOnly (s : State) (l : Link) (n : Notice) : LinksOnly s (s.offerQuiet l n) := by
  unfold State.offerQuiet
  split
  · exact s.postNotice_linksOnly l n
  · exact LinksOnly.refl s

theorem State.broadcastQuiet_linksOnly (s : State) (g : Mask → Bool) (n : Notice) : LinksOnly s (s.broadcastQuiet g n) := by
  unfold State.broadcastQuiet
  apply foldl_rel LinksOnly LinksOnly.refl LinksOnly.trans
  intro s l
  split
  · exact s.offerQuiet_linksOnly l n
  · exact LinksOnly.refl s

theorem State.offerFaultNotice_linksOnly (s : State) : LinksOnly s s.offerFaultNotice := by
  unfold State.offerFaultNotice
  split
  · exact s.broadcastQuiet_linksOnly _ _
  · exact LinksOnly.refl s

theorem State.reportAt_linksOnly (s : State) (k : FaultKind) (p : Option FaultPort) (pos : Option BarBeat) :
    LinksOnly s (s.reportAt k p pos) := by
  unfold State.reportAt
  split
  · exact LinksOnly.refl s
  · exact s.record_linksOnly k p pos _
  · exact (s.record_linksOnly k p pos _).trans (State.offerFaultNotice_linksOnly _)

theorem State.report_linksOnly (s : State) (k : FaultKind) (p : Option FaultPort) : LinksOnly s (s.report k p) :=
  s.reportAt_linksOnly k p _

/-! ## Notices -/

theorem State.offerNotice_linksOnly (s : State) (l : Link) (n : Notice) : LinksOnly s (s.offerNotice l n) := by
  unfold State.offerNotice
  split
  · exact LinksOnly.refl s
  · split
    · exact s.postNotice_linksOnly l n
    · exact s.report_linksOnly _ _

theorem State.broadcast_linksOnly (s : State) (g : Mask → Bool) (n : Notice) : LinksOnly s (s.broadcast g n) := by
  unfold State.broadcast
  apply foldl_rel LinksOnly LinksOnly.refl LinksOnly.trans
  intro s l
  split
  · exact s.offerNotice_linksOnly l n
  · exact LinksOnly.refl s

theorem State.tempoNotice_linksOnly (s : State) : LinksOnly s s.tempoNotice := s.broadcastQuiet_linksOnly _ _
theorem State.transportNotice_linksOnly (s : State) : LinksOnly s s.transportNotice := s.broadcast_linksOnly _ _
theorem State.beatNotice_linksOnly (s : State) (bar : Int) (beat meter : Nat) (tr : Transport) :
    LinksOnly s (s.beatNotice bar beat meter tr) := s.broadcastQuiet_linksOnly _ _
theorem State.sceneNotice_linksOnly (s : State) (c : SceneCause) (d : Option Nat) (o : Option Origin) :
    LinksOnly s (s.sceneNotice c d o) := s.broadcast_linksOnly _ _
theorem State.cueNotice_linksOnly (s : State) (n : Notice) : LinksOnly s (s.cueNotice n) := s.broadcast_linksOnly _ _
theorem State.storeNotice_linksOnly (s : State) (o : StoreOccasion) (ok : Bool) : LinksOnly s (s.storeNotice o ok) :=
  s.broadcast_linksOnly _ _

/-! ## The lock, replay-pending sets, and a station's change -/

/-- A change of the router's lock and held entries alone. -/
theorem watchOnly_router (s : State) (r : LayerRouter) (h1 : r.live = s.lr.live) (h2 : r.staged = s.lr.staged)
    (h3 : r.claim = s.lr.claim) (h4 : r.slots = s.lr.slots) (h5 : r.held.map HeldEntry.bare = s.lr.held.map HeldEntry.bare)
    (h6 : r.lock = s.lr.lock ∨ r.lock = none) : WatchOnly s { s with lr := r } :=
  ⟨⟨fun _ => Noticed.refl _, id, rfl, id, rfl, rfl, rfl, rfl, rfl, h6.elim (fun e => .inr ⟨e, h1⟩) .inl⟩, rfl, rfl, rfl, rfl,
    rfl, h1, h2, h3, h4, h5, h6, rfl,
    rfl, rfl⟩

theorem State.releaseLock_watchOnly (s : State) : WatchOnly s s.releaseLock :=
  (watchOnly_router s { s.lr with lock := none } rfl rfl rfl rfl rfl (.inr rfl)).trans (State.sceneNotice_linksOnly _ _ _ _).watchOnly

theorem State.clearPending_watchOnly (s : State) (x : Station) : WatchOnly s (s.clearPending x) :=
  watchOnly_router s _ rfl rfl rfl rfl (by simp [HeldEntry.bare]) (.inl rfl)

theorem State.markPending_watchOnly (s : State) (x : Station) : WatchOnly s (s.markPending x) :=
  watchOnly_router s _ rfl rfl rfl rfl (by
    rw [List.map_map]
    refine List.map_congr_left (fun e _ => ?_)
    show HeldEntry.bare (if e.sounds then { e with pend := e.pend.set x true } else e) = e.bare
    split <;> rfl) (.inl rfl)

/-- A station's record replaced by one whose phase and state agree. -/
theorem State.setStation_watchOnly (s : State) (x : Station) (r : StationRec)
    (h : (s.station x).ok = true → r.ok = true) : WatchOnly s (s.setStation x r) := by
  refine ⟨⟨fun _ => Noticed.refl _, id, rfl, fun k => ?_, rfl, rfl, rfl, rfl, rfl, MapKept.refl _⟩, rfl, rfl, rfl, rfl, rfl, rfl, rfl, rfl,
    rfl, rfl, .inl rfl, rfl, rfl, rfl⟩
  simp only [Watch.ok, Bool.and_eq_true] at k ⊢
  cases x
  · exact ⟨⟨h k.1.1, k.1.2⟩, k.2⟩
  · exact ⟨⟨k.1.1, h k.1.2⟩, k.2⟩

theorem State.makeActive_watchOnly (s : State) (x : Station) (c : ActiveCause) : WatchOnly s (s.makeActive x c) := by
  refine WatchOnly.trans ?_ (State.broadcast_linksOnly _ _ _).watchOnly
  refine ⟨⟨fun _ => Noticed.refl _, id, rfl, fun k => ?_, rfl, rfl, rfl, rfl, rfl, MapKept.refl _⟩, rfl, rfl, rfl, rfl, rfl, rfl, rfl, rfl,
    rfl, rfl, .inl rfl, rfl, rfl, rfl⟩
  simp only [Watch.ok, Bool.and_eq_true] at k ⊢
  refine ⟨k.1, ?_⟩
  cases x <;> rfl

theorem State.reviewActive_watchOnly (s : State) (x : Station) (old new : StationState) :
    WatchOnly s (s.reviewActive x old new) := by
  unfold State.reviewActive
  split
  · split
    · exact s.makeActive_watchOnly x _
    · split
      · exact (s.makeActive_watchOnly x _).trans (State.report_linksOnly _ _ _).watchOnly
      · exact WatchOnly.refl s
  · split
    · split
      · exact (s.makeActive_watchOnly _ _).trans (State.report_linksOnly _ _ _).watchOnly
      · exact (s.report_linksOnly _ _).watchOnly
    · exact WatchOnly.refl s

theorem State.resyncAllOff_watchOnly (s : State) (x : Station) : WatchOnly s (s.resyncAllOff x) := by
  unfold State.resyncAllOff
  split
  · next h =>
    refine (s.postNotice_linksOnly _ _).watchOnly.trans (State.setStation_watchOnly _ x _ (fun _ => ?_))
    simp only [State.allOffReady, Bool.and_eq_true, decide_eq_true_eq] at h
    simp [StationRec.ok, h.1.1.1]
  · exact WatchOnly.refl s

theorem State.enterState_watchOnly (s : State) (x : Station) (new : StationState) : WatchOnly s (s.enterState x new) := by
  cases new
  · exact (s.setStation_watchOnly x _ (fun _ => rfl)).trans (State.clearPending_watchOnly _ x)
  · exact (s.setStation_watchOnly x _ (fun _ => rfl)).trans (State.clearPending_watchOnly _ x)
  · exact ((s.setStation_watchOnly x _ (fun _ => rfl)).trans (State.markPending_watchOnly _ x)).trans
      (State.resyncAllOff_watchOnly _ x)
  · exact s.setStation_watchOnly x _ (fun _ => rfl)
  · exact s.setStation_watchOnly x _ (fun _ => rfl)

theorem State.autoRelease_watchOnly (s : State) (x : Station) (new : StationState) : WatchOnly s (s.autoRelease x new) := by
  unfold State.autoRelease
  split
  · exact s.releaseLock_watchOnly
  · exact WatchOnly.refl s

theorem State.changeStation_watchOnly (s : State) (x : Station) (new : StationState) (f : Option FaultKind) :
    WatchOnly s (s.changeStation x new f) := by
  have h := ((s.enterState_watchOnly x new).trans (State.autoRelease_watchOnly _ x new)).trans
    (State.reviewActive_watchOnly _ x (s.station x).state new)
  cases f with
  | none => exact h
  | some k => exact h.trans (State.report_linksOnly _ _ _).watchOnly

theorem State.refused_watchOnly (s : State) (x : Station) : WatchOnly s (s.refused x) := by
  unfold State.refused
  split
  · exact s.changeStation_watchOnly _ _ _
  · exact s.changeStation_watchOnly _ _ _
  · exact s.changeStation_watchOnly _ _ _
  · exact WatchOnly.refl s

/-! ## Mirroring -/

theorem State.choose_watchOnly (s : State) : WatchOnly s s.choose :=
  ⟨⟨fun _ => Noticed.refl _, id, rfl, id, rfl, rfl, rfl, rfl, rfl, MapKept.refl _⟩, rfl, rfl, rfl, rfl, rfl, rfl, rfl, rfl,
    rfl, rfl, .inl rfl, rfl, rfl, rfl⟩

theorem State.offerEvent_watchOnly (s : State) (x : Station) (e : Event) : WatchOnly s (s.offerEvent x e).1 := by
  unfold State.offerEvent
  split
  · exact s.refused_watchOnly x
  · split
    · exact (s.postNotice_linksOnly _ _).watchOnly
    · exact WatchOnly.refl s

theorem State.admitEvent_linksOnly (s : State) (x : Station) (e : Event) (w : Bool) : LinksOnly s (s.admitEvent x e w) := by
  unfold State.admitEvent
  split
  · exact s.postNotice_linksOnly _ _
  · exact LinksOnly.refl s

theorem State.offerIf_watchOnly (s : State) (x : Station) (e : Event) (w : Bool) :
    WatchOnly s (if w then s.offerEvent x e else (s, false)).1 := by
  split
  · exact s.offerEvent_watchOnly x e
  · exact WatchOnly.refl s

theorem State.mirror_watchOnly (s : State) (w : PerStation Bool) (e : Event) : WatchOnly s (s.mirror w e).1 := by
  unfold State.mirror
  split
  · split
    · exact (s.choose_watchOnly.trans (State.offerIf_watchOnly _ .a e w.a)).trans (State.offerIf_watchOnly _ .b e w.b)
    · exact (s.choose_watchOnly.trans (State.offerIf_watchOnly _ .b e w.b)).trans (State.offerIf_watchOnly _ .a e w.a)
  · exact ((s.admitEvent_linksOnly .a e w.a).trans (State.admitEvent_linksOnly _ .b e w.b)).watchOnly

theorem State.mirrorLive_watchOnly (s : State) (e : Event) : WatchOnly s (s.mirrorLive e).1 := s.mirror_watchOnly _ e

theorem State.mirrorOff_watchOnly (s : State) (p : PerStation Bool) (e : Event) : WatchOnly s (s.mirrorOff p e) :=
  s.mirror_watchOnly _ e

theorem State.panicStation_watchOnly (s : State) (x : Station) : WatchOnly s (s.panicStation x) := by
  unfold State.panicStation
  split
  · split
    · exact (s.report_linksOnly _ _).watchOnly.trans (State.refused_watchOnly _ x)
    · split
      · exact (s.postNotice_linksOnly _ _).watchOnly
      · exact WatchOnly.refl s
  · exact WatchOnly.refl s

theorem State.panicStations_watchOnly (s : State) : WatchOnly s s.panicStations := by
  unfold State.panicStations
  simp only
  split
  · split
    · exact (s.choose_watchOnly.trans (State.panicStation_watchOnly _ .a)).trans (State.panicStation_watchOnly _ .b)
    · exact (s.choose_watchOnly.trans (State.panicStation_watchOnly _ .b)).trans (State.panicStation_watchOnly _ .a)
  · exact (s.panicStation_watchOnly .a).trans (State.panicStation_watchOnly _ .b)

end Sys2Proof.Machine
end

