-- ==== Sys2Proof/Laws/Routing.lean ====
section
/-! SUPPORT. What routing, swaps, releases, controllers and the inputs leave alone: nothing of the Tempo Engine, the Click
Generator or the Cue Sequencer moves under them. -/

namespace Sys2Proof.Machine

/-! ## Outputs -/

/-- A change of router and outputs alone. -/
theorem routerOnly_of (s : State) (r : LayerRouter) (o : PerOut MidiOut) (h : MapKept s.lr r) :
    RouterOnly s { s with lr := r, op := o } :=
  ⟨⟨fun _ => Noticed.refl _, id, rfl, id, rfl, rfl, rfl, rfl, rfl, h⟩, rfl, rfl, rfl, rfl⟩

theorem State.setOut_routerOnly (s : State) (o : OutPort) (x : MidiOut) : RouterOnly s (s.setOut o x) :=
  routerOnly_of s s.lr _ (MapKept.refl _)

/-- A change of the router's staging, claim, held entries and slots alone. -/
theorem State.router_routerOnly (s : State) (g : Option Staging) (c : Option CueClaim) (h : List HeldEntry) (q : List Slot) :
    RouterOnly s { s with lr := { s.lr with staged := g, claim := c, held := h, slots := q } } :=
  routerOnly_of s _ s.op (.inr ⟨rfl, rfl⟩)

theorem State.offerNoteOff_routerOnly (s : State) (o : OutPort) (c : Chan) (k v : Nat) :
    RouterOnly s (s.offerNoteOff o c k v) := by
  unfold State.offerNoteOff
  simp only
  split
  · exact RouterOnly.refl s
  · exact s.setOut_routerOnly _ _

theorem State.offerNoteOn_routerOnly (s : State) (o : OutPort) (c : Chan) (k v : Nat) :
    RouterOnly s (s.offerNoteOn o c k v).1 := by
  unfold State.offerNoteOn
  simp only
  split
  · split
    · exact (s.report_linksOnly _ _).routerOnly
    · split
      · exact (s.report_linksOnly _ _).routerOnly
      · exact s.setOut_routerOnly _ _
  · exact RouterOnly.refl s

theorem State.offerGroup_routerOnly (s : State) (o : OutPort) (ms : List OutMsg) : RouterOnly s (s.offerGroup o ms).1 := by
  unfold State.offerGroup
  simp only
  split
  · split
    · exact s.setOut_routerOnly _ _
    · exact (s.report_linksOnly _ _).routerOnly
  · exact RouterOnly.refl s

theorem State.offerCoalescible_routerOnly (s : State) (o : OutPort) (m : OutMsg) :
    RouterOnly s (s.offerCoalescible o m).1 := by
  unfold State.offerCoalescible
  simp only
  split
  · split
    · exact s.setOut_routerOnly _ _
    · split
      · exact s.setOut_routerOnly _ _
      · exact (s.report_linksOnly _ _).routerOnly
  · exact RouterOnly.refl s

/-! ## Program entries, staging and swaps -/

theorem State.sendProgram_routerOnly (s : State) (e : ProgEntry) : RouterOnly s (s.sendProgram e).1 := by
  unfold State.sendProgram
  split
  · exact s.offerGroup_routerOnly _ _
  · exact (s.mirrorLive_watchOnly _).routerOnly

theorem State.sendPrograms_routerOnly (s : State) (es : List ProgEntry) : RouterOnly s (s.sendPrograms es).1 := by
  unfold State.sendPrograms
  refine foldl_rel (fun (a b : State × Bool) => RouterOnly a.1 b.1) (fun a => RouterOnly.refl a.1)
    (fun h k => RouterOnly.trans h k) ?_ es (s, false)
  intro a e
  exact a.1.sendProgram_routerOnly e

theorem State.stage_routerOnly (s : State) (n : Nat) (p : SwapPoint) (o : Origin) : RouterOnly s (s.stage n p o) :=
  s.router_routerOnly _ _ _ _

theorem State.settleClaim_routerOnly (s : State) : RouterOnly s s.settleClaim := by
  unfold State.settleClaim
  split
  · exact (s.stage_routerOnly _ _ _).trans (State.router_routerOnly _ _ _ _ _)
  · exact RouterOnly.refl s

theorem State.unstage_routerOnly (s : State) : RouterOnly s s.unstage :=
  (s.router_routerOnly _ _ _ _).trans (State.settleClaim_routerOnly _)

theorem State.stageCommand_routerOnly (s : State) (c n : Nat) : RouterOnly s (s.stageCommand c n) := by
  unfold State.stageCommand
  simp only
  split
  · split
    · exact s.router_routerOnly _ _ _ _
    · exact (s.router_routerOnly _ _ _ _).trans (State.stage_routerOnly _ _ _ _)
  · exact (s.router_routerOnly _ _ _ _).trans (State.stage_routerOnly _ _ _ _)

theorem State.withdraw_routerOnly (s : State) (c : Nat) : RouterOnly s (s.withdraw c) := by
  have aux : ∀ u, RouterOnly s u → RouterOnly s (if u.lr.staged.map Staging.origin = some (.cue c) then u.unstage else u) := by
    intro u h
    split
    · exact h.trans (State.unstage_routerOnly _)
    · exact h
  refine aux _ ?_
  split
  · exact s.router_routerOnly _ _ _ _
  · exact RouterOnly.refl s

theorem State.swap_routerOnly (s : State) (g : Staging) (h : s.lr.lock = none) : RouterOnly s (s.swap g) := by
  have h1 : RouterOnly s (s.makeLive g) := routerOnly_of s _ s.op (.inl h)
  unfold State.swap
  exact ((h1.trans (State.sendPrograms_routerOnly _ _)).trans
    (State.sceneNotice_linksOnly _ _ _ _).routerOnly).trans (State.unstage_routerOnly _)

theorem State.skip_routerOnly (s : State) (g : Staging) : RouterOnly s (s.skip g) := by
  unfold State.skip
  exact ((State.router_routerOnly s _ _ _ _).trans (State.sceneNotice_linksOnly _ _ _ _).routerOnly).trans
    (State.settleClaim_routerOnly _)

theorem State.reachPoint_routerOnly (s : State) (g : Staging) : RouterOnly s (s.reachPoint g) := by
  unfold State.reachPoint
  split
  · next h => exact s.swap_routerOnly g h
  · exact s.skip_routerOnly g

theorem State.routerBeat_routerOnly (s : State) (b : Bool) : RouterOnly s (s.routerBeat b) := by
  unfold State.routerBeat
  split
  · exact RouterOnly.refl s
  · split
    · exact s.reachPoint_routerOnly _
    · split
      · exact s.reachPoint_routerOnly _
      · exact RouterOnly.refl s
    · exact RouterOnly.refl s
    · exact RouterOnly.refl s

theorem State.swapCommand_routerOnly (s : State) (c n : Nat) : RouterOnly s (s.swapCommand c n).1 := by
  unfold State.swapCommand
  split
  · next h =>
    split
    · split
      · exact s.swap_routerOnly _ h
      · exact (s.router_routerOnly _ _ _ _).trans (State.swap_routerOnly _ _ h)
    · exact (s.router_routerOnly _ _ _ _).trans (State.swap_routerOnly _ _ h)
  · exact (s.router_routerOnly _ _ _ _).trans (State.sceneNotice_linksOnly _ _ _ _).routerOnly

theorem State.restartMap_routerOnly (s : State) : RouterOnly s s.restartMap := by
  unfold State.restartMap
  simp only
  split
  · exact s.router_routerOnly _ _ _ _
  · exact (s.router_routerOnly _ _ _ _).trans (State.releaseLock_watchOnly _).routerOnly

/-! ## Notes -/

theorem State.releaseTarget_routerOnly (s : State) (p : PerStation Bool) (r : Nat) (t : Target) :
    RouterOnly s (s.releaseTarget p r t) := by
  unfold State.releaseTarget
  split
  · exact s.offerNoteOff_routerOnly _ _ _ _
  · exact (s.mirrorOff_watchOnly _ _).routerOnly

theorem State.releaseTargets_routerOnly (s : State) (p : PerStation Bool) (r : Nat) (ts : List Target) :
    RouterOnly s (s.releaseTargets p r ts) := by
  unfold State.releaseTargets
  exact foldl_rel RouterOnly RouterOnly.refl RouterOnly.trans (fun s t => s.releaseTarget_routerOnly p r t) ts s

theorem State.releaseEntry_routerOnly (s : State) (e : HeldEntry) (r : Nat) : RouterOnly s (s.releaseEntry e r) := by
  unfold State.releaseEntry
  exact (s.router_routerOnly _ _ _ _).trans (State.releaseTargets_routerOnly _ _ _ _)

theorem State.releaseWhere_routerOnly (p : HeldEntry → Bool) (r : HeldEntry → Nat) :
    ∀ (n : Nat) (s : State), RouterOnly s (State.releaseWhere p r n s)
  | 0, s => RouterOnly.refl s
  | n + 1, s => by
    unfold State.releaseWhere
    split
    · exact RouterOnly.refl s
    · exact (s.releaseEntry_routerOnly _ _).trans (State.releaseWhere_routerOnly p r n _)

theorem State.releaseAll_routerOnly (s : State) (p : HeldEntry → Bool) (r : HeldEntry → Nat) :
    RouterOnly s (s.releaseAll p r) := State.releaseWhere_routerOnly p r _ s

theorem State.retrigger_routerOnly (s : State) (i : InPort) (c : Chan) (k : Nat) : RouterOnly s (s.retrigger i c k) := by
  unfold State.retrigger
  split
  · exact s.releaseEntry_routerOnly _ _
  · exact RouterOnly.refl s

theorem State.steal_routerOnly (s : State) : RouterOnly s s.steal := by
  unfold State.steal
  split
  · exact RouterOnly.refl s
  · split
    · exact (s.releaseEntry_routerOnly _ _).trans (State.report_linksOnly _ _ _).routerOnly
    · split
      · exact (s.releaseEntry_routerOnly _ _).trans (State.report_linksOnly _ _ _).routerOnly
      · exact RouterOnly.refl s

theorem offerCandidate_routerOnly (a : NoteOffers) (t : Target) : RouterOnly a.state (offerCandidate a t).state := by
  unfold offerCandidate
  split
  · simp only
    split <;> exact a.state.offerNoteOn_routerOnly _ _ _ _
  · exact (a.state.mirrorLive_watchOnly _).routerOnly

theorem State.sound_routerOnly (s : State) (i : InPort) (c : Chan) (k : Nat) (ts : List Target) :
    RouterOnly s (s.sound i c k ts) := by
  unfold State.sound
  have h := foldl_rel (fun (a b : NoteOffers) => RouterOnly a.state b.state) (fun a => RouterOnly.refl a.state)
    (fun h k => RouterOnly.trans h k) (fun a t => offerCandidate_routerOnly a t) ts
    { state := s, targets := [], pend := ⟨false, false⟩ }
  simp only at h ⊢
  split
  · exact h
  · exact h.trans (State.router_routerOnly _ _ _ _ _)

theorem State.noteOnEvent_routerOnly (s : State) (i : InPort) (c : Chan) (k v : Nat) :
    RouterOnly s (s.noteOnEvent i c k v) := by
  unfold State.noteOnEvent
  simp only
  split
  · exact s.retrigger_routerOnly i c k
  · exact ((s.retrigger_routerOnly i c k).trans (State.steal_routerOnly _)).trans (State.sound_routerOnly _ _ _ _ _)

theorem State.sustainEntry_routerOnly (s : State) (e : HeldEntry) (r : Nat) : RouterOnly s (s.sustainEntry e r) := by
  unfold State.sustainEntry
  exact (s.router_routerOnly _ _ _ _).trans (State.releaseTargets_routerOnly _ _ _ _)

theorem State.noteOffEvent_routerOnly (s : State) (i : InPort) (c : Chan) (k r : Nat) (b : Bool) :
    RouterOnly s (s.noteOffEvent i c k r b) := by
  unfold State.noteOffEvent
  split
  · exact RouterOnly.refl s
  · split
    · exact RouterOnly.refl s
    · split
      · exact s.sustainEntry_routerOnly _ _
      · exact s.releaseEntry_routerOnly _ _

theorem State.sustainEvent_routerOnly (s : State) (i : InPort) (c : Chan) (b : Bool) :
    RouterOnly s (s.sustainEvent i c b) := by
  unfold State.sustainEvent
  split
  · exact RouterOnly.refl s
  · exact s.releaseAll_routerOnly _ _

theorem State.allNotesOffEvent_routerOnly (s : State) (i : InPort) (c : Chan) : RouterOnly s (s.allNotesOffEvent i c) :=
  s.releaseAll_routerOnly _ _

theorem State.inputLostEvent_routerOnly (s : State) (i : InPort) : RouterOnly s (s.inputLostEvent i) :=
  (s.releaseAll_routerOnly _ _).trans (State.router_routerOnly _ _ _ _ _)

theorem State.restartNotes_routerOnly (s : State) : RouterOnly s s.restartNotes := s.releaseAll_routerOnly _ _

/-! ## Controllers -/

theorem State.sendCoalescible_routerOnly (s : State) (d : Dest) (m : OutMsg) (e : Event) :
    RouterOnly s (s.sendCoalescible d m e) := by
  unfold State.sendCoalescible
  split
  · exact s.offerCoalescible_routerOnly _ _
  · exact (s.mirrorLive_watchOnly _).routerOnly

theorem State.sendSlot_routerOnly (s : State) (k : SlotKey) (f : Nat) : RouterOnly s (s.sendSlot k f) := by
  unfold State.sendSlot
  exact foldl_rel RouterOnly RouterOnly.refl RouterOnly.trans (fun s y => s.sendCoalescible_routerOnly _ _ _) _ s

theorem State.slotTakes_routerOnly (s : State) (k : SlotKey) (v a d m : Nat) : RouterOnly s (s.slotTakes k v a d m) := by
  unfold State.slotTakes
  simp only
  split
  · exact s.router_routerOnly _ _ _ _
  · split
    · split
      · exact (s.router_routerOnly _ _ _ _).trans (State.sendSlot_routerOnly _ _ _)
      · exact s.router_routerOnly _ _ _ _
    · exact s.router_routerOnly _ _ _ _

theorem State.slotExpiry_routerOnly (s : State) (k : SlotKey) : RouterOnly s (s.slotExpiry k) := by
  unfold State.slotExpiry
  split
  · exact RouterOnly.refl s
  · split
    · exact RouterOnly.refl s
    · simp only
      split
      · exact s.router_routerOnly _ _ _ _
      · exact (s.router_routerOnly _ _ _ _).trans (State.sendSlot_routerOnly _ _ _)

theorem State.forwardTimeExpiry_routerOnly (s : State) (k : SlotKey) : RouterOnly s (s.forwardTimeExpiry k) := by
  unfold State.forwardTimeExpiry
  split
  · exact RouterOnly.refl s
  · exact s.router_routerOnly _ _ _ _

theorem State.bendEvent_routerOnly (s : State) (i : InPort) (c : Chan) (v : Nat) : RouterOnly s (s.bendEvent i c v) := by
  unfold State.bendEvent
  exact foldl_rel RouterOnly RouterOnly.refl RouterOnly.trans (fun s y => s.sendCoalescible_routerOnly _ _ _) _ s

theorem State.programEvent_routerOnly (s : State) (i : InPort) (c : Chan) (p : Nat) :
    RouterOnly s (s.programEvent i c p) := by
  unfold State.programEvent
  exact foldl_rel RouterOnly RouterOnly.refl RouterOnly.trans (fun s y => s.sendProgram_routerOnly _) _ s

/-! ## Inputs -/

/-- Everything but the links' queues, the Fault Log, the watch, the router, the inputs and the outputs is as it was. -/
structure PortsOnly (s t : State) : Prop extends Calm s t where
  te : t.te = s.te
  ck : t.ck = s.ck
  cs : t.cs = s.cs

theorem PortsOnly.refl (s : State) : PortsOnly s s := ⟨Calm.refl s, rfl, rfl, rfl⟩

theorem PortsOnly.trans {s t u : State} (h : PortsOnly s t) (k : PortsOnly t u) : PortsOnly s u :=
  ⟨h.toCalm.trans k.toCalm, k.te.trans h.te, k.ck.trans h.ck, k.cs.trans h.cs⟩

theorem RouterOnly.portsOnly {s t : State} (h : RouterOnly s t) : PortsOnly s t := ⟨h.toCalm, h.te, h.ck, h.cs⟩

theorem portsOnly_of (s : State) (i : PerIn MidiIn) (o : PerOut MidiOut) (r : LayerRouter) (h : MapKept s.lr r) :
    PortsOnly s { s with ip := i, op := o, lr := r } :=
  ⟨⟨fun _ => Noticed.refl _, id, rfl, id, rfl, rfl, rfl, rfl, rfl, h⟩, rfl, rfl, rfl⟩

theorem State.setIn_portsOnly (s : State) (i : InPort) (x : MidiIn) : PortsOnly s (s.setIn i x) :=
  portsOnly_of s _ s.op s.lr (MapKept.refl _)

theorem State.byteSeen_portsOnly (s : State) (i : InPort) (b : Bool) : PortsOnly s (s.byteSeen i b) :=
  s.setIn_portsOnly _ _

theorem State.sustainMessage_portsOnly (s : State) (i : InPort) (c : Chan) (v : Nat) :
    PortsOnly s (s.sustainMessage i c v) := by
  unfold State.sustainMessage
  simp only
  split
  · exact PortsOnly.refl s
  · exact (s.setIn_portsOnly _ _).trans (State.sustainEvent_routerOnly _ _ _ _).portsOnly

theorem State.handleMessage_portsOnly (s : State) (i : InPort) (c : Chan) (m : ChanMsg) :
    PortsOnly s (s.handleMessage i c m) := by
  cases m with
  | noteOn k v =>
    simp only [State.handleMessage]
    split
    · exact (s.noteOffEvent_routerOnly _ _ _ _ _).portsOnly
    · exact (s.noteOnEvent_routerOnly _ _ _ _).portsOnly
  | noteOff k v => exact (s.noteOffEvent_routerOnly _ _ _ _ _).portsOnly
  | polyPressure k v => exact PortsOnly.refl s
  | control n v =>
    simp only [State.handleMessage]
    split
    · exact s.sustainMessage_portsOnly _ _ _
    · split
      · exact (s.allNotesOffEvent_routerOnly _ _).portsOnly
      · split
        · exact PortsOnly.refl s
        · exact (s.slotTakes_routerOnly _ _ _ _ _).portsOnly
  | program p => exact (s.programEvent_routerOnly _ _ _).portsOnly
  | pressure v => exact (s.slotTakes_routerOnly _ _ _ _ _).portsOnly
  | bend a b => exact (s.bendEvent_routerOnly _ _ _).portsOnly

theorem State.completeMessage_portsOnly (s : State) (i : InPort) (c : Chan) (m : ChanMsg) :
    PortsOnly s (s.completeMessage i c m) := by
  unfold State.completeMessage
  split
  · exact s.handleMessage_portsOnly i c m
  · split
    · exact s.handleMessage_portsOnly i c m
    · exact PortsOnly.refl s

theorem State.midiByte_portsOnly (s : State) (i : InPort) (b : Byte) : PortsOnly s (s.midiByte i b) := by
  unfold State.midiByte
  split
  · simp only
    split
    · exact s.byteSeen_portsOnly i _
    · split
      · exact (s.byteSeen_portsOnly i _).trans (State.setIn_portsOnly _ _ _)
      · split
        · exact (s.byteSeen_portsOnly i _).trans (State.setIn_portsOnly _ _ _)
        · exact ((s.byteSeen_portsOnly i _).trans (State.setIn_portsOnly _ _ _)).trans
            (State.completeMessage_portsOnly _ _ _ _)
  · exact PortsOnly.refl s

theorem State.midiBytes_portsOnly (s : State) (i : InPort) (bs : List Byte) : PortsOnly s (s.midiBytes i bs) := by
  unfold State.midiBytes
  exact foldl_rel PortsOnly PortsOnly.refl PortsOnly.trans (fun s b => s.midiByte_portsOnly i b) bs s

theorem State.messageArrives_portsOnly (s : State) (i : InPort) (c : Chan) (m : ChanMsg) :
    PortsOnly s (s.messageArrives i c m) := by
  unfold State.messageArrives
  split
  · exact ((s.byteSeen_portsOnly i _).trans (State.setIn_portsOnly _ _ _)).trans (State.completeMessage_portsOnly _ _ _ _)
  · exact PortsOnly.refl s

theorem State.framingError_portsOnly (s : State) (i : InPort) : PortsOnly s (s.framingError i) := by
  unfold State.framingError
  split
  · exact ((s.byteSeen_portsOnly i _).trans (State.setIn_portsOnly _ _ _)).trans
      (State.report_linksOnly _ _ _).routerOnly.portsOnly
  · exact PortsOnly.refl s

theorem State.sensingLoss_portsOnly (s : State) (i : InPort) : PortsOnly s (s.sensingLoss i) := by
  unfold State.sensingLoss
  simp only
  split
  · exact ((s.setIn_portsOnly _ _).trans (State.inputLostEvent_routerOnly _ _).portsOnly).trans
      (State.report_linksOnly _ _ _).routerOnly.portsOnly
  · exact PortsOnly.refl s

theorem State.dropChannel_portsOnly (s : State) (i : InPort) (c : Chan) : PortsOnly s (s.dropChannel i c) :=
  (s.setIn_portsOnly _ _).trans (State.allNotesOffEvent_routerOnly _ _ _).portsOnly

theorem State.applyInput_portsOnly (s : State) (i : InPort) (t : InSettings) : PortsOnly s (s.applyInput i t) := by
  unfold State.applyInput
  simp only
  split
  · exact (s.setIn_portsOnly _ _).trans (State.inputLostEvent_routerOnly _ _).portsOnly
  · exact s.setIn_portsOnly _ _
  · exact (s.setIn_portsOnly _ _).trans
      (foldl_rel PortsOnly PortsOnly.refl PortsOnly.trans (fun s c => s.dropChannel_portsOnly i c) _ _)
  · exact s.setIn_portsOnly _ _

theorem State.panic_portsOnly (s : State) : PortsOnly s s.panic := by
  have h : PortsOnly s { s with op := s.op.map (MidiOut.panic · s.now) } := (routerOnly_of s s.lr _ (MapKept.refl _)).portsOnly
  exact (h.trans (State.panicStations_watchOnly _).routerOnly.portsOnly).trans (portsOnly_of _ _ _ _ (.inr ⟨rfl, rfl⟩))

end Sys2Proof.Machine
end

