-- ==== Sys2Proof/Laws/Engine.lean ====
section
/-! SUPPORT. The Tempo Engine, the Click Generator and the Cue Sequencer keep what the manual promises of the engine's
stopped position and tick-in-beat (`Whole`), whatever they do. -/

namespace Sys2Proof.Machine

/-- `Calm`, and the engine stays as the manual promises. -/
structure Whole (s t : State) : Prop extends Calm s t where
  engine : s.te.ok = true → t.te.ok = true

theorem Whole.refl (s : State) : Whole s s := ⟨Calm.refl s, id⟩

theorem Whole.trans {s t u : State} (h : Whole s t) (k : Whole t u) : Whole s u :=
  ⟨h.toCalm.trans k.toCalm, fun x => k.engine (h.engine x)⟩

theorem PortsOnly.whole {s t : State} (h : PortsOnly s t) : Whole s t := ⟨h.toCalm, by rw [h.te]; exact id⟩
theorem RouterOnly.whole {s t : State} (h : RouterOnly s t) : Whole s t := h.portsOnly.whole
theorem WatchOnly.whole {s t : State} (h : WatchOnly s t) : Whole s t := h.routerOnly.whole
theorem LinksOnly.whole {s t : State} (h : LinksOnly s t) : Whole s t := h.watchOnly.whole

theorem State.withTe_whole (s : State) (te : TempoEngine) (h : s.te.ok = true → te.ok = true) : Whole s (s.withTe te) :=
  ⟨⟨fun _ => Noticed.refl _, id, rfl, id, rfl, rfl, rfl, rfl, rfl, MapKept.refl _⟩, h⟩

/-- Changes of the Click Generator and the Cue Sequencer alone. -/
theorem whole_of (s : State) (c : ClickGen) (q : CueSeq) : Whole s { s with ck := c, cs := q } :=
  ⟨⟨fun _ => Noticed.refl _, id, rfl, id, rfl, rfl, rfl, rfl, rfl, MapKept.refl _⟩, id⟩

theorem State.withCs_whole (s : State) (q : CueSeq) : Whole s (s.withCs q) := whole_of s s.ck q

theorem State.handRealTime_routerOnly (s : State) (b : Byte) : RouterOnly s (s.handRealTime b) := routerOnly_of s s.lr _ (MapKept.refl _)

/-! ## Click Generator -/

theorem State.setBus_whole (s : State) (b : Bus) (x : ClickBus) : Whole s (s.setBus b x) := whole_of s _ s.cs
theorem State.askClick_whole (s : State) (b : Bus) (c : ClickChange) : Whole s (s.askClick b c) := s.setBus_whole _ _
theorem State.askPatterns_whole (s : State) (p q : Option Nat) : Whole s (s.askPatterns p q) :=
  (s.askClick_whole _ _).trans (State.askClick_whole _ _ _)
theorem State.clickBeat_whole (s : State) (e : BeatEvent) : Whole s (s.clickBeat e) := whole_of s _ s.cs
theorem State.clickTick_whole (s : State) (t : Nat) : Whole s (s.clickTick t) := whole_of s _ s.cs
theorem State.sampleBuses_whole (s : State) : Whole s s.sampleBuses := whole_of s _ s.cs
theorem State.restartClick_whole (s : State) : Whole s s.restartClick := whole_of s _ s.cs

/-! ## Tempo Engine -/

theorem TempoEngine.ok_of_ticking {te : TempoEngine} (h : te.transport.ticking = true) (k : te.pos.tick ≤ 479) :
    te.ok = true := by
  simp [TempoEngine.ok, h, k]

theorem TempoEngine.tick_le (te : TempoEngine) (h : te.ok = true) : te.pos.tick ≤ 479 := by
  simp [TempoEngine.ok] at h
  exact h.1

theorem TempoEngine.stopAt_ok (te : TempoEngine) (bar : Int) : (te.stopAt bar).ok = true := by
  simp [TempoEngine.ok, TempoEngine.stopAt]

theorem State.setTempo_whole (s : State) (t : Nat) : Whole s (s.setTempo t) := by
  have h : Whole s (s.withTe { s.te with tempo := t, ramp := none }) :=
    s.withTe_whole _ (by simp only [TempoEngine.ok, Bool.and_eq_true, Bool.or_eq_true]; tauto)
  unfold State.setTempo
  simp only
  split
  · exact h.trans (State.tempoNotice_linksOnly _).whole
  · exact h

theorem State.rampTempo_whole (s : State) (t b : Nat) : Whole s (s.rampTempo t b) := by
  unfold State.rampTempo
  split
  · next h =>
    refine Whole.trans ?_ (State.tempoNotice_linksOnly _).whole
    exact s.withTe_whole _ (fun k => TempoEngine.ok_of_ticking h (TempoEngine.tick_le s.te k))
  · refine Whole.trans ?_ (State.tempoNotice_linksOnly _).whole
    exact s.withTe_whole _ id

theorem State.rampStep_whole (s : State) : Whole s s.rampStep := by
  unfold State.rampStep
  split
  · exact Whole.refl s
  · next r hr =>
    simp only
    split
    · refine Whole.trans ?_ (State.tempoNotice_linksOnly _).whole
      exact s.withTe_whole _ (by simp only [TempoEngine.ok, Bool.and_eq_true, Bool.or_eq_true]; tauto)
    · refine s.withTe_whole _ (fun k => ?_)
      simp only [TempoEngine.ok, hr] at k ⊢
      simpa using k

theorem State.setMeter_whole (s : State) (b : Nat) : Whole s (s.setMeter b) := by
  unfold State.setMeter
  split
  · exact s.withTe_whole _ id
  · exact s.withTe_whole _ id

theorem State.stopNotices_routerOnly (s : State) (b : Bool) : RouterOnly s (s.stopNotices b) := by
  have aux : ∀ u, RouterOnly u ((if b then u.tempoNotice else u).transportNotice) := by
    intro u
    split
    · exact ((State.tempoNotice_linksOnly u).trans (State.transportNotice_linksOnly _)).routerOnly
    · exact (State.transportNotice_linksOnly _).routerOnly
  exact (s.handRealTime_routerOnly _).trans (aux _)

/-- Changes of the engine and the sequencer alone. -/
theorem engine_whole_of (s : State) (te : TempoEngine) (q : CueSeq) (h : s.te.ok = true → te.ok = true) :
    Whole s { s with te := te, cs := q } :=
  ⟨⟨fun _ => Noticed.refl _, id, rfl, id, rfl, rfl, rfl, rfl, rfl, MapKept.refl _⟩, h⟩

theorem State.stopNow_whole (s : State) : Whole s s.stopNow := by
  unfold State.stopNow
  split
  · refine Whole.trans ?_ (State.stopNotices_routerOnly _ _).whole
    exact engine_whole_of s _ _ (fun _ => by simp [TempoEngine.ok, TempoEngine.stopAt])
  · exact Whole.refl s

theorem State.stopAtBar_whole (s : State) : Whole s s.stopAtBar := by
  unfold State.stopAtBar
  split
  · refine Whole.trans ?_ (State.transportNotice_linksOnly _).whole
    exact s.withTe_whole _ (fun k => TempoEngine.ok_of_ticking rfl (TempoEngine.tick_le s.te k))
  · exact s.stopNow_whole
  · exact Whole.refl s
  · exact Whole.refl s

theorem State.engineSong_whole (s : State) (g : Song) : Whole s (s.engineSong g) := by
  have aux : ∀ (u : State) (p : Prop) [Decidable p], Whole u ((if p then u.tempoNotice else u).transportNotice) := by
    intro u p _
    split
    · exact ((State.tempoNotice_linksOnly u).trans (State.transportNotice_linksOnly _)).whole
    · exact (State.transportNotice_linksOnly _).whole
  refine (s.withTe_whole _ (fun k => ?_)).trans (aux _ _)
  simp only [TempoEngine.ok, Bool.and_eq_true, Bool.or_eq_true] at k ⊢
  obtain ⟨h1, h2 | h2⟩ := k
  · exact ⟨by simp, .inl h2⟩
  · refine ⟨by simp, .inr ?_⟩
    simp only [decide_eq_true_eq] at h2 ⊢
    exact ⟨⟨⟨trivial, trivial, h2.1.1.2.2.1, h2.1.1.2.2.2⟩, h2.1.2⟩, h2.2⟩

theorem State.engineSegue_whole (s : State) (g : Song) : Whole s (s.engineSegue g) := s.withTe_whole _ id

theorem State.restartTempo_whole (s : State) : Whole s s.restartTempo := by
  have aux1 : ∀ (u : State) (p : Prop) [Decidable p], Whole u (if p then u.handRealTime stopByte else u) := by
    intro u p _
    split
    · exact (u.handRealTime_routerOnly _).whole
    · exact Whole.refl u
  have aux2 : ∀ (u : State) (p : Prop) [Decidable p], Whole u (if p then u.transportNotice else u) := by
    intro u p _
    split
    · exact (State.transportNotice_linksOnly _).whole
    · exact Whole.refl u
  have aux3 : ∀ (u : State) (p : Prop) [Decidable p], Whole u (if p then u.tempoNotice else u) := by
    intro u p _
    split
    · exact (State.tempoNotice_linksOnly _).whole
    · exact Whole.refl u
  exact (((s.withTe_whole _ (fun _ => by simp [TempoEngine.ok])).trans (aux1 _ _)).trans (aux2 _ _)).trans (aux3 _ _)

/-! ## Cue Sequencer -/

theorem State.leadCheck_whole (s : State) : Whole s s.leadCheck := by
  unfold State.leadCheck
  split
  · exact Whole.refl s
  · split
    · simp only
      split
      · exact (s.withCs_whole _).trans (State.cueNotice_linksOnly _ _).whole
      · exact Whole.refl s
    · exact Whole.refl s
    · exact Whole.refl s

theorem State.endSong_whole (s : State) : Whole s s.endSong := s.withCs_whole _

theorem State.reportCue_linksOnly (s : State) (k : FaultKind) (p : Option BarBeat) : LinksOnly s (s.reportCue k p) :=
  s.reportAt_linksOnly _ _ _

theorem State.becomeCurrent_whole (s : State) (n : Nat) (b : Bool) (p : Option BarBeat) :
    Whole s (s.becomeCurrent n b p) := by
  unfold State.becomeCurrent
  split
  · exact s.endSong_whole.trans (State.reportCue_linksOnly _ _ _).whole
  · simp only
    refine Whole.trans ?_ (State.leadCheck_whole _)
    split
    · exact (s.withCs_whole _).trans (State.stageCommand_routerOnly _ _ _).whole
    · exact s.withCs_whole _

theorem State.dropCurrent_whole (s : State) : Whole s s.dropCurrent := by
  unfold State.dropCurrent
  refine Whole.trans ?_ (State.withCs_whole _ _)
  split
  · split
    · exact (s.withdraw_routerOnly _).whole
    · exact Whole.refl s
  · exact Whole.refl s

theorem State.songSelect_whole (s : State) (p n : Nat) (g : Song) (q : Option BarBeat) :
    Whole s (s.songSelect p n g q) := by
  unfold State.songSelect
  simp only
  have h := ((s.dropCurrent_whole.trans (State.withCs_whole _ { s.dropCurrent.cs with setPos := some p, song := some n })).trans
    (State.engineSong_whole _ g)).trans (State.askPatterns_whole _ (some g.band) (some g.keys))
  split
  · exact h.trans (State.endSong_whole _)
  · exact h.trans (State.becomeCurrent_whole _ _ _ _)

theorem State.nextSong_whole (s : State) (c : Bool) (q : Option BarBeat) : Whole s (s.nextSong c q).1 := by
  unfold State.nextSong
  simp only
  split
  · exact s.endSong_whole
  · split
    · exact (s.reportCue_linksOnly _ _).whole.trans (State.endSong_whole _)
    · split
      · exact s.songSelect_whole _ _ _ _
      · split
        · exact (s.withCs_whole _).trans (State.endSong_whole _)
        · exact ((s.engineSegue_whole _).trans (State.withCs_whole _ _)).trans (State.endSong_whole _)

theorem State.doAction_whole (s : State) (c : Latched) (b : Bool) (q : Option BarBeat) : Whole s (s.doAction c b q).1 := by
  unfold State.doAction
  split
  · exact Whole.refl s
  · exact (s.swapCommand_routerOnly _ _).whole
  · split
    · exact Whole.refl s
    · exact s.setTempo_whole _
  · split
    · exact Whole.refl s
    · exact s.rampTempo_whole _ _
  · exact s.setMeter_whole _
  · exact s.askPatterns_whole _ _
  · exact (s.sendPrograms_routerOnly _).whole
  · exact (s.cueNotice_linksOnly _).whole
  · exact s.stopNow_whole
  · exact s.stopAtBar_whole
  · exact s.nextSong_whole _ _

theorem State.writeStatus_whole (s : State) (n : Nat) (r : CueResult) : Whole s (s.writeStatus n r) := by
  unfold State.writeStatus
  split
  · exact Whole.refl s
  · exact s.withCs_whole _

theorem State.moveOn_whole (s : State) (c : Cue) (q : Option BarBeat) : Whole s (s.moveOn c q) := by
  unfold State.moveOn
  simp only
  split
  · exact (s.withCs_whole _).trans (State.endSong_whole _)
  · split
    · split
      · exact ((s.withCs_whole _).trans (State.endSong_whole _)).trans (State.reportCue_linksOnly _ _ _).whole
      · exact (s.withCs_whole _).trans (State.withCs_whole _ _)
    · exact (s.withCs_whole _).trans (State.becomeCurrent_whole _ _ _ _)

theorem State.completeCue_whole (s : State) (c : Latched) (late closing : Bool) (q : Option BarBeat) :
    Whole s (s.completeCue c late closing q) := by
  have aux1 : ∀ u : State, Whole u (if late then u.reportCue .late q else u) := by
    intro u
    split
    · exact (u.reportCue_linksOnly _ _).whole
    · exact Whole.refl u
  have aux2 : ∀ (u : State) (n : Notice), Whole u (if c.record.isNotify then u.cueNotice n else u) := by
    intro u n
    split
    · exact (u.cueNotice_linksOnly _).whole
    · exact Whole.refl u
  have aux3 : ∀ u : State, Whole u (match c.record.action with | .nextSong => u | _ => u.moveOn c.record q) := by
    intro u
    split
    · exact Whole.refl u
    · exact u.moveOn_whole _ _
  exact ((((s.doAction_whole c closing q).trans (State.writeStatus_whole _ _ _)).trans (aux1 _)).trans (aux2 _ _)).trans
    (aux3 _)

theorem State.chain_whole (closing : Bool) (q : Option BarBeat) : ∀ (n : Nat) (s : State), Whole s (State.chain closing q n s)
  | 0, s => Whole.refl s
  | n + 1, s => by
    unfold State.chain
    split
    · exact Whole.refl s
    · split
      · exact (s.completeCue_whole _ _ _ _).trans (State.chain_whole closing q n _)
      · exact (s.reportCue_linksOnly _ _).whole

theorem State.fire_whole (s : State) (c : Latched) (late closing : Bool) (q : Option BarBeat) :
    Whole s (s.fire c late closing q) :=
  ((s.withCs_whole _).trans (State.completeCue_whole _ _ _ _ _)).trans (State.chain_whole _ _ _ _)

theorem State.applySegueRecord_whole (s : State) (q : Option BarBeat) : Whole s (s.applySegueRecord q) := by
  unfold State.applySegueRecord
  split
  · exact Whole.refl s
  · simp only
    split
    · exact (s.withCs_whole _).trans (State.askPatterns_whole _ _ _)
    · exact ((s.withCs_whole _).trans (State.askPatterns_whole _ _ _)).trans (State.becomeCurrent_whole _ _ _ _)

theorem State.sequencerBeat_whole (s : State) (ev : BeatEvent) : Whole s (s.sequencerBeat ev) := by
  have aux1 : ∀ u : State, Whole u (if ev.isBar then u.applySegueRecord (some ⟨ev.bar, ev.beat⟩) else u) := by
    intro u
    split
    · exact u.applySegueRecord_whole _
    · exact Whole.refl u
  have aux2 : ∀ u : State, Whole u (if u.cs.state = .waiting then u.leadCheck else u) := by
    intro u
    split
    · exact u.leadCheck_whole
    · exact Whole.refl u
  have h := ((s.withCs_whole { s.cs with boundary := 0, chained := false }).trans (aux1 _)).trans (aux2 _)
  have aux3 : ∀ u : State, Whole s u → Whole s
      (if u.cs.state = .waiting ∧ (ev.transport = .running ∨ ev.transport = .stopping) then
        match u.cs.current with
        | none => u
        | some c =>
          match firing u.cs c.record ev.bar ev.beat with
          | some late => u.fire c late ev.closing (some ⟨ev.bar, ev.beat⟩)
          | none => u
      else u) := by
    intro u hu
    split
    · split
      · exact hu
      · split
        · exact hu.trans (State.fire_whole _ _ _ _ _)
        · exact hu
    · exact hu
  exact aux3 _ h

theorem State.sequencerClosed_whole (s : State) : Whole s s.sequencerClosed := by
  unfold State.sequencerClosed
  simp only
  split
  · exact s.withCs_whole _
  · split
    · exact s.withCs_whole _
    · split
      · exact s.withCs_whole _
      · exact (s.withCs_whole _).trans (State.songSelect_whole _ _ _ _ _)

theorem State.goStopped_whole (s : State) (c : Latched) : Whole s (s.goStopped c) :=
  (s.withCs_whole _).trans (State.fire_whole _ _ _ _ _)

theorem State.chaseCue_whole (s : State) (c : Latched) (b : Bool) : Whole s (s.chaseCue c b) := by
  unfold State.chaseCue
  simp only
  refine Whole.trans ?_ (State.writeStatus_whole _ _ _)
  split
  · split
    · exact Whole.refl s
    · exact s.doAction_whole _ _ _
  · exact Whole.refl s
  · exact Whole.refl s
  · exact Whole.refl s
  · exact Whole.refl s
  · exact s.doAction_whole _ _ _
  · exact s.doAction_whole _ _ _
  · exact s.doAction_whole _ _ _
  · exact s.doAction_whole _ _ _
  · exact s.doAction_whole _ _ _

theorem State.chaseCues_whole : ∀ (cs : List Latched) (s : State), Whole s (s.chaseCues cs)
  | [], s => Whole.refl s
  | c :: r, s => (s.chaseCue_whole c _).trans (State.chaseCues_whole r _)

theorem State.chase_whole (s : State) (bar : Nat) : Whole s (s.chase bar) := by
  have aux : ∀ (u : State) (f : Option FaultKind), Whole u (match f with | some k => u.report k none | none => u) := by
    intro u f
    split
    · exact (u.report_linksOnly _ _).whole
    · exact Whole.refl u
  unfold State.chase
  split
  · exact Whole.refl s
  · simp only
    split
    · exact s.dropCurrent_whole.trans (State.endSong_whole _)
    · split
      · exact ((s.dropCurrent_whole.trans (aux _ _)).trans (State.chaseCues_whole _ _)).trans (State.endSong_whole _)
      · exact ((s.dropCurrent_whole.trans (aux _ _)).trans (State.chaseCues_whole _ _)).trans
          (State.becomeCurrent_whole _ _ _ _)

theorem State.restartSequencer_whole (s : State) : Whole s s.restartSequencer := s.withCs_whole _

/-! ## Beats and ticks -/

theorem State.choose_whole (s : State) : Whole s s.choose := s.choose_watchOnly.whole

theorem State.takeBeat_whole (s : State) (ev : BeatEvent) (t : Taker) : Whole s (s.takeBeat ev t) := by
  cases t
  · exact s.clickBeat_whole ev
  · exact (s.routerBeat_routerOnly _).whole
  · exact s.sequencerBeat_whole ev
  · exact (s.beatNotice_linksOnly _ _ _ _).whole

theorem State.takeBeatAll_whole (s : State) (ev : BeatEvent) (o : List Taker) : Whole s (s.takeBeatAll ev o) := by
  unfold State.takeBeatAll
  exact foldl_rel Whole Whole.refl Whole.trans (fun s t => s.takeBeat_whole ev t) o s

theorem State.handOn_whole (s : State) (ev : BeatEvent) : Whole s (s.handOn ev) := by
  unfold State.handOn
  split
  · exact s.choose_whole.trans (State.takeBeatAll_whole _ _ _)
  · exact s.takeBeatAll_whole _ _

/-- The timing bytes of a beat event move outputs and q alone. -/
theorem State.beatBytes_te (s : State) (b : Bool) : (s.beatBytes b).te = { s.te with clockCount := 1 } := rfl

theorem State.beatBytes_whole (s : State) (b : Bool) (h : s.ticking = true) : Whole s (s.beatBytes b) := by
  have aux : ∀ u : State, u.te = s.te → Whole u ((u.handRealTime clockByte).withTe { s.te with clockCount := 1 }) := by
    intro u hu
    refine (u.handRealTime_routerOnly _).whole.trans (State.withTe_whole _ _ (fun k => ?_))
    have k' : s.te.ok = true := by rw [← hu]; exact k
    exact TempoEngine.ok_of_ticking h (TempoEngine.tick_le s.te k')
  unfold State.beatBytes
  simp only
  split
  · exact (s.handRealTime_routerOnly _).whole.trans (aux _ rfl)
  · exact aux s rfl

theorem State.tickBytes_whole (s : State) (t : Nat) (h : s.ticking = true) : Whole s (s.tickBytes t) := by
  unfold State.tickBytes
  simp only
  split
  · refine (s.handRealTime_routerOnly _).whole.trans (State.withTe_whole _ _ (fun k => ?_))
    exact TempoEngine.ok_of_ticking h (TempoEngine.tick_le s.te k)
  · exact Whole.refl s

theorem State.close_whole (s : State) : Whole s s.close := by
  unfold State.close
  split
  · exact ((s.withTe_whole _ (fun _ => TempoEngine.stopAt_ok _ _)).trans (State.stopNotices_routerOnly _ _).whole).trans
      (State.sequencerClosed_whole _)
  · exact Whole.refl s

theorem TempoEngine.barStep_ticking (te : TempoEngine) (h : te.transport.ticking = true) :
    te.barStep.transport.ticking = true := by
  unfold TempoEngine.barStep
  cases hs : te.segue with
  | none =>
    simp only
    split
    · rfl
    · exact h
  | some g =>
    simp only
    split
    · rfl
    · exact h

theorem TempoEngine.barStep_tick (te : TempoEngine) : te.barStep.pos.tick = 0 := by
  unfold TempoEngine.barStep
  cases te.segue <;> rfl

theorem State.beatOccurs_whole (s : State) (h : s.ticking = true) : Whole s s.beatOccurs := by
  have auxT : ∀ (u : State) (p : Prop) [Decidable p], LinksOnly u (if p then u.tempoNotice else u) := by
    intro u p _
    split
    · exact State.tempoNotice_linksOnly _
    · exact LinksOnly.refl u
  have auxR : ∀ (u : State) (p : Prop) [Decidable p], LinksOnly u (if p then u.transportNotice else u) := by
    intro u p _
    split
    · exact State.transportNotice_linksOnly _
    · exact LinksOnly.refl u
  have auxB : ∀ (u : State) (c b : Bool), u.ticking = true → Whole u (if c then u else u.beatBytes b) := by
    intro u c b hu
    split
    · exact Whole.refl u
    · exact u.beatBytes_whole b hu
  have auxC : ∀ (u : State) (c : Bool), Whole u (if c then u.close else u) := by
    intro u c
    split
    · exact u.close_whole
    · exact Whole.refl u
  unfold State.beatOccurs
  split
  · simp only
    have hb := TempoEngine.barStep_ticking s.te h
    have h1 : Whole s (s.withTe s.te.barStep) :=
      s.withTe_whole _ (fun _ => TempoEngine.ok_of_ticking hb (by rw [TempoEngine.barStep_tick]; omega))
    refine Whole.trans (Whole.trans (Whole.trans (Whole.trans (Whole.trans h1 (auxT _ _).whole) (auxR _ _).whole) (auxB _ _ _ ?_))
      (State.handOn_whole _ _)) (auxC _ _)
    unfold State.ticking
    rw [(auxR _ _).te, (auxT _ _).te]
    exact hb
  · simp only
    refine Whole.trans (Whole.trans ?_ (State.beatBytes_whole _ _ ?_)) (State.handOn_whole _ _)
    · exact s.withTe_whole _ (fun _ => TempoEngine.ok_of_ticking h (by simp))
    · exact h

theorem State.rampStep_transport (s : State) : s.rampStep.te.transport = s.te.transport := by
  unfold State.rampStep
  split
  · rfl
  · simp only
    split
    · rw [(State.tempoNotice_linksOnly _).te]; rfl
    · rfl

theorem State.tickOccurs_whole (s : State) (h : s.ticking = true) : Whole s s.tickOccurs := by
  have hr : s.rampStep.ticking = true := by unfold State.ticking; rw [State.rampStep_transport]; exact h
  unfold State.tickOccurs
  simp only
  split
  · exact s.rampStep_whole.trans (State.beatOccurs_whole _ hr)
  · next ht =>
    refine Whole.trans (Whole.trans (Whole.trans s.rampStep_whole (State.withTe_whole _ _ (fun _ => ?_))) (State.clickTick_whole _ _))
      (State.tickBytes_whole _ _ ?_)
    · exact TempoEngine.ok_of_ticking hr (by simp only; omega)
    · exact hr

theorem State.tick_whole (s : State) : Whole s s.tick := by
  unfold State.tick
  split
  · next h =>
    refine (s.withTe_whole _ (fun k => ?_)).trans (State.tickOccurs_whole _ ?_)
    · exact TempoEngine.ok_of_ticking h (TempoEngine.tick_le s.te k)
    · exact h
  · refine s.withTe_whole _ (fun k => ?_)
    simp only [TempoEngine.ok, Bool.and_eq_true, Bool.or_eq_true] at k ⊢
    exact ⟨k.1, k.2.imp id (fun x => ⟨x.1, by simp⟩)⟩

/-- START leaves the transport COUNTING or RUNNING (R10). -/
theorem TempoEngine.started_ticking (te : TempoEngine) : te.started.transport.ticking = true := by
  simp only [TempoEngine.started]
  split <;> rfl

theorem State.startTransport_whole (s : State) : Whole s s.startTransport := by
  unfold State.startTransport
  simp only
  refine ((Whole.trans (s.withTe_whole _ (fun _ => ?_)) (State.transportNotice_linksOnly _).whole).trans
    (State.beatBytes_whole _ _ ?_)).trans (State.handOn_whole _ _)
  · exact TempoEngine.ok_of_ticking s.te.started_ticking (by simp [TempoEngine.started])
  · unfold State.ticking
    rw [(State.transportNotice_linksOnly _).te]
    exact s.te.started_ticking

/-! ## The follower -/

theorem TempoEngine.ok_of_eq {a b : TempoEngine} (h1 : b.pos = a.pos) (h2 : b.transport = a.transport) (h3 : b.acc = a.acc)
    (h4 : b.clockCount = a.clockCount) (h5 : b.tickOwed = a.tickOwed) (h6 : b.ramp = a.ramp ∨ b.ramp = none)
    (h : a.ok = true) : b.ok = true := by
  simp only [TempoEngine.ok, Bool.and_eq_true, Bool.or_eq_true] at h ⊢
  rw [h1, h2, h3, h4, h5]
  refine ⟨h.1, h.2.imp id (fun x => ⟨⟨x.1.1, ?_⟩, x.2⟩)⟩
  rcases h6 with h6 | h6
  · rw [h6]; exact x.1.2
  · rw [h6]; rfl

theorem State.setFollow_whole (s : State) (src : FollowSource) : Whole s (s.setFollow src) := by
  unfold State.setFollow
  split
  · refine Whole.trans ?_ (State.tempoNotice_linksOnly _).whole
    exact s.withTe_whole _ (TempoEngine.ok_of_eq rfl rfl rfl rfl rfl (.inl rfl))
  · refine Whole.trans ?_ (State.tempoNotice_linksOnly _).whole
    exact s.withTe_whole _ (TempoEngine.ok_of_eq rfl rfl rfl rfl rfl (.inr rfl))
  · refine Whole.trans ?_ (State.tempoNotice_linksOnly _).whole
    exact s.withTe_whole _ (TempoEngine.ok_of_eq rfl rfl rfl rfl rfl (.inr rfl))

theorem State.phaseCorrect_whole (s : State) : Whole s s.phaseCorrect := by
  unfold State.phaseCorrect
  split
  · next h =>
    split
    · exact Whole.refl s
    · split
      · exact s.withTe_whole _ (fun _ => TempoEngine.ok_of_ticking h (by simp))
      · refine Whole.trans ?_ (State.beatOccurs_whole _ h)
        exact s.withTe_whole _ (fun k => TempoEngine.ok_of_ticking h (TempoEngine.tick_le s.te k))
  · exact Whole.refl s

theorem State.estimate_whole (s : State) : Whole s s.estimate := by
  have aux : ∀ (u : State) (p : Prop) [Decidable p], Whole u ((if p then u.tempoNotice else u).phaseCorrect) := by
    intro u p _
    split
    · exact (State.tempoNotice_linksOnly _).whole.trans (State.phaseCorrect_whole _)
    · exact u.phaseCorrect_whole
  refine Whole.trans ?_ (aux _ _)
  exact s.withTe_whole _ (TempoEngine.ok_of_eq rfl rfl rfl rfl rfl (.inl rfl))

theorem State.takeMark_whole (s : State) : Whole s s.takeMark := by
  unfold State.takeMark
  split
  · split
    · refine Whole.trans ?_ (State.tempoNotice_linksOnly _).whole
      exact s.withTe_whole _ (TempoEngine.ok_of_eq rfl rfl rfl rfl rfl (.inl rfl))
    · exact s.withTe_whole _ (TempoEngine.ok_of_eq rfl rfl rfl rfl rfl (.inl rfl))
  · simp only
    split
    · split
      · refine Whole.trans ?_ (State.estimate_whole _)
        exact s.withTe_whole _ (TempoEngine.ok_of_eq rfl rfl rfl rfl rfl (.inl rfl))
      · exact s.withTe_whole _ (TempoEngine.ok_of_eq rfl rfl rfl rfl rfl (.inl rfl))
    · split
      · refine Whole.trans (Whole.trans ?_ (State.withTe_whole _ _ ?_)) (State.tempoNotice_linksOnly _).whole
        · exact s.withTe_whole _ (TempoEngine.ok_of_eq rfl rfl rfl rfl rfl (.inl rfl))
        · exact TempoEngine.ok_of_eq rfl rfl rfl rfl rfl (.inl rfl)
      · exact s.withTe_whole _ (TempoEngine.ok_of_eq rfl rfl rfl rfl rfl (.inl rfl))

theorem State.markFrom_whole (s : State) (src : FollowSource) : Whole s (s.markFrom src) := by
  unfold State.markFrom
  split
  · exact s.takeMark_whole
  · exact Whole.refl s

theorem State.lastMarkExpiry_whole (s : State) : Whole s s.lastMarkExpiry :=
  s.withTe_whole _ (TempoEngine.ok_of_eq rfl rfl rfl rfl rfl (.inl rfl))

theorem State.lostDeadline_whole (s : State) : Whole s s.lostDeadline := by
  unfold State.lostDeadline
  split
  · exact Whole.refl s
  · have h := (s.withTe_whole { s.te with follow := .freewheel, history := [], lastMark := none, lostDeadline := none }
      (TempoEngine.ok_of_eq rfl rfl rfl rfl rfl (.inl rfl))).trans (State.tempoNotice_linksOnly _).whole
    simp only
    split
    · exact h.trans (State.report_linksOnly _ _ _).whole
    · exact h

end Sys2Proof.Machine
end

