-- ==== Sys2Proof/Laws/Requests.lean ====
section
/-! SUPPORT. What every request comes to: exactly one answer on its own link, ahead of the notices it causes, notices alone
on the others, receivers untouched, and the promises of the manual kept (`Handled`). -/

namespace Sys2Proof.Machine

/-! ## The watch's own moves -/

/-- A record whose state and phase are those of a station keeps the station's promise. -/
theorem StationRec.ok_of_eq {a b : StationRec} (h1 : b.state = a.state) (h2 : b.phase = a.phase) (h : a.ok = true) :
    b.ok = true := by
  simp only [StationRec.ok] at h ⊢
  rw [h1, h2]; exact h

/-- A station's counters change, its state and phase do not. -/
theorem State.setStation_whole (s : State) (x : Station) (r : StationRec) (h1 : r.state = (s.station x).state)
    (h2 : r.phase = (s.station x).phase) : Whole s (s.setStation x r) :=
  (s.setStation_watchOnly x r (StationRec.ok_of_eq h1 h2)).whole

theorem State.limitStation_whole (s : State) (x : Station) : Whole s (s.limitStation x) := by
  unfold State.limitStation
  split
  · split
    · exact (s.changeStation_watchOnly _ _ _).whole
    · exact Whole.refl s
  · split
    · exact (s.changeStation_watchOnly _ _ _).whole
    · exact Whole.refl s
  · exact Whole.refl s
  · exact Whole.refl s
  · exact Whole.refl s

/-- A change of the watch's own counters and limit. -/
theorem watch_whole_of (s : State) (p : Nat) (d : Stamp) (n : Nat) :
    Whole s { s with sw := { s.sw with pulse := p, deadline := d, limit := n } } :=
  ⟨⟨fun _ => Noticed.refl _, id, rfl, id, rfl, rfl, rfl, rfl, rfl, MapKept.refl _⟩, id⟩

theorem State.setLimit_whole (s : State) (n : Nat) : Whole s (s.setLimit n) := by
  have h0 : Whole s { s with sw := { s.sw with limit := n } } := watch_whole_of s s.sw.pulse s.sw.deadline n
  unfold State.setLimit
  simp only
  split
  · split
    · exact ((h0.trans (State.choose_whole _)).trans (State.limitStation_whole _ .a)).trans (State.limitStation_whole _ .b)
    · exact ((h0.trans (State.choose_whole _)).trans (State.limitStation_whole _ .b)).trans (State.limitStation_whole _ .a)
  · exact (h0.trans (State.limitStation_whole _ .a)).trans (State.limitStation_whole _ .b)

theorem State.missCheck_whole (s : State) (x : Station) : Whole s (s.missCheck x) := by
  unfold State.missCheck
  simp only
  split
  · exact Whole.refl s
  · have h : Whole s (s.setStation x { s.station x with miss := min 255 ((s.station x).miss + 1) }) :=
      s.setStation_whole x _ rfl rfl
    split
    · split
      · exact h.trans (State.changeStation_watchOnly _ _ _ _).whole
      · split
        · exact h.trans (State.changeStation_watchOnly _ _ _ _).whole
        · exact h
    · split
      · exact h.trans (State.changeStation_watchOnly _ _ _ _).whole
      · exact h
    · split
      · exact h.trans (State.changeStation_watchOnly _ _ _ _).whole
      · exact h
    · exact h
    · exact h

theorem State.pulseStation_whole (s : State) (x : Station) : Whole s (s.pulseStation x) := by
  unfold State.pulseStation
  split
  · exact Whole.refl s
  · refine Whole.trans ((s.missCheck_whole x).trans (State.offerNotice_linksOnly _ x.link (.pulse s.sw.pulse)).whole) ?_
    exact State.setStation_whole _ x _ rfl rfl

theorem State.pulse_whole (s : State) : Whole s s.pulse := by
  have h0 := watch_whole_of s ((s.sw.pulse + 1) % 256) (stampAfter s.sw.deadline 50000) s.sw.limit
  unfold State.pulse
  simp only
  split
  · exact (h0.trans (State.pulseStation_whole _ .a)).trans (State.pulseStation_whole _ .b)
  · split
    · exact ((h0.trans (State.choose_whole _)).trans (State.pulseStation_whole _ .a)).trans (State.pulseStation_whole _ .b)
    · exact ((h0.trans (State.choose_whole _)).trans (State.pulseStation_whole _ .b)).trans (State.pulseStation_whole _ .a)

theorem State.echoed_whole (s : State) (x : Station) (n : Nat) : Whole s (s.echoed x n) := by
  unfold State.echoed
  split
  · have h : Whole s (s.setStation x { s.station x with echoed := true, miss := 0 }) :=
      s.setStation_whole x _ rfl rfl
    simp only
    split
    · exact h.trans (State.changeStation_watchOnly _ _ _ _).whole
    · exact h.trans (State.changeStation_watchOnly _ _ _ _).whole
    · exact h
    · exact h
    · exact h
  · exact Whole.refl s

theorem State.stationRise_whole (s : State) (x : Station) : Whole s (s.stationRise x) := by
  unfold State.stationRise
  refine Whole.trans ?_ (State.changeStation_watchOnly _ _ _ _).whole
  exact s.setStation_whole x _ rfl rfl

theorem State.stationFall_whole (s : State) (x : Station) : Whole s (s.stationFall x) := by
  unfold State.stationFall
  refine Whole.trans ?_ (State.changeStation_watchOnly _ _ _ _).whole
  exact s.setStation_whole x _ rfl rfl

theorem State.resyncAllOff_whole (s : State) (x : Station) : Whole s (s.resyncAllOff x) := (s.resyncAllOff_watchOnly x).whole

theorem State.postEach_linksOnly (l : Link) (f : Target → Notice) (ts : List Target) (s : State) :
    LinksOnly s (ts.foldl (fun s t => s.post l (.notice (f t))) s) :=
  foldl_rel LinksOnly LinksOnly.refl LinksOnly.trans (fun s _ => s.postNotice_linksOnly l _) ts s

theorem State.resyncReplay_whole (s : State) (x : Station) : Whole s (s.resyncReplay x) := by
  unfold State.resyncReplay
  split
  · split
    · exact Whole.refl s
    · exact (State.postEach_linksOnly x.link (fun t => .event t.replayOn) _ s).whole.trans
        (State.router_routerOnly _ _ _ _ _).whole
  · exact Whole.refl s

theorem State.resyncJoined_whole (s : State) (x : Station) : Whole s (s.resyncJoined x) := by
  unfold State.resyncJoined
  split
  · exact (s.postNotice_linksOnly _ _).whole.trans (State.changeStation_watchOnly _ _ _ _).whole
  · exact Whole.refl s

/-! ## What a request comes to -/

/-- The parts of a link that only its receiver moves. -/
def LinkState.sameReceiver (x y : LinkState) : Prop :=
  y.high = x.high ∧ y.collecting = x.collecting ∧ y.collected = x.collected ∧ y.rescan = x.rescan ∧ y.gap = x.gap
    ∧ y.hold = x.hold

theorem Noticed.sameReceiver {x y : LinkState} (h : Noticed x y) : x.sameReceiver y :=
  ⟨h.high, h.collecting, h.collected, h.rescan, h.gap, h.hold⟩

/-- What a whole request may do to the map state: `MapKept`, or a FREE lock is taken (R74, R75). -/
def MapHeld (a b : LayerRouter) : Prop := a.lock = none ∨ MapKept a b

/-- A request of kind code `code` on link `l` has been handled: one answer, then notices, on its link; notices on the
others; receivers, clock and queue untouched; the manual's promises kept, and the live map under a held lock. -/
structure Handled (l : Link) (code : Nat) (s t : State) : Prop where
  own : ∃ (r : ResultCode) (d : List Byte) (ns : List Notice),
    (t.link l).line = (s.link l).line ++ (Telegram.answer code r d :: ns.map Telegram.notice)
  other : ∀ j, j ≠ l → ∃ ns : List Notice, (t.link j).line = (s.link j).line ++ ns.map Telegram.notice
  receiver : ∀ j, (s.link j).sameReceiver (t.link j)
  engine : s.te.ok = true → t.te.ok = true
  watch : s.sw.ok = true → t.sw.ok = true
  log : s.fl.ok = true → t.fl.ok = true
  ready : t.ready = s.ready
  micros : t.micros = s.micros
  pending : t.pending = s.pending
  map : MapHeld s.lr t.lr

theorem Handled.answer (s : State) (l : Link) (code : Nat) (r : ResultCode) (d : List Byte) :
    Handled l code s (s.answer l code r d) := by
  have hx := LinkState.startTx_noticed { s.link l with queue := (s.link l).queue ++ [.answer code r d] } s.now
  refine ⟨⟨r, d, [], ?_⟩, fun j hj => ⟨[], ?_⟩, fun j => ?_, id, id, id, rfl, rfl, rfl, .inr (MapKept.refl _)⟩
  · simp [State.answer, State.post]
  · simp only [State.answer, State.post]
    rw [State.link_setLink_of_ne s _ hj]; simp
  · simp only [State.answer, State.post]
    by_cases e : j = l
    · subst e
      rw [State.link_setLink_same]
      exact hx.sameReceiver
    · rw [State.link_setLink_of_ne s _ e]
      exact ⟨rfl, rfl, rfl, rfl, rfl, rfl⟩

theorem LinkState.sameReceiver_trans {x y z : LinkState} (h : x.sameReceiver y) (k : y.sameReceiver z) :
    x.sameReceiver z :=
  ⟨k.1.trans h.1, k.2.1.trans h.2.1, k.2.2.1.trans h.2.2.1, k.2.2.2.1.trans h.2.2.2.1,
    k.2.2.2.2.1.trans h.2.2.2.2.1, k.2.2.2.2.2.trans h.2.2.2.2.2⟩

theorem Handled.whole {l : Link} {code : Nat} {s t u : State} (h : Handled l code s t) (k : Whole t u) :
    Handled l code s u := by
  refine ⟨?_, fun j hj => ?_, fun j => LinkState.sameReceiver_trans (h.receiver j) (k.link j).sameReceiver,
    fun x => k.engine (h.engine x), fun x => k.sw (h.watch x), fun x => k.fl (h.log x), k.ready.trans h.ready,
    k.micros.trans h.micros, k.pending.trans h.pending, h.map.imp id (fun e => e.trans k.map)⟩
  · obtain ⟨r, d, ns, hn⟩ := h.own
    obtain ⟨ms, hm⟩ := (k.link l).line
    exact ⟨r, d, ns ++ ms, by rw [hm, hn]; simp⟩
  · obtain ⟨ns, hn⟩ := h.other j hj
    obtain ⟨ms, hm⟩ := (k.link j).line
    exact ⟨ns ++ ms, by rw [hm, hn]; simp⟩

theorem Handled.reply (s : State) (l : Link) (k : ReqKind) (r : ResultCode) : Handled l k.code s (s.reply l k r) :=
  Handled.answer s l k.code r []

theorem Handled.replyRange (s : State) (l : Link) (k : ReqKind) (e : BadField) :
    Handled l k.code s (s.replyRange l k e) := Handled.answer s l k.code _ _

/-- The store's record changes. -/
theorem Handled.store {l : Link} {code : Nat} {s t : State} (h : Handled l code s t) (x : ShowStore) :
    Handled l code s (t.withStore x) :=
  ⟨h.own, h.other, h.receiver, h.engine, h.watch, h.log, h.ready, h.micros, h.pending, h.map⟩

/-- The Fault Log is reviewed after a change of its modes or acknowledgements. -/
theorem Handled.review {l : Link} {code : Nat} {s t : State} (h : Handled l code s t) (f : FaultLog)
    (hl : f.records.length = t.fl.records.length) (hc : f.counter = t.fl.counter) :
    Handled l code s { t with fl := f.review } := by
  refine ⟨h.own, h.other, h.receiver, h.engine, h.watch, fun x => ?_, h.ready, h.micros, h.pending, h.map⟩
  have hk := h.log x
  simp [FaultLog.ok] at hk
  exact FaultLog.review_ok (by omega) (by omega)

/-- The link's mask changes. -/
theorem Handled.mask {l : Link} {code : Nat} {s t : State} (h : Handled l code s t) (m : Mask) :
    Handled l code s (t.setLink l { t.link l with mask := m }) := by
  refine ⟨?_, fun j hj => ?_, fun j => ?_, h.engine, h.watch, h.log, h.ready, h.micros, h.pending, h.map⟩
  · rw [State.link_setLink_same]; exact h.own
  · rw [State.link_setLink_of_ne _ _ hj]; exact h.other j hj
  · by_cases e : j = l
    · subst e; rw [State.link_setLink_same]; exact h.receiver _
    · rw [State.link_setLink_of_ne _ _ e]; exact h.receiver j

theorem State.locate_whole (s : State) (bar : Nat) (h : s.te.transport = .stopped) : Whole s (s.locate bar) := by
  unfold State.locate
  refine Whole.trans (Whole.trans ?_ (State.transportNotice_linksOnly _).whole) (State.chase_whole _ _)
  refine s.withTe_whole _ (fun k => ?_)
  simp only [TempoEngine.ok, h, Transport.ticking, Bool.false_or, Bool.and_eq_true, decide_eq_true_eq] at k ⊢
  exact ⟨by omega, ⟨⟨trivial, trivial, k.2.1.1.2.2⟩, k.2.1.2⟩, k.2.2⟩

theorem State.loadScene_whole (s : State) (l : Link) (n : Nat) (p : SwapPoint) (h : s.lr.lock = none) :
    Whole s (s.loadScene l n p) := by
  unfold State.loadScene
  cases p
  · exact ((s.stage_routerOnly _ _ _).trans (State.swap_routerOnly _ _ h)).whole
  · exact (s.stage_routerOnly _ _ _).whole
  · exact (s.stage_routerOnly _ _ _).whole
  · exact (s.stage_routerOnly _ _ _).whole

/-- A FREE lock is taken. -/
theorem Handled.takeLock {l : Link} {code : Nat} {s t : State} (h : Handled l code s t) (k : s.lr.lock = none) (j : Link) :
    Handled l code s (t.takeLock j) := by
  have hl : Handled l code s { t with lr := { t.lr with lock := some j } } :=
    ⟨h.own, h.other, h.receiver, h.engine, h.watch, h.log, h.ready, h.micros, h.pending, .inl k⟩
  exact hl.whole (State.sceneNotice_linksOnly _ _ _ _).whole

theorem State.restart_whole (s : State) : Whole s s.restart :=
  (((s.restartTempo_whole.trans (State.restartSequencer_whole _)).trans (State.restartMap_routerOnly _).whole).trans
    (State.restartNotes_routerOnly _).whole).trans (State.restartClick_whole _)

theorem State.goHeld_whole (s : State) (n : Nat) : Whole s (s.goHeld n) :=
  (s.withCs_whole _).trans (State.becomeCurrent_whole _ _ _ _)

/-- Every request that is handed to its block is handled. -/
theorem State.perform_handled (s : State) (l : Link) (k : ReqKind) (p : List Byte) :
    Handled l k.code s (s.perform l k p) := by
  have rep := fun r => Handled.reply s l k r
  have rng := fun e => Handled.replyRange s l k e
  cases k
  case start =>
    simp only [State.perform, State.reqStart]
    split
    · exact rep _
    · split
      · exact (rep _).whole (State.startTransport_whole _)
      · exact rep _
  case stop =>
    simp only [State.perform, State.reqStop]
    split
    · unfold State.reqStopNow
      split
      · exact (rep _).whole (State.stopNow_whole _)
      · exact rep _
    · split
      · unfold State.reqStopAtBar
        split
        · exact (rep _).whole (State.stopAtBar_whole _)
        · exact (rep _).whole (State.stopAtBar_whole _)
        · exact rep _
        · exact rep _
      · exact rng _
  case locate =>
    simp only [State.perform, State.reqLocate]
    split
    · exact rng _
    · split
      · next h => exact (rep _).whole (State.locate_whole _ _ h)
      · exact rep _
  case setTempo =>
    simp only [State.perform, State.reqSetTempo]
    split
    · exact rep _
    · exact (rep _).whole (State.setTempo_whole _ _)
  case rampTempo =>
    simp only [State.perform, State.reqRampTempo]
    split
    · exact rep _
    · split
      · exact rng _
      · exact (rep _).whole (State.rampTempo_whole _ _ _)
  case setMeter =>
    simp only [State.perform, State.reqSetMeter]
    split
    · exact rng _
    · exact (rep _).whole (State.setMeter_whole _ _)
  case setFollow =>
    simp only [State.perform, State.reqSetFollow]
    split
    · exact rng _
    · split
      · exact rep _
      · exact (rep _).whole (State.setFollow_whole _ _)
  case writePattern =>
    simp only [State.perform, State.reqWritePattern]
    split
    · exact rep _
    · split
      · exact rng _
      · exact (rep _).whole (whole_of _ _ _)
  case setClick =>
    simp only [State.perform, State.reqSetClick]
    split
    · exact rep _
    · split
      · exact rng _
      · exact (rep _).whole (State.askClick_whole _ _ _)
  case muteClick =>
    simp only [State.perform, State.reqMuteClick]
    split
    · exact rng _
    · split
      · exact rep _
      · exact (rep _).whole (State.setBus_whole _ _ _)
  case writeScene =>
    simp only [State.perform, State.reqWriteScene]
    split
    · exact rep _
    · split
      · exact rng _
      · split
        · exact rep _
        · split
          · exact rng _
          · exact (rep _).whole (State.withCs_whole _ _)
  case readScene =>
    simp only [State.perform, State.reqReadScene]
    split
    · exact rng _
    · split
      · exact rep _
      · split
        · exact Handled.answer _ _ _ _ _
        · exact Handled.answer _ _ _ _ _
  case loadSceneNow =>
    simp only [State.perform, State.reqLoadScene]
    split
    · exact rng _
    · split
      · exact rep _
      · split
        · exact rep _
        · next h =>
          split
          · exact rep _
          · exact (rep _).whole (State.loadScene_whole _ _ _ _ (not_not.mp h))
  case lock =>
    simp only [State.perform, State.reqLock]
    split
    · next h =>
      split
      · exact (rep _).takeLock h _
      · exact rep _
    · split
      · exact rep _
      · exact rep _
  case unlock =>
    simp only [State.perform, State.reqUnlock]
    split
    · split
      · exact rep _
      · exact (rep _).whole (State.releaseLock_watchOnly _).whole
    · split
      · exact (rep _).whole (State.releaseLock_watchOnly _).whole
      · exact rep _
  case writeCue =>
    simp only [State.perform, State.reqWriteCue]
    split
    · exact rep _
    · split
      · exact rep _
      · split
        · exact rng _
        · exact (rep _).whole (State.withCs_whole _ _)
  case readCue =>
    simp only [State.perform, State.reqReadCue]
    split
    · exact rep _
    · split
      · exact Handled.answer _ _ _ _ _
      · exact Handled.answer _ _ _ _ _
  case writeSong =>
    simp only [State.perform, State.reqWriteSong]
    split
    · exact rep _
    · split
      · exact rng _
      · split
        · exact rng _
        · exact (rep _).whole (State.withCs_whole _ _)
  case readSong =>
    simp only [State.perform, State.reqReadSong]
    split
    · exact rng _
    · split
      · exact rep _
      · split
        · exact Handled.answer _ _ _ _ _
        · exact Handled.answer _ _ _ _ _
  case writeSetlist =>
    simp only [State.perform, State.reqWriteSetlist]
    split
    · exact rep _
    · split
      · exact rep _
      · split
        · exact rng _
        · exact (rep _).whole (State.withCs_whole _ _)
  case readSetlist =>
    simp only [State.perform, State.reqReadSetlist]
    split
    · exact rep _
    · exact Handled.answer _ _ _ _ _
  case selectSong =>
    simp only [State.perform, State.reqSelectSong]
    split
    · exact rep _
    · split
      · exact rng _
      · split
        · exact rep _
        · split
          · exact rep _
          · exact (rep _).whole (State.songSelect_whole _ _ _ _ _)
  case go =>
    simp only [State.perform, State.reqGo]
    split
    · split
      · split
        · exact rep _
        · exact (rep _).whole (State.withCs_whole _ _)
      · exact (rep _).whole (State.goStopped_whole _ _)
    · exact (rep _).whole (State.goHeld_whole _ _)
    · exact rep _
  case setInput =>
    simp only [State.perform, State.reqSetInput]
    split
    · exact rep _
    · split
      · exact rng _
      · exact (rep _).whole (State.applyInput_portsOnly _ _ _).whole
  case setOutput =>
    simp only [State.perform, State.reqSetOutput]
    split
    · exact rep _
    · split
      · exact rng _
      · exact (rep _).whole (State.setOut_routerOnly _ _ _).whole
  case setWatch =>
    simp only [State.perform, State.reqSetWatch]
    split
    · exact rep _
    · exact (rep _).whole (State.setLimit_whole _ _)
  case setActive =>
    simp only [State.perform, State.reqSetActive]
    split
    · exact rng _
    · split
      · split
        · exact rep _
        · exact (rep _).whole (State.makeActive_watchOnly _ _ _).whole
      · exact rep _
  case resync =>
    simp only [State.perform, State.reqResync]
    split
    · exact rng _
    · split
      · exact (rep _).whole (State.changeStation_watchOnly _ _ _ _).whole
      · exact rep _
  case restart => exact (rep _).whole (State.restart_whole _)
  case panic => exact (rep _).whole (State.panic_portsOnly _).whole
  case saveShow =>
    simp only [State.perform, State.reqSaveShow]
    split
    · exact rep _
    · exact (rep _).store _
  case loadShow =>
    simp only [State.perform, State.reqLoadShow]
    split
    · exact rep _
    · split
      · exact rep _
      · exact (rep _).store _
  case setFaultMode =>
    simp only [State.perform, State.reqSetFaultMode]
    split
    · exact rep _
    · split
      · exact rng _
      · split
        · exact rep _
        · exact (rep .done).review _ rfl rfl
  case ackFaults =>
    simp only [State.perform, State.reqAckFaults]
    exact (rep .done).review { s.fl with records := s.fl.records.map (fun r => { r with acked := true }) } (by simp; rfl) rfl
  case readStatus => exact Handled.answer _ _ _ _ _
  case readFaults =>
    simp only [State.perform, State.reqReadFaults]
    split
    · exact rng _
    · exact Handled.answer _ _ _ _ _
  case subscribe => exact (Handled.answer _ _ _ _ _).mask _

end Sys2Proof.Machine
end

