-- ==== Sys2Proof/Laws/Links.lean ====
section
/-! SUPPORT. What the receivers, the reports, the transmitter, DETECT, the Show Store and the passing of time keep
(`Keeps`), one lemma for each shared operation. -/

namespace Sys2Proof.Machine

/-- The manual's promises for the engine, the watch and the Fault Log are kept, and the queue is untouched. -/
structure Keeps (s t : State) : Prop where
  engine : s.te.ok = true → t.te.ok = true
  watch : s.sw.ok = true → t.sw.ok = true
  log : s.fl.ok = true → t.fl.ok = true
  pending : t.pending = s.pending

theorem Keeps.refl (s : State) : Keeps s s := ⟨id, id, id, rfl⟩

theorem Keeps.trans {s t u : State} (h : Keeps s t) (k : Keeps t u) : Keeps s u :=
  ⟨fun x => k.engine (h.engine x), fun x => k.watch (h.watch x), fun x => k.log (h.log x), k.pending.trans h.pending⟩

theorem Keeps.safe {s t : State} (h : Keeps s t) (k : s.safe = true) : t.safe = true := by
  simp only [State.safe, Bool.and_eq_true] at k ⊢
  exact ⟨⟨h.engine k.1.1, h.watch k.1.2⟩, h.log k.2⟩

theorem Whole.keeps {s t : State} (h : Whole s t) : Keeps s t := ⟨h.engine, h.sw, h.fl, h.pending⟩

theorem Handled.keeps {l : Link} {c : Nat} {s t : State} (h : Handled l c s t) : Keeps s t :=
  ⟨h.engine, h.watch, h.log, h.pending⟩

/-- A write of a link's record keeps every promise. -/
theorem State.setLink_keeps (s : State) (l : Link) (x : LinkState) : Keeps s (s.setLink l x) := ⟨id, id, id, rfl⟩

/-- A change of the store's record, the clock, the part state or the outputs keeps every promise. -/
theorem keeps_of (s : State) (o : PerOut MidiOut) (st : ShowStore) (r : Bool) (m : Nat) :
    Keeps s { s with op := o, st := st, ready := r, micros := m } := ⟨id, id, id, rfl⟩

/-! ## Requests, reports, telegrams -/

theorem State.checkRequest_handled (s : State) (l : Link) (k : ReqKind) (p : List Byte) :
    Handled l k.code s (s.checkRequest l k p) := by
  unfold State.checkRequest
  split
  · exact Handled.reply _ _ _ _
  · split
    · exact Handled.reply _ _ _ _
    · split
      · exact Handled.reply _ _ _ _
      · split
        · exact Handled.reply _ _ _ _
        · exact s.perform_handled l k p

theorem kindOfCode_code {n : Nat} {k : ReqKind} (h : kindOfCode n = some k) : k.code = n := by
  have := List.find?_some h
  simpa using this

theorem State.takeRequest_keeps (s : State) (l : Link) (n : Nat) (p : List Byte) : Keeps s (s.takeRequest l n p) := by
  unfold State.takeRequest
  split
  · exact (s.report_linksOnly _ _).whole.keeps
  · split
    · exact (Handled.answer _ _ _ _ _).keeps
    · exact (s.checkRequest_handled _ _ _).keeps

theorem State.performReport_keeps (s : State) (l : Link) (k : RepKind) (p : List Byte) :
    Keeps s (s.performReport l k p) := by
  unfold State.performReport
  split
  · exact (s.markFrom_whole _).keeps
  · split
    · exact (s.echoed_whole _ _).keeps
    · exact Keeps.refl s
  · unfold State.holdLink
    split <;> exact s.setLink_keeps _ _
  · exact s.setLink_keeps _ _

theorem State.takeReport_keeps (s : State) (l : Link) (n : Nat) (p : List Byte) : Keeps s (s.takeReport l n p) := by
  unfold State.takeReport
  split
  · exact (s.report_linksOnly _ _).whole.keeps
  · split
    · exact (s.report_linksOnly _ _).whole.keeps
    · split
      · exact (s.report_linksOnly _ _).whole.keeps
      · exact s.performReport_keeps _ _ _

theorem State.takeTelegram_keeps (s : State) (l : Link) (k : Byte) (p : List Byte) : Keeps s (s.takeTelegram l k p) := by
  unfold State.takeTelegram
  split
  · exact s.takeRequest_keeps _ _ _
  · split
    · exact s.takeReport_keeps _ _ _
    · exact (s.report_linksOnly _ _).whole.keeps

theorem State.telegram_keeps (s : State) (l : Link) (k : Byte) (p : List Byte) : Keeps s (s.telegram l k p) := by
  unfold State.telegram
  split
  · exact (s.setLink_keeps _ _).trans (State.takeTelegram_keeps _ _ _ _)
  · exact Keeps.refl s

/-! ## The receiver -/

theorem State.discard_keeps (s : State) (l : Link) (k : FaultKind) : Keeps s (s.discard l k) :=
  (s.report_linksOnly _ _).whole.keeps.trans (State.setLink_keeps _ _ _)

theorem State.complete_keeps (s : State) (l : Link) : Keeps s (s.complete l) := by
  unfold State.complete
  simp only
  split
  · exact (s.setLink_keeps _ _).trans (State.takeTelegram_keeps _ _ _ _)
  · exact s.discard_keeps _ _

theorem State.takeByte_keeps (s : State) (l : Link) (b : Byte) : Keeps s (s.takeByte l b) := by
  unfold State.takeByte
  simp only
  split
  · split
    · exact (s.setLink_keeps _ _).trans (State.discard_keeps _ _ _)
    · split
      · exact (s.setLink_keeps _ _).trans (State.complete_keeps _ _)
      · exact s.setLink_keeps _ _
  · split
    · exact s.setLink_keeps _ _
    · exact Keeps.refl s

theorem State.rescan_keeps : ∀ (n : Nat) (s : State) (l : Link), Keeps s (State.rescan n s l)
  | 0, s, _ => Keeps.refl s
  | n + 1, s, l => by
    unfold State.rescan
    split
    · exact Keeps.refl s
    · exact ((s.setLink_keeps _ _).trans (State.takeByte_keeps _ _ _)).trans (State.rescan_keeps n _ l)

theorem State.lineByte_keeps (s : State) (l : Link) (b : Byte) : Keeps s (s.lineByte l b) := by
  unfold State.lineByte
  split
  · exact (s.takeByte_keeps _ _).trans (State.rescan_keeps _ _ _)
  · exact Keeps.refl s

theorem State.badStop_keeps (s : State) (l : Link) : Keeps s (s.badStop l) := by
  unfold State.badStop
  split
  · exact (s.discard_keeps _ _).trans (State.rescan_keeps _ _ _)
  · exact Keeps.refl s

theorem State.gapDeadline_keeps (s : State) (l : Link) : Keeps s (s.gapDeadline l) := by
  unfold State.gapDeadline
  split
  · exact (s.discard_keeps _ _).trans (State.rescan_keeps _ _ _)
  · exact Keeps.refl s

/-! ## Transmission, hold, DETECT -/

theorem State.telegramSent_keeps (s : State) (l : Link) : Keeps s (s.telegramSent l) := by
  unfold State.telegramSent
  split
  · exact Keeps.refl s
  · exact s.setLink_keeps _ _

theorem State.holdExpiry_keeps (s : State) (l : Link) : Keeps s (s.holdExpiry l) := by
  unfold State.holdExpiry
  split
  · exact Keeps.refl s
  · exact s.setLink_keeps _ _

theorem State.detectRises_keeps (s : State) (l : Link) : Keeps s (s.detectRises l) := by
  unfold State.detectRises
  split
  · exact Keeps.refl s
  · simp only
    split
    · exact (s.setLink_keeps _ _).trans (State.stationRise_whole _ _).keeps
    · exact s.setLink_keeps _ _

theorem State.detectFalls_keeps (s : State) (l : Link) : Keeps s (s.detectFalls l) := by
  unfold State.detectFalls
  split
  · simp only
    split
    · exact (s.setLink_keeps _ _).trans (State.stationFall_whole _ _).keeps
    · exact (s.setLink_keeps _ _).trans (State.stationFall_whole _ _).keeps
    · exact s.setLink_keeps _ _
    · split
      · exact (s.setLink_keeps _ _).trans (State.releaseLock_watchOnly _).whole.keeps
      · exact s.setLink_keeps _ _
  · exact Keeps.refl s

/-! ## Show Store -/

theorem State.setModes_keeps (s : State) (m : FaultModes) : Keeps s (s.setModes m) := by
  refine ⟨id, id, fun h => ?_, rfl⟩
  simp [FaultLog.ok] at h
  exact FaultLog.review_ok h.1.1 h.1.2

theorem State.loadTables_keeps (s : State) (g : ShowImage) : Keeps s (s.loadTables g) := ⟨id, id, id, rfl⟩

theorem State.loadSettings_keeps (s : State) (g : ShowImage) : Keeps s (s.loadSettings g) := by
  have h1 : Keeps s (allIns.foldl (fun s i => s.applyInput i (g.inputs.get i)) s) :=
    foldl_rel Keeps Keeps.refl Keeps.trans (fun s i => (s.applyInput_portsOnly i _).whole.keeps) _ s
  have h2 : ∀ u : State, Keeps u (allOuts.foldl (fun s o => s.setOut o ((s.midiOut o).applySettings (g.outputs.get o))) u) :=
    fun u => foldl_rel Keeps Keeps.refl Keeps.trans (fun s o => (s.setOut_routerOnly o _).whole.keeps) _ u
  exact (h1.trans (h2 _)).trans (State.setLimit_whole _ _).keeps

theorem State.reportStore_keeps (s : State) (k : Option FaultKind) : Keeps s (s.reportStore k) := by
  unfold State.reportStore
  split
  · exact (s.report_linksOnly _ _).whole.keeps
  · exact Keeps.refl s

theorem State.withStore_keeps (s : State) (x : ShowStore) : Keeps s (s.withStore x) := ⟨id, id, id, rfl⟩

theorem State.storeNotice_keeps (s : State) (o : StoreOccasion) (b : Bool) : Keeps s (s.storeNotice o b) :=
  (s.storeNotice_linksOnly o b).whole.keeps

theorem State.saveEnds_keeps (s : State) (e : SaveEnd) : Keeps s (s.saveEnds e) := by
  unfold State.saveEnds
  split
  · exact ((s.withStore_keeps _).trans (State.storeNotice_keeps _ _ _)).trans (State.reportStore_keeps _ _)
  · exact Keeps.refl s
  · exact Keeps.refl s

theorem State.loadEnds_keeps (s : State) : Keeps s s.loadEnds := by
  unfold State.loadEnds
  split
  · simp only
    split
    · exact ((((s.withStore_keeps _).trans (State.loadTables_keeps _ _)).trans (State.loadSettings_keeps _ _)).trans
        (State.setModes_keeps _ _)).trans (State.storeNotice_keeps _ _ _)
    · exact ((s.withStore_keeps _).trans (State.storeNotice_keeps _ _ _)).trans (State.reportStore_keeps _ _)
  · exact Keeps.refl s
  · exact Keeps.refl s

theorem State.startupLoad_keeps (s : State) (g : Option ShowImage) : Keeps s (s.startupLoad g) := by
  unfold State.startupLoad
  split
  · exact ((s.setModes_keeps _).trans (State.loadTables_keeps _ _)).trans (State.loadSettings_keeps _ _)
  · exact Keeps.refl s

theorem State.startupEnds_keeps (s : State) : Keeps s s.startupEnds := by
  unfold State.startupEnds
  split
  · exact Keeps.refl s
  · refine Keeps.trans (Keeps.trans ?_ (State.storeNotice_keeps _ .startup _)) ⟨id, id, id, rfl⟩
    exact (((s.withStore_keeps _).trans (State.startupLoad_keeps _ _)).trans
      (State.report_linksOnly _ _ _).whole.keeps).trans (State.reportStore_keeps _ _)

/-- After a reset the promises hold, whatever held before. -/
theorem State.resets_safe (s : State) (c : ResetCause) (d : PerLink Bool) :
    (s.resets c d).safe = true ∧ (s.resets c d).pending = s.pending := by
  unfold State.resets
  simp only
  have h := foldl_rel Keeps Keeps.refl Keeps.trans
    (f := fun s l => if d.get l then s.detectRises l else s) (fun s l => by
      split
      · exact s.detectRises_keeps l
      · exact Keeps.refl s) allLinks
    { State.reset with
      st := { State.reset.st with flash := s.flashAfterReset }
      cause := c
      choices := s.choices + 1
      pending := s.pending }
  exact ⟨h.safe (by rfl), h.pending⟩

/-! ## Time -/

theorem State.shiftBytes_keeps (s : State) : Keeps s s.shiftBytes :=
  foldl_rel Keeps Keeps.refl Keeps.trans (fun s l => s.setLink_keeps l _) allLinks s

theorem TempoEngine.addTempo_ok (te : TempoEngine) (h : te.ok = true) : te.addTempo.ok = true := by
  unfold TempoEngine.addTempo
  split
  · next ht =>
    simp only
    split
    · exact TempoEngine.ok_of_ticking ht (TempoEngine.tick_le te h)
    · exact TempoEngine.ok_of_ticking ht (TempoEngine.tick_le te h)
  · exact h

theorem State.advance_keeps (s : State) : Keeps s s.advance := by
  have aux : Keeps s (if sampleBoundary s.micros then s.sampleBuses else s) := by
    split
    · exact s.sampleBuses_whole.keeps
    · exact Keeps.refl s
  exact (aux.trans (State.shiftBytes_keeps _)).trans ⟨TempoEngine.addTempo_ok _, id, id, rfl⟩

end Sys2Proof.Machine
end

