-- ==== Sys2Proof/Laws/Lock.lean ====
section
/-! SUPPORT. The performance lock (R74): what the operations that are no more than `Keeps` do to the lock and the live map. -/

namespace Sys2Proof.Machine

theorem MapKept.of_eq {a b : LayerRouter} (h : b = a) : MapKept a b := .inr ⟨by rw [h], by rw [h]⟩

theorem MapHeld.after {a b c : LayerRouter} (h : MapHeld b c) (k : b = a) : MapHeld a c := k ▸ h

theorem Handled.mapHeld {l : Link} {n : Nat} {s t : State} (h : Handled l n s t) : MapHeld s.lr t.lr := h.map

theorem Whole.mapHeld {s t : State} (h : Whole s t) : MapHeld s.lr t.lr := .inr h.map

/-! ## Telegrams -/

theorem State.takeRequest_mapHeld (s : State) (l : Link) (n : Nat) (p : List Byte) : MapHeld s.lr (s.takeRequest l n p).lr := by
  unfold State.takeRequest
  split
  · exact (s.report_linksOnly _ _).whole.mapHeld
  · split
    · exact (Handled.answer _ _ _ _ _).mapHeld
    · exact (s.checkRequest_handled _ _ _).mapHeld

theorem State.performReport_mapHeld (s : State) (l : Link) (k : RepKind) (p : List Byte) :
    MapHeld s.lr (s.performReport l k p).lr := by
  unfold State.performReport
  split
  · exact (s.markFrom_whole _).mapHeld
  · split
    · exact (s.echoed_whole _ _).mapHeld
    · exact (Whole.refl s).mapHeld
  · unfold State.holdLink
    split <;> exact .inr (MapKept.refl _)
  · exact .inr (MapKept.refl _)

theorem State.takeReport_mapHeld (s : State) (l : Link) (n : Nat) (p : List Byte) : MapHeld s.lr (s.takeReport l n p).lr := by
  unfold State.takeReport
  split
  · exact (s.report_linksOnly _ _).whole.mapHeld
  · split
    · exact (s.report_linksOnly _ _).whole.mapHeld
    · split
      · exact (s.report_linksOnly _ _).whole.mapHeld
      · exact s.performReport_mapHeld _ _ _

theorem State.takeTelegram_mapHeld (s : State) (l : Link) (k : Byte) (p : List Byte) :
    MapHeld s.lr (s.takeTelegram l k p).lr := by
  unfold State.takeTelegram
  split
  · exact s.takeRequest_mapHeld _ _ _
  · split
    · exact s.takeReport_mapHeld _ _ _
    · exact (s.report_linksOnly _ _).whole.mapHeld

/-- A whole telegram: the live map stays under a lock that is held before and after it. -/
theorem State.telegram_mapHeld (s : State) (l : Link) (k : Byte) (p : List Byte) : MapHeld s.lr (s.telegram l k p).lr := by
  unfold State.telegram
  split
  · exact (State.takeTelegram_mapHeld _ _ _ _).after rfl
  · exact (Whole.refl s).mapHeld

/-! ## Links and DETECT -/

theorem State.telegramSent_mapKept (s : State) (l : Link) : MapKept s.lr (s.telegramSent l).lr := by
  unfold State.telegramSent
  split <;> exact MapKept.refl _

theorem State.holdExpiry_mapKept (s : State) (l : Link) : MapKept s.lr (s.holdExpiry l).lr := by
  unfold State.holdExpiry
  split <;> exact MapKept.refl _

theorem State.detectRises_mapKept (s : State) (l : Link) : MapKept s.lr (s.detectRises l).lr := by
  unfold State.detectRises
  split
  · exact MapKept.refl _
  · simp only
    split
    · exact (State.stationRise_whole _ _).map
    · exact MapKept.refl _

theorem State.detectFalls_mapKept (s : State) (l : Link) : MapKept s.lr (s.detectFalls l).lr := by
  unfold State.detectFalls
  split
  · simp only
    split
    · exact (State.stationFall_whole _ _).map
    · exact (State.stationFall_whole _ _).map
    · exact MapKept.refl _
    · split
      · exact (State.releaseLock_watchOnly _).map
      · exact MapKept.refl _
  · exact MapKept.refl _

/-! ## Show Store -/

/-- `MapKept` of two states' routers. -/
structure LockKept (s t : State) : Prop where
  map : MapKept s.lr t.lr

theorem LockKept.refl (s : State) : LockKept s s := ⟨MapKept.refl _⟩

theorem LockKept.trans {s t u : State} (h : LockKept s t) (k : LockKept t u) : LockKept s u := ⟨h.map.trans k.map⟩

theorem Calm.lockKept {s t : State} (h : Calm s t) : LockKept s t := ⟨h.map⟩

theorem State.withStore_lockKept (s : State) (x : ShowStore) : LockKept s (s.withStore x) := ⟨MapKept.refl _⟩
theorem State.loadTables_lockKept (s : State) (g : ShowImage) : LockKept s (s.loadTables g) := ⟨MapKept.refl _⟩
theorem State.setModes_lockKept (s : State) (m : FaultModes) : LockKept s (s.setModes m) := ⟨MapKept.refl _⟩

theorem State.storeNotice_lockKept (s : State) (o : StoreOccasion) (b : Bool) : LockKept s (s.storeNotice o b) :=
  (s.storeNotice_linksOnly o b).toCalm.lockKept

theorem State.loadSettings_lockKept (s : State) (g : ShowImage) : LockKept s (s.loadSettings g) := by
  have h1 : Whole s (allIns.foldl (fun s i => s.applyInput i (g.inputs.get i)) s) :=
    foldl_rel Whole Whole.refl Whole.trans (fun s i => (s.applyInput_portsOnly i _).whole) _ s
  have h2 : ∀ u : State, Whole u (allOuts.foldl (fun s o => s.setOut o ((s.midiOut o).applySettings (g.outputs.get o))) u) :=
    fun u => foldl_rel Whole Whole.refl Whole.trans (fun s o => (s.setOut_routerOnly o _).whole) _ u
  exact ((h1.trans (h2 _)).trans (State.setLimit_whole _ _)).toCalm.lockKept

theorem State.reportStore_lockKept (s : State) (k : Option FaultKind) : LockKept s (s.reportStore k) := by
  unfold State.reportStore
  split
  · exact (s.report_linksOnly _ _).toCalm.lockKept
  · exact LockKept.refl s

theorem State.saveEnds_lockKept (s : State) (e : SaveEnd) : LockKept s (s.saveEnds e) := by
  unfold State.saveEnds
  split
  · exact ((s.withStore_lockKept _).trans (State.storeNotice_lockKept _ _ _)).trans (State.reportStore_lockKept _ _)
  · exact LockKept.refl s
  · exact LockKept.refl s

theorem State.loadEnds_lockKept (s : State) : LockKept s s.loadEnds := by
  unfold State.loadEnds
  split
  · simp only
    split
    · exact ((((s.withStore_lockKept _).trans (State.loadTables_lockKept _ _)).trans
        (State.loadSettings_lockKept _ _)).trans (State.setModes_lockKept _ _)).trans (State.storeNotice_lockKept _ _ _)
    · exact ((s.withStore_lockKept _).trans (State.storeNotice_lockKept _ _ _)).trans (State.reportStore_lockKept _ _)
  · exact LockKept.refl s
  · exact LockKept.refl s

theorem State.startupLoad_lockKept (s : State) (g : Option ShowImage) : LockKept s (s.startupLoad g) := by
  unfold State.startupLoad
  split
  · exact ((s.setModes_lockKept _).trans (State.loadTables_lockKept _ _)).trans (State.loadSettings_lockKept _ _)
  · exact LockKept.refl s

theorem State.startupEnds_lockKept (s : State) : LockKept s s.startupEnds := by
  unfold State.startupEnds
  split
  · exact LockKept.refl s
  · refine LockKept.trans (LockKept.trans ?_ (State.storeNotice_lockKept _ .startup _)) ⟨MapKept.refl _⟩
    exact (((s.withStore_lockKept _).trans (State.startupLoad_lockKept _ _)).trans
      (State.report_linksOnly _ _ _).toCalm.lockKept).trans (State.reportStore_lockKept _ _)

end Sys2Proof.Machine
end

