-- ==== Sys2Proof/Laws/Messages.lean ====
section
/-! SUPPORT. What a MIDI message that arrives comes to: its handling on the state that has seen it, or nothing; which
parts of the state seeing it leaves alone; and what lists and one-entry tables make of releases and slots. -/

namespace Sys2Proof.Machine

/-! ## Seeing bytes -/

theorem MidiIn.byteSeen_settings (x : MidiIn) (now : Stamp) (b : Bool) : (x.byteSeen now b).settings = x.settings := by
  unfold MidiIn.byteSeen
  split
  · rfl
  · split <;> rfl

theorem MidiIn.byteSeen_sustain (x : MidiIn) (now : Stamp) (b : Bool) : (x.byteSeen now b).sustain = x.sustain := by
  unfold MidiIn.byteSeen
  split
  · rfl
  · split <;> rfl

@[simp] theorem State.messageSeen_lr (s : State) (i : InPort) (b : Byte) : (s.messageSeen i b).lr = s.lr := rfl
@[simp] theorem State.messageSeen_op (s : State) (i : InPort) (b : Byte) : (s.messageSeen i b).op = s.op := rfl
@[simp] theorem State.messageSeen_sw (s : State) (i : InPort) (b : Byte) : (s.messageSeen i b).sw = s.sw := rfl
@[simp] theorem State.messageSeen_now (s : State) (i : InPort) (b : Byte) : (s.messageSeen i b).now = s.now := rfl
@[simp] theorem State.messageSeen_midiOut (s : State) (i : InPort) (b : Byte) (o : OutPort) :
    (s.messageSeen i b).midiOut o = s.midiOut o := rfl
@[simp] theorem State.messageSeen_station (s : State) (i : InPort) (b : Byte) (x : Station) :
    (s.messageSeen i b).station x = s.station x := rfl

theorem State.messageSeen_midiIn (s : State) (i : InPort) (b : Byte) :
    (s.messageSeen i b).midiIn i
      = { (s.midiIn i).byteSeen s.now false with running := some b, collected := none, skip := .none } := by
  simp [State.messageSeen, State.midiIn, State.setIn]

@[simp] theorem State.messageSeen_settings (s : State) (i : InPort) (b : Byte) :
    ((s.messageSeen i b).midiIn i).settings = (s.midiIn i).settings := by
  rw [State.messageSeen_midiIn]
  exact MidiIn.byteSeen_settings _ _ _

@[simp] theorem State.messageSeen_sustain (s : State) (i : InPort) (b : Byte) :
    ((s.messageSeen i b).midiIn i).sustain = (s.midiIn i).sustain := by
  rw [State.messageSeen_midiIn]
  exact MidiIn.byteSeen_sustain _ _ _

/-! ## A message that arrives (R42, R45) -/

/-- On a live input the message is completed on the state that has seen it. -/
theorem State.messageArrives_live {s : State} {i : InPort} (c : Chan) (m : ChanMsg) (hr : s.ready = true)
    (he : (s.midiIn i).settings.enabled = true) :
    s.messageArrives i c m = (s.messageSeen i (chanStatus c m)).completeMessage i c m := by
  have h1 : s.inputLive i = true := by simp [State.inputLive, hr, he]
  simp only [State.messageArrives, h1, if_true]
  congr 1
  simp [State.messageSeen, State.byteSeen]

/-- On a disabled or STARTING input nothing happens. -/
theorem State.messageArrives_dead {s : State} {i : InPort} (c : Chan) (m : ChanMsg)
    (h : ¬(s.ready = true ∧ (s.midiIn i).settings.enabled = true)) : s.messageArrives i c m = s := by
  have h1 : s.inputLive i = false := by
    simp only [State.inputLive, ← Bool.not_eq_true, Bool.and_eq_true]
    exact h
  simp [State.messageArrives, h1]

/-- A message whose channel passes the filter is handled. -/
theorem State.messageArrives_passed {s : State} {i : InPort} {c : Chan} (m : ChanMsg) (hr : s.ready = true)
    (he : (s.midiIn i).settings.enabled = true) (hf : ∀ d, (s.midiIn i).settings.filter = some d → d = c) :
    s.messageArrives i c m = (s.messageSeen i (chanStatus c m)).handleMessage i c m := by
  rw [State.messageArrives_live c m hr he]
  simp only [State.completeMessage, State.messageSeen_settings]
  cases h : (s.midiIn i).settings.filter with
  | none => rfl
  | some d => simp [hf d h]

/-- A message of another channel than the filter's is only seen. -/
theorem State.messageArrives_blocked {s : State} {i : InPort} {c d : Chan} (m : ChanMsg) (hr : s.ready = true)
    (he : (s.midiIn i).settings.enabled = true) (hf : (s.midiIn i).settings.filter = some d) (hd : d ≠ c) :
    s.messageArrives i c m = s.messageSeen i (chanStatus c m) := by
  rw [State.messageArrives_live c m hr he]
  simp [State.completeMessage, hf, hd]

/-! ## Finding the entry of a key -/

/-- A list with nothing before and a hit: `find?` takes the hit. -/
theorem find_hit {α : Type} {p : α → Bool} {before after : List α} {e : α} (hb : ∀ d ∈ before, p d = false) (he : p e = true) :
    (before ++ e :: after).find? p = some e := by
  induction before with
  | nil => simp [he]
  | cons d r ih =>
    have h := hb d (List.mem_cons_self ..)
    simp only [List.cons_append, List.find?_cons, h]
    exact ih (fun x hx => hb x (List.mem_cons_of_mem _ hx))

/-- Erasing an element that does not stand before its place. -/
theorem erase_hit {α : Type} [DecidableEq α] {before after : List α} {e : α} (hb : e ∉ before) :
    (before ++ e :: after).erase e = before ++ after := by
  rw [List.erase_append_right _ hb]
  simp

/-- The entry is for this input, channel and key. -/
theorem HeldEntry.isFor_iff (e : HeldEntry) (i : InPort) (c : Chan) (key : Nat) :
    e.isFor i c key = true ↔ e.input = i ∧ e.chan = c ∧ e.key = key := by
  simp [HeldEntry.isFor, and_assoc]

/-- An entry with one target on an output is released with one note-off offered to it. -/
theorem State.releaseEntry_single (s : State) (e : HeldEntry) (rel : Nat) {t : Target} {o : OutPort} (ht : e.targets = [t])
    (hd : t.dest = .out o) :
    s.releaseEntry e rel = State.offerNoteOff { s with lr := { s.lr with held := s.lr.held.erase e } } o t.chan t.key rel := by
  simp [State.releaseEntry, State.releaseTargets, ht, State.releaseTarget, hd]

/-! ## Slots (R107 to R112) -/

/-- The slot once a raw value has joined its history (R108). -/
def Slot.joined (q : Slot) (v average : Nat) : Slot :=
  { q with history := historyPush q.history v, latest := filtered (historyPush q.history v) average }

/-- An event taken by slot `q0`, in front of the other slots in recency order: held back, forwarded, or made pending
(R108 to R111). -/
theorem State.slotTakes_eq {s : State} {k : SlotKey} {q0 : Slot} {others : List Slot} (v avg db iv : Nat)
    (h : takeSlot s.lr.slots k = (q0, others)) :
    s.slotTakes k v avg db iv =
      let q := q0.joined v avg
      let put := fun (q : Slot) => { s with lr := { s.lr with slots := others ++ [q] } }
      if q0.deadline.isSome ∨ passesDeadband q q.latest db = false then put q
      else if intervalPassed q s.now (1000 * iv) = true then (put (q.forward s.now q.latest)).sendSlot k q.latest
      else put { q with deadline := some (stampAfter (q.lastTime.getD s.now) (1000 * iv)) } := by
  simp only [State.slotTakes, h, Slot.joined]
  cases hd : q0.deadline with
  | some w => simp
  | none =>
    simp only [Option.isSome_none, Bool.false_eq_true, false_or]
    generalize passesDeadband _ _ db = b
    cases b
    · simp
    · simp only [if_true, Bool.true_eq_false, if_false]
      rfl

theorem slotFor_hit {before after : List Slot} {q : Slot} {k : SlotKey} (hk : q.key = k) (h : ∀ d ∈ before, d.key ≠ k) :
    slotFor (before ++ q :: after) k = some q :=
  find_hit (fun d hd => by simpa using h d hd) (by simp [hk])

theorem slotFor_miss {slots : List Slot} {k : SlotKey} (h : ∀ q ∈ slots, q.key ≠ k) : slotFor slots k = none :=
  List.find?_eq_none.mpr (fun q hq => by simpa using h q hq)

theorem takeSlot_hit {before after : List Slot} {q : Slot} {k : SlotKey} (hk : q.key = k)
    (h : ∀ d ∈ before ++ after, d.key ≠ k) : takeSlot (before ++ q :: after) k = (q, before ++ after) := by
  have hf : (before ++ q :: after).filter (fun r => decide (r.key ≠ k)) = before ++ after := by
    rw [List.filter_append, List.filter_cons]
    simp only [hk, ne_eq, not_true, decide_false, Bool.false_eq_true, if_false]
    rw [List.filter_eq_self.mpr, List.filter_eq_self.mpr]
    · intro d hd; simpa using h d (List.mem_append_right _ hd)
    · intro d hd; simpa using h d (List.mem_append_left _ hd)
  simp only [takeSlot, slotFor_hit hk (fun d hd => h d (List.mem_append_left _ hd)), hf]

theorem takeSlot_miss {slots : List Slot} {k : SlotKey} (h : ∀ q ∈ slots, q.key ≠ k) :
    takeSlot slots k = (Slot.fresh k, if slots.length < 32 then slots else slots.tail) := by
  simp only [takeSlot, slotFor_miss h]
  rfl

theorem replaceSlot_hit {before after : List Slot} {q r : Slot} (hk : r.key = q.key)
    (h : ∀ d ∈ before ++ after, d.key ≠ q.key) : replaceSlot (before ++ q :: after) r = before ++ r :: after := by
  have hid : ∀ l : List Slot, (∀ d ∈ l, d.key ≠ q.key) → l.map (fun d => if d.key = r.key then r else d) = l := by
    intro l hl
    exact (List.map_congr_left (fun d hd => by rw [hk, if_neg (hl d hd)]; rfl)).trans (List.map_id l)
  rw [replaceSlot, List.map_append, List.map_cons, hid before (fun d hd => h d (List.mem_append_left _ hd)),
    hid after (fun d hd => h d (List.mem_append_right _ hd)), hk, if_pos rfl]

theorem historyPush_eq (h : List Nat) (v : Nat) : historyPush h v = (h ++ [v]).drop (h.length + 1 - 8) := by
  simp only [historyPush, List.length_append, List.length_singleton]

/-- A value sent through a map of one layer with an output for its destination. -/
theorem State.sendSlot_single {s : State} {y : Layer} {o : OutPort} (k : SlotKey) (v : Nat) (hl : s.lr.live.layers = [y])
    (ho : y.dest = .out o) :
    s.sendSlot k v = if y.hears k.input k.chan && y.pass.passes k.kind then
      (s.offerCoalescible o (slotMsg k.kind y.outChan (y.scale v))).1 else s := by
  simp only [State.sendSlot, hl]
  by_cases hq : (y.hears k.input k.chan && y.pass.passes k.kind) = true
  · simp [List.filter, hq, deciders, State.sendCoalescible, ho]
  · simp [List.filter, hq, deciders]

theorem State.sendSlot_none {s : State} (k : SlotKey) (v : Nat) (hl : s.lr.live.layers = []) : s.sendSlot k v = s := by
  simp [State.sendSlot, hl, deciders]

theorem Layer.hears_iff (y : Layer) (i : InPort) (c : Chan) :
    y.hears i c = true ↔ y.input = i ∧ ∀ d, y.chan = some d → d = c := by
  simp only [Layer.hears]
  cases hc : y.chan with
  | none => simp
  | some d => simp

end Sys2Proof.Machine
end

