-- ==== Sys2Proof/Laws/PerInstr.lean ====
section
/-! SUPPORT. A statement about every command, constructor by constructor: the payload of a well-formed command fits a
telegram. -/

namespace Sys2Proof.Laws.PayloadFits

/-- The payload bytes a command carries beside the mode byte of the two STOP rows. -/
def payload : Instr → List Byte
  | .reset _ _ => []
  | .startupImageRead => []
  | .tick => []
  | .samplePeriod => []
  | .beatEdge => []
  | .mark _ pay => pay
  | .lastMarkExpiry => []
  | .lostDeadline => []
  | .start _ pay => pay
  | .stopNow _ extra => extra
  | .stopAtBar _ extra => extra
  | .locate _ pay => pay
  | .setTempo _ pay => pay
  | .rampTempo _ pay => pay
  | .setMeter _ pay => pay
  | .setFollow _ pay => pay
  | .writePattern _ pay => pay
  | .setClick _ pay => pay
  | .muteClick _ pay => pay
  | .writeScene _ pay => pay
  | .readScene _ pay => pay
  | .loadSceneNow _ pay => pay
  | .lock _ pay => pay
  | .unlock _ pay => pay
  | .writeCue _ pay => pay
  | .readCue _ pay => pay
  | .writeSong _ pay => pay
  | .readSong _ pay => pay
  | .writeSetlist _ pay => pay
  | .readSetlist _ pay => pay
  | .selectSong _ pay => pay
  | .go _ pay => pay
  | .setInput _ pay => pay
  | .setOutput _ pay => pay
  | .setWatch _ pay => pay
  | .restart _ pay => pay
  | .saveShow _ pay => pay
  | .saveDone _ => []
  | .loadShow _ pay => pay
  | .loadDone => []
  | .setFaultMode _ pay => pay
  | .setActive _ pay => pay
  | .ackFaults _ pay => pay
  | .panic _ pay => pay
  | .readStatus _ pay => pay
  | .readFaults _ pay => pay
  | .subscribe _ pay => pay
  | .resync _ pay => pay
  | .unknownRequest _ _ pay => pay
  | .echo _ pay => pay
  | .hold _ pay => pay
  | .resume _ pay => pay
  | .holdExpiry _ => []
  | .badClassTelegram _ _ pay => pay
  | .badReport _ _ pay => pay
  | .reportDenied _ _ pay => pay
  | .telegramDiscard _ _ => []
  | .gapDeadline _ => []
  | .telegramSent _ => []
  | .detectFall _ => []
  | .detectRise _ => []
  | .pulseDeadline => []
  | .resyncAllOff _ => []
  | .resyncReplay _ => []
  | .resyncJoined _ => []
  | .noteOn _ _ _ _ => []
  | .noteOff _ _ _ _ => []
  | .sustainChange _ _ _ => []
  | .allNotesOff _ _ _ => []
  | .activeSensing _ => []
  | .sensingDeadline _ => []
  | .inputFramingError _ => []
  | .systemExclusive _ _ => []
  | .systemCommon _ _ => []
  | .realTimeDiscard _ _ => []
  | .channelMessageDiscard _ _ _ => []
  | .controlChange _ _ _ _ => []
  | .channelPressure _ _ _ => []
  | .filterExpiry _ => []
  | .forwardTimeExpiry _ => []
  | .pitchBend _ _ _ _ => []
  | .programChange _ _ _ => []
  | .outputByteSent _ => []
  | .outputDisabled _ => []
  | .partialMessageByte _ _ => []
  | .linkByte _ _ => []

/-- A well-formed command carries at most the 240 payload bytes of a telegram (R145). -/
def Statement (i : Instr) : Prop := i.wellFormed = true → (payload i).length ≤ 240

/-- The payload of a report that fits its kind fits a telegram. -/
theorem fits_small {k : Machine.RepKind} {pay : List Byte} (h : k.fits pay = true) : pay.length ≤ 240 := by
  cases k <;> exact Nat.le_trans (Nat.le_of_eq (of_decide_eq_true h)) (by decide)

theorem reset (cause : ResetCause) (detect : PerLink Bool) : Statement (.reset cause detect) :=
  fun _ => Nat.zero_le _

theorem startupImageRead : Statement .startupImageRead :=
  fun _ => Nat.zero_le _

theorem tick : Statement .tick :=
  fun _ => Nat.zero_le _

theorem samplePeriod : Statement .samplePeriod :=
  fun _ => Nat.zero_le _

theorem beatEdge : Statement .beatEdge :=
  fun _ => Nat.zero_le _

theorem mark (l : Link) (pay : List Byte) : Statement (.mark l pay) :=
  fun h => fits_small ((Bool.and_eq_true _ (Machine.RepKind.fits _ _)).mp h).2

theorem lastMarkExpiry : Statement .lastMarkExpiry :=
  fun _ => Nat.zero_le _

theorem lostDeadline : Statement .lostDeadline :=
  fun _ => Nat.zero_le _

theorem start (l : Link) (pay : List Byte) : Statement (.start l pay) :=
  fun h => of_decide_eq_true h

theorem stopNow (l : Link) (extra : List Byte) : Statement (.stopNow l extra) :=
  fun h => Nat.le_succ_of_le (of_decide_eq_true h)

theorem stopAtBar (l : Link) (extra : List Byte) : Statement (.stopAtBar l extra) :=
  fun h => Nat.le_succ_of_le (of_decide_eq_true h)

theorem locate (l : Link) (pay : List Byte) : Statement (.locate l pay) :=
  fun h => of_decide_eq_true h

theorem setTempo (l : Link) (pay : List Byte) : Statement (.setTempo l pay) :=
  fun h => of_decide_eq_true h

theorem rampTempo (l : Link) (pay : List Byte) : Statement (.rampTempo l pay) :=
  fun h => of_decide_eq_true h

theorem setMeter (l : Link) (pay : List Byte) : Statement (.setMeter l pay) :=
  fun h => of_decide_eq_true h

theorem setFollow (l : Link) (pay : List Byte) : Statement (.setFollow l pay) :=
  fun h => of_decide_eq_true h

theorem writePattern (l : Link) (pay : List Byte) : Statement (.writePattern l pay) :=
  fun h => of_decide_eq_true h

theorem setClick (l : Link) (pay : List Byte) : Statement (.setClick l pay) :=
  fun h => of_decide_eq_true h

theorem muteClick (l : Link) (pay : List Byte) : Statement (.muteClick l pay) :=
  fun h => of_decide_eq_true h

theorem writeScene (l : Link) (pay : List Byte) : Statement (.writeScene l pay) :=
  fun h => of_decide_eq_true h

theorem readScene (l : Link) (pay : List Byte) : Statement (.readScene l pay) :=
  fun h => of_decide_eq_true h

theorem loadSceneNow (l : Link) (pay : List Byte) : Statement (.loadSceneNow l pay) :=
  fun h => of_decide_eq_true h

theorem lock (l : Link) (pay : List Byte) : Statement (.lock l pay) :=
  fun h => of_decide_eq_true h

theorem unlock (l : Link) (pay : List Byte) : Statement (.unlock l pay) :=
  fun h => of_decide_eq_true h

theorem writeCue (l : Link) (pay : List Byte) : Statement (.writeCue l pay) :=
  fun h => of_decide_eq_true h

theorem readCue (l : Link) (pay : List Byte) : Statement (.readCue l pay) :=
  fun h => of_decide_eq_true h

theorem writeSong (l : Link) (pay : List Byte) : Statement (.writeSong l pay) :=
  fun h => of_decide_eq_true h

theorem readSong (l : Link) (pay : List Byte) : Statement (.readSong l pay) :=
  fun h => of_decide_eq_true h

theorem writeSetlist (l : Link) (pay : List Byte) : Statement (.writeSetlist l pay) :=
  fun h => of_decide_eq_true h

theorem readSetlist (l : Link) (pay : List Byte) : Statement (.readSetlist l pay) :=
  fun h => of_decide_eq_true h

theorem selectSong (l : Link) (pay : List Byte) : Statement (.selectSong l pay) :=
  fun h => of_decide_eq_true h

theorem go (l : Link) (pay : List Byte) : Statement (.go l pay) :=
  fun h => of_decide_eq_true h

theorem setInput (l : Link) (pay : List Byte) : Statement (.setInput l pay) :=
  fun h => of_decide_eq_true h

theorem setOutput (l : Link) (pay : List Byte) : Statement (.setOutput l pay) :=
  fun h => of_decide_eq_true h

theorem setWatch (l : Link) (pay : List Byte) : Statement (.setWatch l pay) :=
  fun h => of_decide_eq_true h

theorem restart (l : Link) (pay : List Byte) : Statement (.restart l pay) :=
  fun h => of_decide_eq_true h

theorem saveShow (l : Link) (pay : List Byte) : Statement (.saveShow l pay) :=
  fun h => of_decide_eq_true h

theorem saveDone (e : SaveEnd) : Statement (.saveDone e) :=
  fun _ => Nat.zero_le _

theorem loadShow (l : Link) (pay : List Byte) : Statement (.loadShow l pay) :=
  fun h => of_decide_eq_true h

theorem loadDone : Statement .loadDone :=
  fun _ => Nat.zero_le _

theorem setFaultMode (l : Link) (pay : List Byte) : Statement (.setFaultMode l pay) :=
  fun h => of_decide_eq_true h

theorem setActive (l : Link) (pay : List Byte) : Statement (.setActive l pay) :=
  fun h => of_decide_eq_true h

theorem ackFaults (l : Link) (pay : List Byte) : Statement (.ackFaults l pay) :=
  fun h => of_decide_eq_true h

theorem panic (l : Link) (pay : List Byte) : Statement (.panic l pay) :=
  fun h => of_decide_eq_true h

theorem readStatus (l : Link) (pay : List Byte) : Statement (.readStatus l pay) :=
  fun h => of_decide_eq_true h

theorem readFaults (l : Link) (pay : List Byte) : Statement (.readFaults l pay) :=
  fun h => of_decide_eq_true h

theorem subscribe (l : Link) (pay : List Byte) : Statement (.subscribe l pay) :=
  fun h => of_decide_eq_true h

theorem resync (l : Link) (pay : List Byte) : Statement (.resync l pay) :=
  fun h => of_decide_eq_true h

theorem unknownRequest (l : Link) (code : Fin 64) (pay : List Byte) : Statement (.unknownRequest l code pay) :=
  fun h => of_decide_eq_true ((Bool.and_eq_true _ _).mp h).2

theorem echo (l : Link) (pay : List Byte) : Statement (.echo l pay) :=
  fun h => fits_small ((Bool.and_eq_true _ (Machine.RepKind.fits _ _)).mp h).2

theorem hold (l : Link) (pay : List Byte) : Statement (.hold l pay) :=
  fun h => fits_small (k := .hold) h

theorem resume (l : Link) (pay : List Byte) : Statement (.resume l pay) :=
  fun h => fits_small (k := .resume) h

theorem holdExpiry (l : Link) : Statement (.holdExpiry l) :=
  fun _ => Nat.zero_le _

theorem badClassTelegram (l : Link) (kind : Byte) (pay : List Byte) : Statement (.badClassTelegram l kind pay) :=
  fun h => of_decide_eq_true ((Bool.and_eq_true _ _).mp h).2

theorem badReport (l : Link) (code : Fin 64) (pay : List Byte) : Statement (.badReport l code pay) :=
  fun h => of_decide_eq_true ((Bool.and_eq_true _ _).mp h).2

theorem reportDenied (l : Link) (code : Fin 64) (pay : List Byte) : Statement (.reportDenied l code pay) :=
  fun h => of_decide_eq_true ((Bool.and_eq_true _ _).mp h).2

theorem telegramDiscard (l : Link) (e : RxEvent) : Statement (.telegramDiscard l e) :=
  fun _ => Nat.zero_le _

theorem gapDeadline (l : Link) : Statement (.gapDeadline l) :=
  fun _ => Nat.zero_le _

theorem telegramSent (l : Link) : Statement (.telegramSent l) :=
  fun _ => Nat.zero_le _

theorem detectFall (l : Link) : Statement (.detectFall l) :=
  fun _ => Nat.zero_le _

theorem detectRise (l : Link) : Statement (.detectRise l) :=
  fun _ => Nat.zero_le _

theorem pulseDeadline : Statement .pulseDeadline :=
  fun _ => Nat.zero_le _

theorem resyncAllOff (x : Station) : Statement (.resyncAllOff x) :=
  fun _ => Nat.zero_le _

theorem resyncReplay (x : Station) : Statement (.resyncReplay x) :=
  fun _ => Nat.zero_le _

theorem resyncJoined (x : Station) : Statement (.resyncJoined x) :=
  fun _ => Nat.zero_le _

theorem noteOn (i : InPort) (c : Chan) (key vel : Val7) : Statement (.noteOn i c key vel) :=
  fun _ => Nat.zero_le _

theorem noteOff (i : InPort) (c : Chan) (key vel : Val7) : Statement (.noteOff i c key vel) :=
  fun _ => Nat.zero_le _

theorem sustainChange (i : InPort) (c : Chan) (value : Val7) : Statement (.sustainChange i c value) :=
  fun _ => Nat.zero_le _

theorem allNotesOff (i : InPort) (c : Chan) (value : Val7) : Statement (.allNotesOff i c value) :=
  fun _ => Nat.zero_le _

theorem activeSensing (i : InPort) : Statement (.activeSensing i) :=
  fun _ => Nat.zero_le _

theorem sensingDeadline (i : InPort) : Statement (.sensingDeadline i) :=
  fun _ => Nat.zero_le _

theorem inputFramingError (i : InPort) : Statement (.inputFramingError i) :=
  fun _ => Nat.zero_le _

theorem systemExclusive (i : InPort) (data : List Val7) : Statement (.systemExclusive i data) :=
  fun _ => Nat.zero_le _

theorem systemCommon (i : InPort) (m : SysCommon) : Statement (.systemCommon i m) :=
  fun _ => Nat.zero_le _

theorem realTimeDiscard (i : InPort) (b : RealTime) : Statement (.realTimeDiscard i b) :=
  fun _ => Nat.zero_le _

theorem channelMessageDiscard (i : InPort) (c : Chan) (m : ChanMsg) : Statement (.channelMessageDiscard i c m) :=
  fun _ => Nat.zero_le _

theorem controlChange (i : InPort) (c : Chan) (number value : Val7) : Statement (.controlChange i c number value) :=
  fun _ => Nat.zero_le _

theorem channelPressure (i : InPort) (c : Chan) (value : Val7) : Statement (.channelPressure i c value) :=
  fun _ => Nat.zero_le _

theorem filterExpiry (k : SlotKey) : Statement (.filterExpiry k) :=
  fun _ => Nat.zero_le _

theorem forwardTimeExpiry (k : SlotKey) : Statement (.forwardTimeExpiry k) :=
  fun _ => Nat.zero_le _

theorem pitchBend (i : InPort) (c : Chan) (lsb msb : Val7) : Statement (.pitchBend i c lsb msb) :=
  fun _ => Nat.zero_le _

theorem programChange (i : InPort) (c : Chan) (program : Val7) : Statement (.programChange i c program) :=
  fun _ => Nat.zero_le _

theorem outputByteSent (o : OutPort) : Statement (.outputByteSent o) :=
  fun _ => Nat.zero_le _

theorem outputDisabled (o : OutPort) : Statement (.outputDisabled o) :=
  fun _ => Nat.zero_le _

theorem partialMessageByte (i : InPort) (b : Byte) : Statement (.partialMessageByte i b) :=
  fun _ => Nat.zero_le _

theorem linkByte (l : Link) (b : Byte) : Statement (.linkByte l b) :=
  fun _ => Nat.zero_le _

end Sys2Proof.Laws.PayloadFits
end

