-- ==== Sys2Proof/Laws/Releases.lean ====
section
/-! SUPPORT. The releases of held entries (R91), one at a time: what a release leaves of the held-note table, and the step by
which every entry that satisfies a test is released, oldest first. -/

namespace Sys2Proof.Machine

theorem State.offerNoteOff_lr (s : State) (o : OutPort) (c : Chan) (k v : Nat) : (s.offerNoteOff o c k v).lr = s.lr := by
  unfold State.offerNoteOff
  simp only
  split <;> rfl

theorem State.releaseTargets_held (p : PerStation Bool) (r : Nat) : ∀ (ts : List Target) (s : State),
    (s.releaseTargets p r ts).lr.held.map HeldEntry.bare = s.lr.held.map HeldEntry.bare
  | [], _ => rfl
  | t :: ts, s => by
    refine (State.releaseTargets_held p r ts (s.releaseTarget p r t)).trans ?_
    unfold State.releaseTarget
    split
    · rw [State.offerNoteOff_lr]
    · exact (s.mirrorOff_watchOnly _ _).held

/-- The other entries stay, in their order, but for their replay-pending sets. -/
theorem State.releaseEntry_held (s : State) (e : HeldEntry) (r : Nat) :
    (s.releaseEntry e r).lr.held.map HeldEntry.bare = (s.lr.held.erase e).map HeldEntry.bare :=
  State.releaseTargets_held e.pend r e.targets _

theorem State.releaseEntry_length {s : State} {e : HeldEntry} (h : e ∈ s.lr.held) (r : Nat) :
    (s.releaseEntry e r).lr.held.length + 1 = s.lr.held.length := by
  have k := congrArg List.length (s.releaseEntry_held e r)
  simp only [List.length_map, List.length_erase_of_mem h] at k
  have := List.length_pos_of_mem h
  omega

theorem State.releaseAll_none {s : State} {p : HeldEntry → Bool} (rel : HeldEntry → Nat)
    (h : s.lr.held.find? p = none) : s.releaseAll p rel = s := by
  unfold State.releaseAll
  cases hn : s.lr.held.length with
  | zero => rfl
  | succ n => simp [State.releaseWhere, h]

/-- The oldest entry that satisfies the test is released, then the rest. -/
theorem State.releaseAll_some {s : State} {p : HeldEntry → Bool} {e : HeldEntry} (rel : HeldEntry → Nat)
    (h : s.lr.held.find? p = some e) : s.releaseAll p rel = (s.releaseEntry e (rel e)).releaseAll p rel := by
  have hl := s.releaseEntry_length (List.mem_of_find?_eq_some h) (rel e)
  unfold State.releaseAll
  rw [← hl]
  simp [State.releaseWhere, h]

end Sys2Proof.Machine
end

