-- ==== Sys2Proof/Laws/Settings.lean ====
section
/-! SUPPORT. What releases and changes of settings keep, and the settings that an image taken whole leaves in force. -/

namespace Sys2Proof.Machine

/-- What releases and new settings keep: the engine, the sequencer, the live map, the click, the store, the modes of the
Fault Log, the miss limit, and every output's settings. -/
structure Kept (s t : State) : Prop where
  te : t.te = s.te
  cs : t.cs = s.cs
  ck : t.ck = s.ck
  live : t.lr.live = s.lr.live
  limit : t.sw.limit = s.sw.limit
  modes : t.fl.modes = s.fl.modes
  st : t.st = s.st
  outs : ∀ o, (t.midiOut o).settings = (s.midiOut o).settings

theorem Kept.refl (s : State) : Kept s s := ⟨rfl, rfl, rfl, rfl, rfl, rfl, rfl, fun _ => rfl⟩

theorem Kept.trans {s t u : State} (h : Kept s t) (k : Kept t u) : Kept s u :=
  ⟨k.te.trans h.te, k.cs.trans h.cs, k.ck.trans h.ck, k.live.trans h.live, k.limit.trans h.limit, k.modes.trans h.modes,
    k.st.trans h.st, fun o => (k.outs o).trans (h.outs o)⟩

theorem WatchOnly.kept {s t : State} (h : WatchOnly s t) : Kept s t :=
  ⟨h.te, h.cs, h.ck, h.live, h.limit, h.modes, h.st, fun o => by simp [State.midiOut, h.op]⟩

theorem LinksOnly.kept {s t : State} (h : LinksOnly s t) : Kept s t := h.watchOnly.kept

theorem State.setOut_kept (s : State) (o : OutPort) (x : MidiOut) (h : x.settings = (s.midiOut o).settings) :
    Kept s (s.setOut o x) := by
  refine ⟨rfl, rfl, rfl, rfl, rfl, rfl, rfl, fun p => ?_⟩
  by_cases hp : p = o
  · subst hp; simpa [State.midiOut, State.setOut] using h
  · simp [State.midiOut, State.setOut, PerOut.get_set_of_ne _ _ hp]

theorem MidiOut.kick_settings (x : MidiOut) (now : Stamp) : (x.kick now).settings = x.settings := by
  unfold MidiOut.kick
  split
  · unfold MidiOut.nextByte
    split
    · rfl
    · split
      · rfl
      · split
        · unfold MidiOut.startMessage
          split
          · split <;> rfl
          · rfl
        · rfl
  · rfl

theorem State.offerNoteOff_kept (s : State) (o : OutPort) (c : Chan) (k v : Nat) : Kept s (s.offerNoteOff o c k v) := by
  unfold State.offerNoteOff
  simp only
  split
  · exact Kept.refl s
  · exact s.setOut_kept o _ (MidiOut.kick_settings _ _)

theorem State.heldOnly_kept (s : State) (r : LayerRouter) (h : r.live = s.lr.live) : Kept s { s with lr := r } :=
  ⟨rfl, rfl, rfl, h, rfl, rfl, rfl, fun _ => rfl⟩

theorem State.releaseEntry_kept (s : State) (e : HeldEntry) (r : Nat) : Kept s (s.releaseEntry e r) := by
  unfold State.releaseEntry State.releaseTargets
  refine (s.heldOnly_kept { s.lr with held := s.lr.held.erase e } rfl).trans (foldl_rel Kept Kept.refl Kept.trans (fun u t => ?_) _ _)
  unfold State.releaseTarget
  split
  · exact u.offerNoteOff_kept _ _ _ _
  · exact (u.mirrorOff_watchOnly _ _).kept

theorem State.releaseWhere_kept (p : HeldEntry → Bool) (r : HeldEntry → Nat) :
    ∀ (n : Nat) (s : State), Kept s (State.releaseWhere p r n s)
  | 0, s => Kept.refl s
  | n + 1, s => by
    unfold State.releaseWhere
    split
    · exact Kept.refl s
    · exact (s.releaseEntry_kept _ _).trans (State.releaseWhere_kept p r n _)

theorem State.setIn_kept (s : State) (i : InPort) (x : MidiIn) : Kept s (s.setIn i x) :=
  ⟨rfl, rfl, rfl, rfl, rfl, rfl, rfl, fun _ => rfl⟩

/-- New settings of one input: what they keep, and the settings every input then has (R49). -/
theorem State.applyInput_kept (s : State) (i : InPort) (t : InSettings) :
    Kept s (s.applyInput i t) ∧ ((s.applyInput i t).midiIn i).settings = t ∧
      ∀ j, j ≠ i → ((s.applyInput i t).midiIn j).settings = (s.midiIn j).settings := by
  have hset : ∀ (u : State) (x : MidiIn), ((u.setIn i x).midiIn i) = x ∧ ∀ j, j ≠ i → ((u.setIn i x).midiIn j) = u.midiIn j :=
    fun u x => ⟨by simp [State.midiIn, State.setIn], fun j hj => by simp [State.midiIn, State.setIn, PerIn.get_set_of_ne _ _ hj]⟩
  have hrel : ∀ (u : State) (p : HeldEntry → Bool) (r : HeldEntry → Nat), Kept u (u.releaseAll p r) ∧ (u.releaseAll p r).ip = u.ip :=
    fun u p r => ⟨State.releaseWhere_kept p r _ u, (u.releaseAll_routerOnly p r).ip⟩
  unfold State.applyInput
  simp only
  split
  · obtain ⟨h1, h2⟩ := hrel (s.setIn i { (s.midiIn i).clearParser with settings := t, sensing := .unwatched, deadline := none, sustain := 0#16 }) (fun e => decide (e.input = i)) (fun _ => 64)
    refine ⟨?_, ?_, fun j hj => ?_⟩
    · exact ((s.setIn_kept i _).trans h1).trans (State.heldOnly_kept _ _ rfl)
    · show ((State.releaseAll _ _ _).ip.get i).settings = t
      rw [h2]; exact congrArg _ (hset s _).1
    · show ((State.releaseAll _ _ _).ip.get j).settings = _
      rw [h2]; exact congrArg _ ((hset s _).2 j hj)
  · exact ⟨s.setIn_kept i _, congrArg _ (hset s _).1, fun j hj => congrArg _ ((hset s _).2 j hj)⟩
  · have hf : ∀ (cs : List Chan) (u : State), Kept u (cs.foldl (fun s c => s.dropChannel i c) u) ∧
        (∀ j, ((cs.foldl (fun s c => s.dropChannel i c) u).midiIn j).settings = (u.midiIn j).settings) := by
      intro cs
      induction cs with
      | nil => exact fun u => ⟨Kept.refl u, fun _ => rfl⟩
      | cons c r ih =>
        intro u
        have hd : Kept u (u.dropChannel i c) ∧ ∀ j, ((u.dropChannel i c).midiIn j).settings = (u.midiIn j).settings := by
          unfold State.dropChannel State.allNotesOffEvent
          simp only
          obtain ⟨h1, h2⟩ := hrel (u.setIn i { u.midiIn i with sustain := setPedal (u.midiIn i).sustain c false })
            (fun e => decide (e.input = i) && decide (e.chan = c)) (fun _ => 64)
          refine ⟨(u.setIn_kept i _).trans h1, fun j => ?_⟩
          refine (congrArg (fun p => (PerIn.get p j).settings) h2).trans ?_
          by_cases hj : j = i
          · subst hj; exact (congrArg MidiIn.settings (hset u _).1).trans rfl
          · exact congrArg _ ((hset u _).2 j hj)
        obtain ⟨h1, h2⟩ := ih (u.dropChannel i c)
        exact ⟨hd.1.trans h1, fun j => (h2 j).trans (hd.2 j)⟩
    obtain ⟨h1, h2⟩ := hf (allChans.filter (fun c => passesFilter (s.midiIn i).settings.filter c && !passesFilter t.filter c))
      (s.setIn i { s.midiIn i with settings := t })
    exact ⟨(s.setIn_kept i _).trans h1, (h2 i).trans (congrArg _ (hset s _).1), fun j hj => (h2 j).trans (congrArg _ ((hset s _).2 j hj))⟩
  · exact ⟨s.setIn_kept i _, congrArg _ (hset s _).1, fun j hj => congrArg _ ((hset s _).2 j hj)⟩

theorem MidiOut.applySettings_settings (x : MidiOut) (t : OutSettings) : (x.applySettings t).settings = t := by
  unfold MidiOut.applySettings
  simp only
  split
  · split <;> rfl
  · rfl
  · rfl
  · rfl

/-- A new miss limit keeps all but the watch, the lock and the replay-pending sets, and is in force after (R177). -/
theorem State.setLimit_kept (s : State) (n : Nat) : Kept { s with sw := { s.sw with limit := n } } (s.setLimit n) ∧
    (s.setLimit n).ip = s.ip := by
  have hl : ∀ (u : State) (x : Station), WatchOnly u (u.limitStation x) := by
    intro u x
    unfold State.limitStation
    split
    · split
      · exact u.changeStation_watchOnly _ _ _
      · exact WatchOnly.refl u
    · split
      · exact u.changeStation_watchOnly _ _ _
      · exact WatchOnly.refl u
    · exact WatchOnly.refl u
    · exact WatchOnly.refl u
    · exact WatchOnly.refl u
  have hw : WatchOnly { s with sw := { s.sw with limit := n } } (s.setLimit n) := by
    unfold State.setLimit
    simp only
    split
    · split
      · exact ((State.choose_watchOnly _).trans (hl _ .a)).trans (hl _ .b)
      · exact ((State.choose_watchOnly _).trans (hl _ .b)).trans (hl _ .a)
    · exact (hl _ .a).trans (hl _ .b)
  exact ⟨hw.kept, hw.ip⟩

/-- The settings of an image, taken whole (R182): what they keep, and the settings then in force. -/
theorem State.loadSettings_takes (s : State) (g : ShowImage) :
    let t := s.loadSettings g
    t.te = s.te ∧ t.cs = s.cs ∧ t.ck = s.ck ∧ t.lr.live = s.lr.live ∧ t.fl.modes = s.fl.modes ∧ t.st = s.st ∧
      t.sw.limit = max 3 (min 20 g.limit) ∧ (∀ i, (t.midiIn i).settings = g.inputs.get i) ∧
      ∀ o, (t.midiOut o).settings = g.outputs.get o := by
  simp only [State.loadSettings]
  have hin : ∀ (is : List InPort) (u : State), Kept u (is.foldl (fun s i => s.applyInput i (g.inputs.get i)) u) ∧
      ∀ i, (((is.foldl (fun s i => s.applyInput i (g.inputs.get i)) u).midiIn i).settings =
        if i ∈ is then g.inputs.get i else (u.midiIn i).settings) := by
    intro is
    induction is with
    | nil => exact fun u => ⟨Kept.refl u, fun i => by simp⟩
    | cons a r ih =>
      intro u
      obtain ⟨h1, h2, h3⟩ := u.applyInput_kept a (g.inputs.get a)
      obtain ⟨k1, k2⟩ := ih (u.applyInput a (g.inputs.get a))
      refine ⟨h1.trans k1, fun i => (k2 i).trans ?_⟩
      by_cases hr : i ∈ r
      · simp [hr]
      · by_cases ha : i = a
        · subst ha; simp [hr, h2]
        · simp [hr, ha, h3 i ha]
  have hout : ∀ (os : List OutPort) (u : State),
      let v := os.foldl (fun s o => s.setOut o ((s.midiOut o).applySettings (g.outputs.get o))) u
      v = { u with op := v.op } ∧ ∀ o, (v.midiOut o).settings = if o ∈ os then g.outputs.get o else (u.midiOut o).settings := by
    intro os
    induction os with
    | nil => exact fun u => ⟨rfl, fun o => by simp⟩
    | cons a r ih =>
      intro u
      obtain ⟨h1, h2⟩ := ih (u.setOut a ((u.midiOut a).applySettings (g.outputs.get a)))
      refine ⟨h1.trans rfl, fun o => (h2 o).trans ?_⟩
      by_cases hr : o ∈ r
      · simp [hr]
      · by_cases ha : o = a
        · subst ha; simp [hr, State.midiOut, State.setOut, MidiOut.applySettings_settings]
        · simp [hr, ha, State.midiOut, State.setOut, PerOut.get_set_of_ne _ _ ha]
  obtain ⟨h1, h2⟩ := hin allIns s
  obtain ⟨k1, k2⟩ := hout allOuts (allIns.foldl (fun s i => s.applyInput i (g.inputs.get i)) s)
  obtain ⟨m1, m2⟩ := State.setLimit_kept (allOuts.foldl (fun s o => s.setOut o ((s.midiOut o).applySettings (g.outputs.get o)))
    (allIns.foldl (fun s i => s.applyInput i (g.inputs.get i)) s)) (max 3 (min 20 g.limit))
  have hi : ∀ i, i ∈ allIns := by intro i; cases i <;> decide
  have ho : ∀ o, o ∈ allOuts := by intro o; cases o <;> decide
  refine ⟨?_, ?_, ?_, ?_, ?_, ?_, m1.limit, fun i => ?_, fun o => ?_⟩
  · exact (m1.te.trans (by rw [k1])).trans h1.te
  · exact (m1.cs.trans (by rw [k1])).trans h1.cs
  · exact (m1.ck.trans (by rw [k1])).trans h1.ck
  · exact (m1.live.trans (by rw [k1])).trans h1.live
  · exact (m1.modes.trans (by rw [k1])).trans h1.modes
  · exact (m1.st.trans (by rw [k1])).trans h1.st
  · unfold State.midiIn
    rw [m2, k1]
    exact (h2 i).trans (by simp [hi])
  · exact (m1.outs o).trans ((k2 o).trans (by simp [ho]))

end Sys2Proof.Machine
end

