-- ==== Sys2Proof/Laws/Stations.lean ====
section
/-! SUPPORT. A station's change of state, said once in the terms of Safety.lean: the lemmas a proof about the watch cites
instead of unfolding the consequences of R168. -/

namespace Sys2Proof.Machine

theorem State.releaseLock_eq (s : State) : s.releaseLock =
    State.broadcast { s with lr := { s.lr with lock := none } } Mask.scene (.scene .lock s.lr.live.scene none none none s.barBeat) :=
  rfl

theorem State.makeActive_eq (s : State) (x : Station) (c : ActiveCause) : s.makeActive x c = s.nowActive x c := rfl

theorem StationState.onAir_eq_false (a : StationState) : a.onAir = false ↔ a ≠ .up ∧ a ≠ .suspect := by
  cases a <;> decide

theorem State.aired_eq (s : State) (x : Station) : s.aired x = (s.station x).state.onAir := by
  unfold State.aired
  cases (s.station x).state <;> rfl

/-- The lock and the active station after station X, once in state `old`, has come to a state off the air. -/
theorem State.offAir_eq (s : State) (x : Station) (old : StationState) {new : StationState} (h : new.onAir = false) :
    (s.autoRelease x new).reviewActive x old new = s.offAir x old.onAir := by
  have hup : ¬(new = .up ∧ (old = .joining ∨ old = .suspect)) := by
    rintro ⟨rfl, _⟩
    cases h
  have hsw : (s.autoRelease x new).sw = s.sw := by
    unfold State.autoRelease
    split
    · rw [State.releaseLock_eq, (State.broadcast_linksOnly _ _ _).watch]
    · rfl
  have hst : ∀ y, (s.autoRelease x new).station y = s.station y := fun y => by unfold State.station; rw [hsw]
  have hu : s.autoRelease x new = if s.lr.lock = some x.link then s.releaseLock else s := by
    simp [State.autoRelease, h]
  unfold State.reviewActive State.offAir
  rw [if_neg hup, hsw, hst, hu]
  simp only [h, and_true]
  by_cases ha : s.sw.active = some x ∧ old.onAir = true
  · rw [if_pos ha, if_pos (show old.onAir = true ∧ s.sw.active = some x from ⟨ha.2, ha.1⟩)]; rfl
  · rw [if_neg ha, if_neg (show ¬(old.onAir = true ∧ s.sw.active = some x) from fun k => ha ⟨k.2, k.1⟩)]; rfl

@[simp] theorem State.clears_lr (s : State) (x : Station) : (s.clears x).lr = s.lr := by
  unfold State.clears
  split <;> rfl

@[simp] theorem State.clears_active (s : State) (x : Station) : (s.clears x).sw.active = s.sw.active := by
  unfold State.clears
  split <;> rfl

/-- A station that neither holds the lock nor is active leaves the air without a word. -/
theorem State.offAir_of_neither (s : State) (x : Station) (was : Bool) (hl : s.lr.lock ≠ some x.link)
    (ha : s.sw.active ≠ some x ∨ was = false) : s.offAir x was = s := by
  unfold State.offAir
  rw [if_neg hl, if_neg (fun k => ha.elim (fun h => h k.2) (fun h => by simp [h] at k))]

/-- The ALL_OFF of a station that is JOINING in CLEARING. -/
theorem State.resyncAllOff_eq (s : State) (x : Station) (h : (s.station x).state = .joining)
    (hp : (s.station x).phase = .clearing) : s.resyncAllOff x = s.clears x := by
  have hr : s.allOffReady x = true ↔ (s.link x.link).high = true ∧ 16 ≤ (s.link x.link).free := by
    simp only [State.allOffReady, h, hp, decide_true, Bool.true_and, Bool.and_eq_true, decide_eq_true_eq]
    exact Iff.rfl
  unfold State.resyncAllOff State.clears
  by_cases hc : s.allOffReady x = true
  · rw [if_pos hc, if_pos (hr.1 hc)]
  · rw [if_neg hc, if_neg (fun k => hc (hr.2 k))]

/-- The resync a station enters JOINING with. -/
theorem State.enterJoining_eq (s : State) (x : Station) : s.enterState x .joining =
    ((s.setStation x { s.station x with state := .joining, phase := .clearing }).marked x).clears x := by
  rw [← State.resyncAllOff_eq _ x]
  · rfl
  · cases x <;> rfl
  · cases x <;> rfl

/-- A change of a station's state, and the STATION fault it reports, if any. -/
theorem State.changeStation_eq (s : State) (x : Station) (new : StationState) (f : Option FaultKind) :
    s.changeStation x new f = match f with
      | some k => (s.moved x new).report k (some (.link x.link))
      | none => s.moved x new := by
  have h : ((s.enterState x new).autoRelease x new).reviewActive x (s.station x).state new = s.moved x new := by
    cases new with
    | absent => rw [State.offAir_eq _ _ _ rfl, ← State.aired_eq]; rfl
    | down => rw [State.offAir_eq _ _ _ rfl, ← State.aired_eq]; rfl
    | joining => rw [State.offAir_eq _ _ _ rfl, ← State.aired_eq, State.enterJoining_eq]; rfl
    | suspect => simp [State.autoRelease, State.reviewActive, State.enterState, State.moved, StationState.onAir]
    | up =>
      have hn : StationState.up.onAir ≠ false := by decide
      simp only [State.autoRelease, State.reviewActive, State.enterState, State.moved, State.joinsAir,
        State.makeActive_eq, StationState.onAir_eq_false, true_and, hn]
      simp
      all_goals rfl
  unfold State.changeStation
  rw [← h]
  all_goals (cases f <;> rfl)

end Sys2Proof.Machine
end

