-- ==== Sys2Proof/Laws/Tables.lean ====
section
/-! SUPPORT. The sparse tables: what a slot holds after a slot is written or given back, that the one canonical form is
kept, and what the pattern table of an image reads as (R26, R182, R183). -/

namespace Sys2Proof.Machine

variable {α : Type}

/-- A sorted table lists nothing at or below its first number but its first slot. -/
theorem Table.look_of_le {j : Nat} {x : α} {r : Table α} (h : Table.sorted ((j, x) :: r) = true) {k : Nat} (hk : k ≤ j) :
    Table.look r k = none := by
  induction r generalizing j x with
  | nil => rfl
  | cons e r ih =>
    obtain ⟨i, y⟩ := e
    simp only [Table.sorted, Bool.and_eq_true, decide_eq_true_eq] at h
    have hs : Table.sorted ((i, y) :: r) = true := by
      simp only [Table.sorted, Bool.and_eq_true]
      exact h.2
    simp only [Table.look]
    rw [if_neg (by omega), ih hs (by omega)]

theorem Table.sorted_tail {e : Nat × α} {r : Table α} (h : Table.sorted (e :: r) = true) : Table.sorted r = true := by
  obtain ⟨j, x⟩ := e
  simp only [Table.sorted, Bool.and_eq_true] at h
  exact h.2

theorem Table.look_put (t : Table α) (k m : Nat) (x : α) :
    Table.look (Table.put t k x) m = if m = k then some x else Table.look t m := by
  induction t with
  | nil => simp [Table.put, Table.look, eq_comm]
  | cons e r ih =>
    obtain ⟨j, y⟩ := e
    unfold Table.put
    split
    · simp only [Table.look]
      by_cases h : k = m <;> simp [h, eq_comm]
    · split
      · simp only [Table.look]
        by_cases h : k = m
        · simp [h]
        · rw [if_neg h, if_neg (by omega), if_neg (by omega)]
      · simp only [Table.look, ih]
        by_cases h : j = m
        · rw [if_pos h, if_neg (by omega), if_pos h]
        · simp [h]

theorem Table.look_erase {t : Table α} (h : Table.sorted t = true) (k m : Nat) :
    Table.look (Table.erase t k) m = if m = k then none else Table.look t m := by
  induction t with
  | nil => simp [Table.erase, Table.look]
  | cons e r ih =>
    obtain ⟨j, y⟩ := e
    unfold Table.erase
    split
    · rename_i hj
      by_cases hm : m = k
      · rw [if_pos hm]
        exact Table.look_of_le h (by omega)
      · rw [if_neg hm]
        simp only [Table.look]
        rw [if_neg (by omega)]
    · simp only [Table.look, ih (Table.sorted_tail h)]
      by_cases hm : j = m
      · rw [if_pos hm, if_neg (by omega), if_pos hm]
      · simp [hm]

/-- A sorted table whose slots all have a number above `j` stays sorted with slot `j` before it. -/
theorem Table.sorted_cons {j : Nat} {x : α} {r : Table α} (hr : Table.sorted r = true)
    (h : ∀ k, k ≤ j → Table.look r k = none) : Table.sorted ((j, x) :: r) = true := by
  cases r with
  | nil => rfl
  | cons e r =>
    obtain ⟨i, y⟩ := e
    have hij : j < i := by
      by_contra hc
      have := h i (by omega)
      simp [Table.look] at this
    simp only [Table.sorted, Bool.and_eq_true, decide_eq_true_eq] at hr ⊢
    exact ⟨hij, hr⟩

theorem Table.put_sorted {t : Table α} (h : Table.sorted t = true) (k : Nat) (x : α) :
    Table.sorted (Table.put t k x) = true := by
  induction t with
  | nil => rfl
  | cons e r ih =>
    obtain ⟨j, y⟩ := e
    unfold Table.put
    split
    · refine Table.sorted_cons h fun i hi => ?_
      simp only [Table.look]
      rw [if_neg (by omega), Table.look_of_le h (by omega)]
    · split
      · rename_i hk
        subst hk
        exact Table.sorted_cons (Table.sorted_tail h) fun i hi => Table.look_of_le h hi
      · refine Table.sorted_cons (ih (Table.sorted_tail h)) fun i hi => ?_
        rw [Table.look_put, if_neg (by omega), Table.look_of_le h hi]

theorem Table.erase_sorted {t : Table α} (h : Table.sorted t = true) (k : Nat) : Table.sorted (Table.erase t k) = true := by
  induction t with
  | nil => rfl
  | cons e r ih =>
    obtain ⟨j, y⟩ := e
    unfold Table.erase
    split
    · exact Table.sorted_tail h
    · refine Table.sorted_cons (ih (Table.sorted_tail h)) fun i hi => ?_
      rw [Table.look_erase (Table.sorted_tail h), Table.look_of_le h hi, ite_self]

theorem setPattern_sorted {t : Table Pattern} (h : Table.sorted t = true) (n : Nat) (p : Pattern) :
    Table.sorted (setPattern t n p) = true := by
  unfold setPattern
  split
  · exact Table.erase_sorted h n
  · exact Table.put_sorted h n p

theorem patternAt_setPattern {t : Table Pattern} (h : Table.sorted t = true) (n m : Nat) (p : Pattern) :
    patternAt (setPattern t n p) m = if m = n then p else patternAt t m := by
  unfold setPattern patternAt
  split
  · rename_i hp
    rw [Table.look_erase h]
    split <;> simp_all
  · rw [Table.look_put]
    split <;> rfl

/-- What the pattern table of an image reads as once it is loaded: a pattern it holds, and the default pattern for one
that is blank, unreadable or not listed. -/
theorem patternAt_loadPatterns {t : Table (Option Pattern)} (h : Table.sorted t = true) (n : Nat) :
    patternAt (loadPatterns t) n = ((Table.look t n).getD none).getD defaultPattern := by
  have key : ∀ (t : Table (Option Pattern)) (a : Table Pattern), Table.sorted t = true → Table.sorted a = true →
      patternAt (t.foldl (fun a e => setPattern a e.1 (e.2.getD defaultPattern)) a) n =
        match Table.look t n with
        | some p => p.getD defaultPattern
        | none => patternAt a n := by
    intro t
    induction t with
    | nil => exact fun a _ _ => rfl
    | cons e r ih =>
      intro a ht ha
      obtain ⟨j, p⟩ := e
      rw [List.foldl_cons, ih _ (Table.sorted_tail ht) (setPattern_sorted ha _ _), patternAt_setPattern ha]
      simp only [Table.look]
      by_cases hj : j = n
      · subst hj
        rw [Table.look_of_le ht (Nat.le_refl _)]
        simp
      · rw [if_neg hj, if_neg (Ne.symm hj)]
  unfold loadPatterns
  rw [key t [] h rfl]
  cases Table.look t n <;> rfl

end Sys2Proof.Machine
end

