-- ==== Sys2Proof/Laws/Taken.lean ====
section
/-! SUPPORT. What a request comes to when it is heard, checked and taken, in the terms of Safety.lean: the lemmas a proof
about a request cites instead of unfolding the receiver. -/

namespace Sys2Proof.Machine

/-! ## The state after a telegram is heard, and after its answer is admitted -/

@[simp] theorem State.heard_te (s : State) (l : Link) : (s.heard l).te = s.te := rfl
@[simp] theorem State.heard_ck (s : State) (l : Link) : (s.heard l).ck = s.ck := rfl
@[simp] theorem State.heard_ip (s : State) (l : Link) : (s.heard l).ip = s.ip := rfl
@[simp] theorem State.heard_op (s : State) (l : Link) : (s.heard l).op = s.op := rfl
@[simp] theorem State.heard_lr (s : State) (l : Link) : (s.heard l).lr = s.lr := rfl
@[simp] theorem State.heard_cs (s : State) (l : Link) : (s.heard l).cs = s.cs := rfl
@[simp] theorem State.heard_sw (s : State) (l : Link) : (s.heard l).sw = s.sw := rfl
@[simp] theorem State.heard_st (s : State) (l : Link) : (s.heard l).st = s.st := rfl
@[simp] theorem State.heard_fl (s : State) (l : Link) : (s.heard l).fl = s.fl := rfl
@[simp] theorem State.heard_ready (s : State) (l : Link) : (s.heard l).ready = s.ready := rfl
@[simp] theorem State.heard_micros (s : State) (l : Link) : (s.heard l).micros = s.micros := rfl
@[simp] theorem State.heard_cause (s : State) (l : Link) : (s.heard l).cause = s.cause := rfl
@[simp] theorem State.heard_choices (s : State) (l : Link) : (s.heard l).choices = s.choices := rfl
@[simp] theorem State.heard_pending (s : State) (l : Link) : (s.heard l).pending = s.pending := rfl
@[simp] theorem State.answered_te (s : State) (l : Link) (k : ReqKind) (r : ResultCode) (d : List Byte) :
    (s.answered l k r d).te = s.te := rfl
@[simp] theorem State.answered_ck (s : State) (l : Link) (k : ReqKind) (r : ResultCode) (d : List Byte) :
    (s.answered l k r d).ck = s.ck := rfl
@[simp] theorem State.answered_ip (s : State) (l : Link) (k : ReqKind) (r : ResultCode) (d : List Byte) :
    (s.answered l k r d).ip = s.ip := rfl
@[simp] theorem State.answered_op (s : State) (l : Link) (k : ReqKind) (r : ResultCode) (d : List Byte) :
    (s.answered l k r d).op = s.op := rfl
@[simp] theorem State.answered_lr (s : State) (l : Link) (k : ReqKind) (r : ResultCode) (d : List Byte) :
    (s.answered l k r d).lr = s.lr := rfl
@[simp] theorem State.answered_cs (s : State) (l : Link) (k : ReqKind) (r : ResultCode) (d : List Byte) :
    (s.answered l k r d).cs = s.cs := rfl
@[simp] theorem State.answered_sw (s : State) (l : Link) (k : ReqKind) (r : ResultCode) (d : List Byte) :
    (s.answered l k r d).sw = s.sw := rfl
@[simp] theorem State.answered_st (s : State) (l : Link) (k : ReqKind) (r : ResultCode) (d : List Byte) :
    (s.answered l k r d).st = s.st := rfl
@[simp] theorem State.answered_fl (s : State) (l : Link) (k : ReqKind) (r : ResultCode) (d : List Byte) :
    (s.answered l k r d).fl = s.fl := rfl
@[simp] theorem State.answered_ready (s : State) (l : Link) (k : ReqKind) (r : ResultCode) (d : List Byte) :
    (s.answered l k r d).ready = s.ready := rfl
@[simp] theorem State.answered_micros (s : State) (l : Link) (k : ReqKind) (r : ResultCode) (d : List Byte) :
    (s.answered l k r d).micros = s.micros := rfl
@[simp] theorem State.answered_cause (s : State) (l : Link) (k : ReqKind) (r : ResultCode) (d : List Byte) :
    (s.answered l k r d).cause = s.cause := rfl
@[simp] theorem State.answered_choices (s : State) (l : Link) (k : ReqKind) (r : ResultCode) (d : List Byte) :
    (s.answered l k r d).choices = s.choices := rfl
@[simp] theorem State.answered_pending (s : State) (l : Link) (k : ReqKind) (r : ResultCode) (d : List Byte) :
    (s.answered l k r d).pending = s.pending := rfl
@[simp] theorem State.heard_now (s : State) (l : Link) : (s.heard l).now = s.now := rfl
@[simp] theorem State.answered_now (s : State) (l : Link) (k : ReqKind) (r : ResultCode) (d : List Byte) :
    (s.answered l k r d).now = s.now := rfl
@[simp] theorem State.heard_millis (s : State) (l : Link) : (s.heard l).millis = s.millis := rfl
@[simp] theorem State.answered_millis (s : State) (l : Link) (k : ReqKind) (r : ResultCode) (d : List Byte) :
    (s.answered l k r d).millis = s.millis := rfl
@[simp] theorem State.heard_ticking (s : State) (l : Link) : (s.heard l).ticking = s.ticking := rfl
@[simp] theorem State.answered_ticking (s : State) (l : Link) (k : ReqKind) (r : ResultCode) (d : List Byte) :
    (s.answered l k r d).ticking = s.ticking := rfl
@[simp] theorem State.heard_barBeat (s : State) (l : Link) : (s.heard l).barBeat = s.barBeat := rfl
@[simp] theorem State.answered_barBeat (s : State) (l : Link) (k : ReqKind) (r : ResultCode) (d : List Byte) :
    (s.answered l k r d).barBeat = s.barBeat := rfl
@[simp] theorem State.heard_storeBusy (s : State) (l : Link) : (s.heard l).storeBusy = s.storeBusy := rfl
@[simp] theorem State.answered_storeBusy (s : State) (l : Link) (k : ReqKind) (r : ResultCode) (d : List Byte) :
    (s.answered l k r d).storeBusy = s.storeBusy := rfl
@[simp] theorem State.heard_loading (s : State) (l : Link) : (s.heard l).loading = s.loading := rfl
@[simp] theorem State.answered_loading (s : State) (l : Link) (k : ReqKind) (r : ResultCode) (d : List Byte) :
    (s.answered l k r d).loading = s.loading := rfl
@[simp] theorem State.heard_midiIn (s : State) (l : Link) (j : InPort) : (s.heard l).midiIn j = s.midiIn j := rfl
@[simp] theorem State.answered_midiIn (s : State) (l : Link) (k : ReqKind) (r : ResultCode) (d : List Byte) (j : InPort) :
    (s.answered l k r d).midiIn j = s.midiIn j := rfl
@[simp] theorem State.heard_midiOut (s : State) (l : Link) (j : OutPort) : (s.heard l).midiOut j = s.midiOut j := rfl
@[simp] theorem State.answered_midiOut (s : State) (l : Link) (k : ReqKind) (r : ResultCode) (d : List Byte) (j : OutPort) :
    (s.answered l k r d).midiOut j = s.midiOut j := rfl
@[simp] theorem State.heard_station (s : State) (l : Link) (j : Station) : (s.heard l).station j = s.station j := rfl
@[simp] theorem State.answered_station (s : State) (l : Link) (k : ReqKind) (r : ResultCode) (d : List Byte) (j : Station) :
    (s.answered l k r d).station j = s.station j := rfl
@[simp] theorem State.heard_bus (s : State) (l : Link) (j : Bus) : (s.heard l).bus j = s.bus j := rfl
@[simp] theorem State.answered_bus (s : State) (l : Link) (k : ReqKind) (r : ResultCode) (d : List Byte) (j : Bus) :
    (s.answered l k r d).bus j = s.bus j := rfl

@[simp] theorem State.link_heard_same (s : State) (l : Link) : (s.heard l).link l = (s.link l).hunt := by
  simp [State.heard]

theorem State.link_heard_of_ne (s : State) {l j : Link} (h : j ≠ l) : (s.heard l).link j = s.link j := by
  simp [State.heard, State.link_setLink_of_ne s _ h]

@[simp] theorem State.heard_setLink (s : State) (l : Link) (x : LinkState) : (s.heard l).setLink l x = s.setLink l x := by
  simp [State.heard]

@[simp] theorem LinkState.hunt_queue (x : LinkState) : x.hunt.queue = x.queue := rfl
@[simp] theorem LinkState.hunt_tx (x : LinkState) : x.hunt.tx = x.tx := rfl
@[simp] theorem LinkState.hunt_high (x : LinkState) : x.hunt.high = x.high := rfl
@[simp] theorem LinkState.hunt_hold (x : LinkState) : x.hunt.hold = x.hold := rfl
@[simp] theorem LinkState.hunt_mask (x : LinkState) : x.hunt.mask = x.mask := rfl
@[simp] theorem LinkState.hunt_free (x : LinkState) : x.hunt.free = x.free := rfl
@[simp] theorem LinkState.hunt_line (x : LinkState) : x.hunt.line = x.line := rfl

/-- An answer from the state that heard the request. -/
@[simp] theorem State.heard_answer (s : State) (l : Link) (k : ReqKind) (r : ResultCode) (d : List Byte) :
    (s.heard l).answer l k.code r d = s.answered l k r d := by
  simp [State.answer, State.post, State.answered]

@[simp] theorem State.heard_reply (s : State) (l : Link) (k : ReqKind) (r : ResultCode) :
    (s.heard l).reply l k r = s.answered l k r [] := by
  simp [State.reply]

@[simp] theorem State.heard_replyRange (s : State) (l : Link) (k : ReqKind) (e : BadField) :
    (s.heard l).replyRange l k e = s.answered l k .range (be16 e.offset ++ [optByte e.place]) := by
  simp [State.replyRange]

/-- The answer stands at the end of the link's line. -/
theorem State.line_answered (s : State) (l : Link) (k : ReqKind) (r : ResultCode) (d : List Byte) :
    ((s.answered l k r d).link l).line = (s.link l).line ++ [.answer k.code r d] := by
  simp [State.answered]

theorem State.link_answered_of_ne (s : State) {l j : Link} (k : ReqKind) (r : ResultCode) (d : List Byte) (h : j ≠ l) :
    (s.answered l k r d).link j = s.link j := by
  simp [State.answered, State.link_setLink_of_ne s _ h]

/-! ## Requests that are received, checked and taken -/

@[simp] theorem kindOfCode_byte (k : ReqKind) : kindOfCode (byte k.code).toNat = some k := by cases k <;> rfl

theorem ReqKind.code_lt (k : ReqKind) : (byte k.code).toNat < 64 := by cases k <;> decide

/-- A request of a known kind on a connected link with a free place is checked. -/
theorem State.request_heard {s : State} {l : Link} (h : s.hearsRequest l = true) (k : ReqKind) (p : List Byte) :
    s.request l k p = (s.heard l).checkRequest l k p := by
  simp only [State.hearsRequest, Bool.and_eq_true, decide_eq_true_eq] at h
  have hf : ((s.setLink l (s.link l).hunt).link l).free ≠ 0 := by
    rw [State.link_setLink_same, LinkState.hunt_free]; omega
  simp only [State.link_setLink_same, LinkState.hunt_free, ne_eq] at hf
  simp [State.request, State.telegram, h.1, State.takeTelegram, ReqKind.code_lt k, State.takeRequest, hf, State.heard]

/-- A request that passes its checks is performed by the state that heard it. -/
theorem State.request_taken {s : State} {l : Link} {k : ReqKind} {p : List Byte} (h : s.takes l k p = true) :
    s.request l k p = (s.heard l).perform l k p := by
  simp only [State.takes, Bool.and_eq_true, Bool.or_eq_true, Bool.not_eq_true', decide_eq_true_eq] at h
  obtain ⟨⟨⟨⟨h1, h2⟩, h3⟩, h4⟩, h5⟩ := h
  rw [State.request_heard h1]
  rcases h3 with (h3 | h3) | h3 <;> simp [State.checkRequest, h2, h3, h4, h5]
  · subst h3; simp [h2, h4, h5]
  · subst h3; simp [h2, h4, h5]

/-- Every request row is the request of its link, kind and payload. -/
theorem exec_of_asRequest {i : Instr} {l : Link} {k : ReqKind} {p : List Byte} (h : i.asRequest = some (l, k, p))
    (s : State) : exec i s = .next (s.request l k p) := by
  cases i <;> simp only [Instr.asRequest, Option.some.injEq, Prod.mk.injEq, reduceCtorEq] at h <;>
    (obtain ⟨rfl, rfl, rfl⟩ := h; rfl)

/-- A request row that passes its checks. -/
theorem exec_of_takes {i : Instr} {s : State} {l : Link} {k : ReqKind} {p : List Byte} (h : i.asRequest = some (l, k, p))
    (ht : s.takes l k p = true) : exec i s = .next ((s.heard l).perform l k p) := by
  rw [exec_of_asRequest h, State.request_taken ht]

theorem LinksOnly.noticesOnly {s t : State} (h : LinksOnly s t) : NoticesOnly s t :=
  ⟨h.link, h.modes, h.te, h.ck, h.ip, h.op, h.lr, h.cs, h.watch, h.st, h.ready, h.micros, h.cause, h.choices, h.pending⟩

theorem NoticesOnly.refl (s : State) : NoticesOnly s s := (LinksOnly.refl s).noticesOnly

theorem NoticesOnly.trans {s t u : State} (h : NoticesOnly s t) (k : NoticesOnly t u) : NoticesOnly s u :=
  ⟨fun l => (h.link l).trans (k.link l), k.modes.trans h.modes, k.te.trans h.te, k.ck.trans h.ck, k.ip.trans h.ip,
    k.op.trans h.op, k.lr.trans h.lr, k.cs.trans h.cs, k.sw.trans h.sw, k.st.trans h.st, k.ready.trans h.ready,
    k.micros.trans h.micros, k.cause.trans h.cause, k.choices.trans h.choices, k.pending.trans h.pending⟩

end Sys2Proof.Machine
end

