-- ==== Sys2Proof/Tests/Slice0.lean ====
section
/-! SUPPORT. Tests: ill-formed commands that `wellFormed` refuses, one or two tests for each command, whose expected
values come from the worked cases and the rules of spec/, and for each obligation with hypotheses a state and operands
that meet them. -/

namespace Sys2Proof.Machine

/-! ## States the tests start from -/

def LinkState.up : LinkState := { LinkState.reset with high := true }

/-- The part READY, all four links connected, everything else as after a reset. -/
def rig : State :=
  { State.reset with ready := true, sl := ⟨LinkState.up, LinkState.up, LinkState.up, LinkState.up⟩ }

/-- The part STARTING with its links connected. -/
def waking : State := { rig with ready := false }

/-- This microsecond's tick has not been taken yet. -/
def State.owing (s : State) : State := { s with te := { s.te with tickOwed := true } }

def State.in_ (s : State) (tr : Transport) : State := { s with te := { s.te with transport := tr } }

def State.at_ (s : State) (bar : Int) (beat tick : Nat) : State := { s with te := { s.te with pos := ⟨bar, beat, tick⟩ } }

/-- RUNNING at bar 8, beat 2, tick 100. -/
def rolling : State := (rig.in_ .running).at_ 8 2 100

def State.follows (s : State) (src : FollowSource) (st : FollowState) : State :=
  { s with te := { s.te with source := src, follow := st } }

/-- STOPPED, the follower SEEKING on LINE with no mark yet. -/
def chasing : State := rig.follows .line .seeking

/-- The worked case "locking to a drummer" after mark 3, at the microsecond of mark 4. -/
def locked : State :=
  { rig with
    micros := 1500000
    te := { rig.te with
      tempo := 12001
      source := .line
      follow := .locked
      history := [500120, 499760]
      lastMark := some 999880#32
      lostDeadline := some 2499700#32 } }

/-- The follower LOCKED with its last mark `d` µs ago. -/
def lastMarked (d : Nat) : State :=
  { locked with te := { locked.te with lastMark := some (locked.now - BitVec.ofNat 32 d) } }

/-- The follower back to SEEKING with no interval. -/
def State.forgets (s : State) : State := { s with te := { s.te with follow := .seeking, history := [], lostDeadline := none } }

/-- LOCKED, the last mark time expired, the lost deadline still armed: the next mark is a first mark. -/
def lateFirst : State := { locked with te := { locked.te with lastMark := none } }

/-- The last beat of a bar with a pending segue. -/
def State.withSegue (s : State) : State := { s with te := { s.te with pos := ⟨8, 4, 479⟩, segue := some ⟨some 9000, 3, 2⟩ } }

/-- S0's queue full. -/
def choked : State :=
  rig.setLink .s0 { LinkState.up with
    queue := List.replicate 128 (.answer 0 .done [])
    tx := some ⟨.answer 0 .done [], [0#8, 0#8], 0#32⟩ }

def saving : State := { rig with st := { rig.st with op := .saving rig.image } }

def State.loadingFrom (s : State) (f : Flash) : State := { s with st := { s.st with op := .loading, flash := f } }

/-- IN0 holding running status 90h. -/
def playing : State := rig.setIn .in0 { MidiIn.reset with running := some 0x90#8 }

def ended : State := { rig with cs := { rig.cs with state := .ended } }

def demoSong : Song := { name := [0x41#8], firstCue := some 7, tempo := 9600, meter := 3, countIn := 2, band := 3, keys := 0 }

/-- ENDED in song 5, whose first cue, 7, is an EMPTY slot. -/
def playlist : State := { ended with cs := { ended.cs with song := some 5, setPos := some 0, setlist := [5, 6], songs := [(5, demoSong)] } }

def State.withSong (s : State) : State := { s with cs := { s.cs with setlist := [5], songs := [(5, demoSong)] } }

def flatLayer : Layer :=
  { input := .in0, chan := none, zoneLow := 0, zoneHigh := 127, vmin := 1, vmax := 127, fade := 0, curve := .linear,
    trim := 0, transpose := 0, dest := .out .out0, outChan := 0, sustain := .follow,
    pass := ⟨true, true, true, true, true⟩, lo := 0, hi := 127 }

/-- The layer of the worked case "velocity through a soft, trimmed, faded layer". -/
def fadeLayer : Layer := { flatLayer with vmin := 80, vmax := 127, fade := 24, curve := .soft, trim := 3 }

def demoScene : Scene :=
  { name := [0x41#8, 0x20#8]
    layers := [{ fadeLayer with chan := some 15, transpose := -48, dest := .sound }, flatLayer]
    programs := [⟨.out .out3, 15, some 127, none, 5⟩] }

/-- Scene 127 written, and cue 9 waiting with its claim to scene 3. -/
def dressed : State := { rig with cs := { rig.cs with scenes := [(127, demoScene)] }, lr := { rig.lr with claim := some ⟨9, 3⟩ } }

def demoCue : Cue :=
  { trigger := .at 5 1, action := .marker [0x42#8], isEnd := true, isHold := false, isNotify := true, lead := 16, next := 4 }

/-- An END cue without an action. -/
def stopCue : Cue :=
  { trigger := .onGo, action := .nop, isEnd := true, isHold := false, isNotify := false, lead := 0, next := 0 }

/-- An AFTER_PREVIOUS cue that leads back to itself. -/
def loopCue : Cue :=
  { trigger := .afterPrevious, action := .nop, isEnd := false, isHold := false, isNotify := false, lead := 0, next := 9 }

/-- WAITING with a cue at slot 9 current. -/
def State.current (s : State) (c : Cue) : State :=
  { s with cs := { s.cs with cues := [(9, ⟨c, false, .none⟩)], state := .waiting, current := some ⟨9, c⟩ } }

def State.waiting (s : State) : State := s.current stopCue

/-- WAITING in song 5, from which a WRITE_SONG has taken the first cue. -/
def cueless : State :=
  { rig.waiting with cs := { rig.waiting.cs with song := some 5, setPos := some 0, setlist := [5], songs := [(5, { demoSong with firstCue := none })] } }

/-- STOPPING at the last tick of bar 8 with a deferred select. -/
def deferring : State :=
  { ((rolling.at_ 8 4 479).in_ .stopping).withSong with cs := { rolling.withSong.cs with deferred := some 0 } }

/-- The closing event of bar 9. -/
def barNine : BeatEvent := { bar := 9, beat := 1, meter := 4, transport := .stopping, isBar := true, closing := true }

/-- The closing event of bar 9 has been handed on. -/
def closing (s : State) : State := State.handOn { s with te := { s.te with pos := ⟨9, 1, 0⟩ } } barNine

/-- A STOP(NOW) cue due at bar 9. -/
def stopsItself : State :=
  ((rolling.at_ 8 4 479).in_ .stopping).current
    { trigger := .at 9 1, action := .stop .now, isEnd := true, isHold := false, isNotify := false, lead := 0, next := 0 }

/-- A staging of the demo scene from S3. -/
def State.staging (s : State) (p : SwapPoint) : State :=
  { s with lr := { s.lr with staged := some ⟨demoScene, 12, p, .link .s3⟩ } }

/-- A segue record to song 5. -/
def State.armed (s : State) : State := { s with cs := { s.cs with segue := some ⟨1, 5, some 7, 3, 0⟩ } }

/-- STOPPED before a count-in of four bars, a METER cue's 16 left pending by the closing event. -/
def remetered : State := { rig with te := { rig.te with pendingMeter := some 16, countIn := 4 } }

def State.heldAt (s : State) : State :=
  { s with cs := { s.cs with cues := [(9, ⟨stopCue, false, .none⟩)], state := .held, latchedNext := some ⟨9, stopCue⟩ } }

def State.holding (s : State) (l : Link) : State := { s with lr := { s.lr with lock := some l } }

def State.live1 (s : State) (y : Layer) : State := { s with lr := { s.lr with live := ⟨[y], some 12⟩ } }

def State.withStation (s : State) (x : Station) (st : StationState) : State := s.setStation x { s.station x with state := st }

/-- A is UP, active and owes the echo of pulse 7; B is DOWN. -/
def onAir : State :=
  { rig with
    sw := { rig.sw with
      stations := ⟨{ StationRec.reset with state := .up, awaited := some 7 }, { StationRec.reset with state := .down }⟩
      pulse := 7
      active := some .a } }

/-- A SUSPECT with n misses, B JOINING with 2. -/
def missing (n : Nat) : State :=
  (onAir.setStation .a { onAir.station .a with state := .suspect, miss := n }).setStation .b
    { StationRec.reset with state := .joining, phase := .clearing, miss := 2 }

def State.heldLink (s : State) (l : Link) : State := s.setLink l { s.link l with hold := some 300000#32 }

def State.collecting (s : State) (l : Link) (bytes : List Byte) : State :=
  s.setLink l { s.link l with collecting := true, collected := bytes, gap := some 2020#32 }

/-- The worked sequence of 9.5 at 912 ms, with B for A: DOWN under a HOLD, pulse 18 awaited; `n` telegrams wait. -/
def returning (n : Nat) : State :=
  (onAir.setStation .b { StationRec.reset with state := .down, miss := 7, awaited := some 18 }).setLink .s1
    { LinkState.up with hold := some 300000#32, queue := List.replicate n (.notice .joined) }

/-- A HELD note to SOUND that B is owed. -/
def owedNote : HeldEntry :=
  { input := .in0, chan := 0, key := 48, state := .held, targets := [⟨.sound, 4, 48, 70, .follow⟩], pend := ⟨false, true⟩ }

/-- B JOINING in a resync phase, A active and UP. -/
def joiningAt (p : Phase) : State :=
  { (onAir.setStation .b { StationRec.reset with state := .joining, phase := p }) with
    lr := { rig.lr with held := [owedNote] } }

/-- E3 of the worked sequence of 9.5: SUSTAINED with two SOUND targets. -/
def sustainedPair : HeldEntry :=
  { input := .in0, chan := 0, key := 52, state := .sustained 40,
    targets := [⟨.sound, 4, 52, 66, .follow⟩, ⟨.sound, 5, 64, 50, .follow⟩], pend := ⟨false, false⟩ }

/-- IN0 enabled for one channel alone. -/
def State.filtered (s : State) (c : Chan) : State :=
  s.setIn .in0 { s.midiIn .in0 with settings := { (s.midiIn .in0).settings with filter := some c } }

def heldNote : HeldEntry :=
  { input := .in0, chan := 0, key := 60, state := .held, targets := [⟨.out .out0, 0, 60, 100, .follow⟩],
    pend := ⟨false, false⟩ }

/-- One HELD note sounding on OUT0. -/
def sounding : State :=
  (rig.setOut .out0 { MidiOut.reset with sounding := 1 } |> fun s => { s with lr := { s.lr with held := [heldNote] } })

def State.pedalDown (s : State) : State := s.setIn .in0 { s.midiIn .in0 with sustain := 1#16 }

def State.withSlot (s : State) (q : Slot) : State := { s with lr := { s.lr with slots := [q] } }

def pendingSlot : State := rig.withSlot ⟨⟨.in0, 0, .control 7⟩, [10, 20], 15, some 10, some 0#32, some 8000#32⟩

/-- Every filter slot taken, by controllers 0 to 31 of IN0. -/
def fullSlots : State :=
  { rig with lr := { rig.lr with
      slots := (List.range 32).map (fun n => ⟨⟨.in0, 0, .control n⟩, [n], n, some n, none, none⟩) } }

def quietSlot : State := rig.withSlot ⟨⟨.in0, 0, .control 7⟩, [10], 10, some 10, some 0#32, none⟩

/-- OUT2 with a byte on its line, waiting real-time bytes, the rest of a note-on, and a queue. -/
def sending (rt : List Byte) (left : List Byte) (queue : List QMsg) : State :=
  rig.setOut .out2 { MidiOut.reset with
    realTime := rt
    tx := if left = [] then none else some ⟨.noteOn 0 60 100, left⟩
    queue := queue
    line := some ⟨0x90#8, 320#32⟩ }

theorem choked_full : (choked.link .s0).free = 0 := by
  simp [choked, State.link, State.setLink, PerLink.get, PerLink.set, LinkState.free, Config.linkQueue]

theorem rolling_unstaged : rolling.lr.staged = none := rfl


/-! ## Ill-formed commands are refused -/

theorem test_ill_request_payload_too_long (p : List Byte) (h : p.length = 241) : (Instr.start .s2 p).wellFormed = false := by
  simp [Instr.wellFormed, fitsTelegram, h]

theorem test_ill_stop_payload_too_long (p : List Byte) (h : p.length = 240) : (Instr.stopNow .s2 p).wellFormed = false := by
  simp [Instr.wellFormed, h]

theorem test_ill_stop_at_bar_payload_too_long (p : List Byte) (h : p.length = 240) : (Instr.stopAtBar .s2 p).wellFormed = false := by
  simp [Instr.wellFormed, h]

theorem test_ill_mark_from_a_sound_station : (Instr.mark .s0 []).wellFormed = false := by decide

theorem test_ill_mark_with_a_payload : (Instr.mark .s2 [0]).wellFormed = false := by decide

theorem test_ill_echo_from_the_control_station : (Instr.echo .s3 [7]).wellFormed = false := by decide

theorem test_ill_echo_without_its_number : (Instr.echo .s0 []).wellFormed = false := by decide

theorem test_ill_hold_of_one_byte : (Instr.hold .s0 [1]).wellFormed = false := by decide

theorem test_ill_resume_with_a_payload : (Instr.resume .s3 [1]).wellFormed = false := by decide

theorem test_ill_unknown_request_of_a_known_kind : (Instr.unknownRequest .s3 1 []).wellFormed = false := by decide

theorem test_ill_bad_class_of_a_request : (Instr.badClassTelegram .s3 0x7F []).wellFormed = false := by decide

theorem test_ill_bad_report_that_is_good : (Instr.badReport .s2 1 []).wellFormed = false := by decide

theorem test_ill_denied_report_that_is_allowed : (Instr.reportDenied .s2 1 []).wellFormed = false := by decide

theorem test_ill_note_on_of_velocity_zero : (Instr.noteOn .in0 0 60 0).wellFormed = false := by decide

theorem test_ill_control_change_of_sustain : (Instr.controlChange .in0 0 64 1).wellFormed = false := by decide

theorem test_ill_control_change_of_a_mode_message : (Instr.controlChange .in0 0 120 1).wellFormed = false := by decide

theorem test_ill_partial_message_real_time : (Instr.partialMessageByte .in0 0xF8).wellFormed = false := by decide

/-! ## One test or two for each command -/

/-- The state after a command. -/
def after (c : Instr) (s : State) : State :=
  match exec c s with
  | .next t => t
  | .fault _ => s
  | .refused _ => s

/-- The result code and data of the answer a link is sending or will send last. -/
def State.lastAnswer (s : State) (l : Link) : Option (ResultCode × List Byte) :=
  match (s.link l).line.getLast? with
  | some (.answer _ r d) => some (r, d)
  | _ => none

/-- The result code alone. -/
def State.said (s : State) (l : Link) : Option ResultCode := (s.lastAnswer l).map Prod.fst

/-- The newest fault. -/
def State.fault (s : State) : Option FaultKind := s.fl.records.getLast?.map FaultRecord.kind

def State.ramping (s : State) (k : Nat) : State := { s with te := { s.te with ramp := some ⟨12000, 9000, 960, k⟩ } }

def State.meterFrom (s : State) (m c : Nat) : State := { s with te := { s.te with meter := m, countIn := c } }

def State.clocking (s : State) : State :=
  s.setOut .out0 { MidiOut.reset with settings := ⟨true, false, true⟩, line := some ⟨0#8, 320#32⟩ }

def State.burstOn (s : State) (b : Burst) : State := s.setBus .band { ClickBus.reset with burst := some b }

-- Bytes of telegrams: the CRC-8 of 00h 01h is 31h (08, section 8.2), and START is 9C 00 01 31.
theorem test_crc8_worked_case : crc8 [0x00, 0x01] = 0x31#8 := by decide +kernel
theorem test_frame_worked_case : frame 0x01 [] = [0x9C, 0x00, 0x01, 0x31] := by decide +kernel
theorem test_crc16_check_value : crc16 [] = 0xFFFF#16 := by decide
theorem test_decode_spells_nothing : decodeTableWord 32 0xFFFFFFFF = none := rfl

-- R1, R163, R183
theorem test_reset_returns_the_engine_to_R1 :
    (after (.reset .resetLine ⟨true, false, true, true⟩) rolling).te = TempoEngine.reset
      ∧ ((after (.reset .resetLine ⟨true, false, true, true⟩) rolling).station .a).state = .down
      ∧ ((after (.reset .resetLine ⟨true, false, true, true⟩) rolling).station .b).state = .absent := by decide
theorem test_start_up_blank_is_a_store_fault :
    (after .startupImageRead waking).ready = true
      ∧ (after .startupImageRead waking).fl.records.map FaultRecord.kind = [.powerOn, .blank]
      ∧ (after .startupImageRead waking).fl.alert = true := by decide

-- R3 with the worked ramp of R7
theorem test_tick_ends_the_bar : (after .tick (rolling.at_ 8 4 479)).te.pos = ⟨9, 1, 0⟩ := by decide
theorem test_tick_ramp_worked_case :
    [0, 1, 479, 958, 959].map (fun k => (after .tick (rolling.ramping k)).te.tempo) = [11997, 11994, 10500, 9004, 9000]
      ∧ (after .tick (rolling.ramping 959)).te.ramp = none := by decide

-- R35, worked samples of one burst
theorem test_sample_worked_case :
    [0, 11, 12, 24, 240, 479].map (fun n => ((after .samplePeriod (rig.burstOn ⟨.accent, 4194303, n⟩)).bus .band).sample)
      = [4194303, 4098183, -4089445, 3984587, 2097151, -8738] := by decide
theorem test_sample_of_a_sub_burst :
    ((after .samplePeriod (rig.burstOn ⟨.sub, 4194303, 240⟩)).bus .band).sample = -2097151
      ∧ ((after .samplePeriod (rig.burstOn ⟨.sub, 4194303, 479⟩)).bus .band).burst = none := by decide

-- R18 to R20, the worked cases of locking and of phase snaps
theorem test_beat_edge_mark_4 :
    (after .beatEdge locked).te.tempo = 12000 ∧ (after .beatEdge locked).te.lostDeadline = some 3000000#32
      ∧ (after .beatEdge locked).te.history = [500120, 499760, 500120] := by decide
theorem test_beat_edge_snaps :
    (after .beatEdge ((locked.in_ .running).at_ 12 4 3)).te.pos = ⟨12, 4, 0⟩
      ∧ (after .beatEdge ((locked.in_ .running).at_ 12 4 470)).te.pos = ⟨13, 1, 0⟩ := by decide
theorem test_mark_double_hit :
    (after (.mark .s2 []) { locked.follows .marks .locked with micros := 1149880 }).te.follow = .seeking
      ∧ (after (.mark .s2 []) { locked.follows .marks .locked with micros := 1149880 }).te.history = [] := by decide
theorem test_last_mark_expiry_clears_the_stamp : (after .lastMarkExpiry locked).te.lastMark = none := by decide
theorem test_lost_deadline_stopped_logs_no_fault :
    (after .lostDeadline locked).te.follow = .freewheel ∧ (after .lostDeadline locked).fault = none := by decide
theorem test_lost_deadline_ticking_logs_follow_lost :
    (after .lostDeadline (locked.in_ .running)).fault = some .followLost := by decide

-- R10, the worked sequence: count-in of one bar
theorem test_start_counts_in :
    (after (.start .s2 []) (rig.meterFrom 4 1)).te.transport = .counting
      ∧ (after (.start .s2 []) (rig.meterFrom 4 1)).te.pos = ⟨-1, 1, 0⟩ := by decide
theorem test_start_while_running : (after (.start .s2 []) rolling).said .s2 = some .state := by decide
theorem test_stop_now_goes_to_the_bar_line :
    (after (.stopNow .s2 []) rolling).te.transport = .stopped ∧ (after (.stopNow .s2 []) rolling).te.pos = ⟨8, 1, 0⟩ := by
  decide
theorem test_stop_now_ends_a_ramp_and_sends_the_stop_byte :
    (after (.stopNow .s2 []) (rolling.ramping 480)).te.tempo = 9000
      ∧ ((after (.stopNow .s2 []) rolling.clocking).midiOut .out0).realTime = [0xFC#8] := by decide
theorem test_stop_at_bar_waits : (after (.stopAtBar .s2 []) rolling).te.transport = .stopping := by decide
theorem test_stop_at_bar_counting_is_stop_now :
    (after (.stopAtBar .s2 []) ((rolling.in_ .counting).at_ (-1) 2 0)).te.pos = ⟨1, 1, 0⟩ := by decide
theorem test_locate_moves : (after (.locate .s3 (be16 20)) rig).te.pos = ⟨20, 1, 0⟩ := by decide
theorem test_locate_bar_zero_is_range :
    (after (.locate .s3 (be16 0)) rig).lastAnswer .s3 = some (.range, [0, 0, 0xFF]) := by decide
theorem test_set_tempo_clamps :
    (after (.setTempo .s2 (be16 2999)) rig).te.tempo = 3000 ∧ (after (.setTempo .s2 (be16 2999)) rig).said .s2 = some .clamped := by
  decide
theorem test_set_tempo_under_a_follower : (after (.setTempo .s2 (be16 9000)) chasing).said .s2 = some .state := by decide
theorem test_ramp_tempo_record :
    (after (.rampTempo .s2 (be16 9000 ++ [2])) rolling).te.ramp = some ⟨12000, 9000, 960, 0⟩ := by decide
theorem test_ramp_tempo_stopped_is_at_once :
    (after (.rampTempo .s2 (be16 9000 ++ [2])) rig).te.tempo = 9000 ∧ (after (.rampTempo .s2 (be16 9000 ++ [2])) rig).te.ramp = none := by
  decide
theorem test_set_meter_waits_while_ticking :
    (after (.setMeter .s2 [3]) rolling).te.meter = 4 ∧ (after (.setMeter .s2 [3]) rolling).te.pendingMeter = some 3 := by
  decide
theorem test_set_follow_clears_a_ramp :
    (after (.setFollow .s2 [1]) (rolling.ramping 480)).te.ramp = none
      ∧ (after (.setFollow .s2 [1]) (rolling.ramping 480)).te.follow = .seeking := by decide

-- R27 to R31
theorem test_write_pattern_names_the_first_bad_field :
    (after (.writePattern .s3 (0 :: 0 :: 5 :: List.replicate 30 1)) rig).lastAnswer .s3 = some (.range, [0, 2, 0xFF]) := by
  decide
theorem test_write_pattern_busy_during_a_save :
    (after (.writePattern .s3 (99 :: List.replicate 32 1)) saving).said .s3 = some .busy := by decide
theorem test_set_click_merges :
    (after (.setClick .s2 [0, 0x10, 0, 0, 0, 0, 4]) (after (.setClick .s2 [0, 0x01, 5, 0, 0, 0, 0]) rig)).bus .band
      = { ClickBus.reset with change := some ⟨some 5, none, none, none, some 4⟩ } := by decide
theorem test_set_click_absent_field_must_be_zero :
    (after (.setClick .s2 [0, 0x01, 5, 1, 0, 0, 0]) rig).said .s2 = some .bad := by decide
theorem test_mute_click_keys_from_a_sound_station :
    ((after (.muteClick .s0 [1, 1]) rig).bus .keys).mute = true := by decide
theorem test_mute_click_band_from_a_sound_station : (after (.muteClick .s0 [0, 1]) rig).said .s0 = some .denied := by
  decide

-- R62 to R66, R75
theorem test_write_scene_retry_while_staged :
    (after (.writeScene .s3 (20 :: sceneBytes Scene.empty)) (after (.loadSceneNow .s3 [20, 2]) rig)).said .s3 = some .retry := by
  decide
theorem test_write_scene_makes_an_empty_record :
    Table.look (after (.writeScene .s3 (20 :: sceneBytes Scene.empty)) rig).cs.scenes 20 = some Scene.empty := by decide
theorem test_read_scene_empty_slot :
    (after (.readScene .s0 [20]) rig).lastAnswer .s0 = some (.empty, [0, 0, 0]) := by decide
theorem test_load_scene_now_swaps :
    (after (.loadSceneNow .s3 [21, 0]) rig).lr.live.scene = some 21 ∧ (after (.loadSceneNow .s3 [21, 0]) rig).lr.staged = none := by
  decide
theorem test_load_scene_now_busy_while_staged :
    (after (.loadSceneNow .s0 [21, 0]) (after (.loadSceneNow .s3 [20, 2]) rig)).said .s0 = some .busy := by decide
theorem test_lock_needs_an_up_station : (after (.lock .s0 []) rig).said .s0 = some .state := by decide
theorem test_lock_denied_to_another : (after (.lock .s3 []) (onAir.holding .s0)).said .s3 = some .denied := by decide
theorem test_unlock_forced_by_the_control_station : (after (.unlock .s3 [1]) (onAir.holding .s0)).lr.lock = none := by decide
theorem test_unlock_force_denied_to_a_sound_station :
    (after (.unlock .s1 [1]) (onAir.holding .s0)).said .s1 = some .denied := by decide

-- R118 to R122, R138, R139
theorem test_write_cue_retry_while_current : (after (.writeCue .s3 (9 :: cueBytes stopCue)) rig.waiting).said .s3 = some .retry := by
  decide
theorem test_write_cue_end_and_hold_is_range :
    (after (.writeCue .s3 [9, 2, 0, 0, 0, 0, 3, 0, 0]) rig).lastAnswer .s3 = some (.range, [0, 6, 0xFF]) := by decide
theorem test_read_cue_empty_slot :
    (after (.readCue .s2 [9]) rig).lastAnswer .s2 = some (.empty, [2, 0, 0, 0, 0, 0, 0, 0, 0, 0]) := by decide
theorem test_write_song_tempo_is_range :
    (after (.writeSong .s3 [63, 0, 0xFF, 0xFF, 0x0B, 0xB7, 4, 0, 0, 0]) rig).lastAnswer .s3 = some (.range, [0, 4, 0xFF]) := by
  decide
theorem test_read_song_empty_slot :
    (after (.readSong .s0 [63]) rig).lastAnswer .s0 = some (.empty, [0, 0xFF, 0xFF, 0x2E, 0xE0, 4, 0, 0, 0]) := by decide
theorem test_write_setlist_names_the_bad_place :
    (after (.writeSetlist .s3 [2, 0, 64]) rig).lastAnswer .s3 = some (.range, [0, 2, 1]) := by decide
theorem test_read_setlist_of_none : (after (.readSetlist .s0 []) rig).lastAnswer .s0 = some (.done, [0, 0xFF, 0xFF]) := by
  decide
theorem test_select_song_loads_the_song :
    (after (.selectSong .s3 [0]) ended.withSong).te.tempo = 9600 ∧ (after (.selectSong .s3 [0]) ended.withSong).te.countIn = 2
      ∧ (after (.selectSong .s3 [0]) ended.withSong).fault = some .emptyCue := by decide
theorem test_go_stopped_fires_at_once :
    (after (.go .s3 []) rig.waiting).cs.state = .ended ∧ (after (.go .s3 []) rig.waiting).said .s3 = some .done := by decide
theorem test_go_running_pends : (after (.go .s3 []) rolling.waiting).cs.goPending = true := by decide

-- R185 with 7.6: a late cue's fault has the position of its boundary, and none where the cue has stopped the transport
theorem test_late_cue_fault_position :
    [CueAction.nop, .stop .now].map (fun a =>
      (((rolling.at_ 9 1 0).current { stopCue with trigger := .at 5 1, action := a }).sequencerBeat
        { bar := 9, beat := 1, meter := 4, transport := .running, isBar := true, closing := false }).fl.records.map
          (fun r => (r.kind, r.pos))) = [[(.late, some ⟨9, 1⟩)], [(.late, none)]] := by decide

-- R40, R56, R165
theorem test_set_input_filter :
    ((after (.setInput .s3 [5, 1, 16, 8, 7, 8]) rig).midiIn .in5).settings = ⟨true, some 15, 8, 7, 8⟩ := by decide
theorem test_set_input_average_is_range :
    (after (.setInput .s3 [5, 1, 0, 3, 0, 0]) rig).lastAnswer .s3 = some (.range, [0, 3, 0xFF]) := by decide
theorem test_set_output_disables_an_idle_output :
    ((after (.setOutput .s3 [2, 0, 0, 0]) rig).midiOut .out2).mode = .disabled := by decide
theorem test_set_output_drains_a_sounding_output :
    ((after (.setOutput .s3 [0, 0, 0, 0]) sounding).midiOut .out0).mode = .draining := by decide
theorem test_set_watch_clamps : (after (.setWatch .s3 [2]) rig).sw.limit = 3 := by decide

-- R24, R181 to R187
theorem test_restart_stops_at_bar_1 :
    (after (.restart .s3 []) rolling).te.transport = .stopped ∧ (after (.restart .s3 []) rolling).te.pos = ⟨1, 1, 0⟩ := by
  decide
theorem test_save_show_runs_from_a_copy : (after (.saveShow .s3 []) rig).st.op = .saving rig.image := by decide
theorem test_save_show_busy_during_a_save : (after (.saveShow .s3 []) saving).said .s3 = some .busy := by decide
theorem test_save_done_differed_is_verify :
    (after (.saveDone .differed) saving).fault = some .verify ∧ (after (.saveDone .differed) saving).st.status = .invalid := by
  decide
theorem test_load_show_needs_a_stop : (after (.loadShow .s3 []) rolling).said .s3 = some .state := by decide
theorem test_load_done_blank :
    (after .loadDone (rig.loadingFrom .blank)).fault = some .blank ∧ (after .loadDone (rig.loadingFrom .blank)).st.op = .none := by
  decide
theorem test_set_fault_mode_already : (after (.setFaultMode .s3 [0, 1]) rig).said .s3 = some .already := by decide
theorem test_set_active_not_up : (after (.setActive .s3 [1]) onAir).said .s3 = some .state := by decide
theorem test_ack_faults_releases_the_line :
    (after (.ackFaults .s3 []) (after .startupImageRead waking)).fl.alert = false := by decide
theorem test_panic_puts_sixteen_messages :
    ((after (.panic .s3 []) sounding).midiOut .out0).sounding = 0 ∧ (after (.panic .s3 []) sounding).lr.held = [] := by decide
theorem test_read_status_starting_is_done : (after (.readStatus .s2 []) waking).said .s2 = some .done := by decide
theorem test_read_faults_place_32_is_range : (after (.readFaults .s2 [32]) rig).lastAnswer .s2 = some (.range, [0, 0, 0xFF]) := by
  decide
theorem test_read_faults_of_none : (after (.readFaults .s2 [31]) rig).lastAnswer .s2 = some (.done, [0]) := by decide
theorem test_subscribe_to_beat_only :
    (after (.subscribe .s2 [1]) rig).lastAnswer .s2 = some (.done, [1]) ∧ ((after (.subscribe .s2 [1]) rig).link .s2).mask.beat = true := by
  decide
theorem test_resync_of_a_down_station : (after (.resync .s3 [1]) onAir).said .s3 = some .state := by decide

-- R148, R153, R158
theorem test_unknown_request_is_bad : (after (.unknownRequest .s2 0 []) rig).said .s2 = some .bad := by decide
theorem test_echo_of_the_awaited_number : ((after (.echo .s0 [7]) onAir).station .a).echoed = true := by decide
-- R171, the worked sequence at 912 ms; and with 15 free places
theorem test_echo_from_down_admits_the_all_off_at_once :
    ((after (.echo .s1 [18]) (returning 0)).station .b).phase = .replaying
      ∧ ((after (.echo .s1 [18]) (returning 0)).link .s1).line = [.notice .allOff] := by decide
set_option maxRecDepth 4000 in
theorem test_echo_from_down_without_room_holds_the_all_off :
    ((after (.echo .s1 [18]) (returning 113)).station .b).phase = .clearing := by decide
theorem test_echo_of_a_joining_station_is_not_asked_for :
    ((after (.echo .s0 [6]) onAir).station .a).echoed = false := by decide
theorem test_hold_of_300_ms : ((after (.hold .s3 (be16 300)) rig).link .s3).hold = some 300000#32 := by decide
theorem test_resume_clears : ((after (.resume .s3 []) (rig.heldLink .s3)).link .s3).hold = none := by decide
theorem test_hold_expiry_clears : ((after (.holdExpiry .s3) (rig.heldLink .s3)).link .s3).hold = none := by decide
theorem test_bad_class_is_logged : (after (.badClassTelegram .s1 0x80 []) rig).fault = some .badClass := by decide
theorem test_bad_report_is_logged : (after (.badReport .s1 9 []) rig).fault = some .badReport := by decide
theorem test_report_denied_is_logged : (after (.reportDenied .s1 1 []) rig).fault = some .reportDenied := by decide

-- R146, R147: the worked sequence of a restart in mid-telegram
theorem test_telegram_discard_bad_check :
    (after (.telegramDiscard .s2 (.byte 0x32)) (rig.collecting .s2 [0x00, 0x01])).fault = some .badCheck := by decide +kernel
theorem test_gap_deadline_rescans_to_a_start :
    (after (.gapDeadline .s2) (rig.collecting .s2 [0x05, 0x9C, 0x00, 0x01, 0x31])).fault = some .gap
      ∧ (after (.gapDeadline .s2) (rig.collecting .s2 [0x05, 0x9C, 0x00, 0x01, 0x31])).te.transport = .running := by decide +kernel
theorem test_link_byte_takes_its_gap_deadline :
    ((after (.linkByte .s2 0x05) { rig.collecting .s2 [] with micros := 20 }).link .s2).gap = some 2020#32
      ∧ ((after (.linkByte .s2 0x05) { rig.collecting .s2 [] with micros := 20 }).link .s2).collected = [0x05] := by decide
theorem test_link_byte_starts_a_telegram : ((after (.linkByte .s2 0x9C) rig).link .s2).collecting = true := by decide
theorem test_telegram_sent_starts_the_next :
    ((after (.telegramSent .s0) choked).link .s0).tx.isSome = true := by decide

-- R160 to R163, R166 to R173
theorem test_detect_fall_releases_the_lock : (after (.detectFall .s3) (rig.holding .s3)).lr.lock = none := by decide
theorem test_detect_fall_without_a_spare :
    (after (.detectFall .s0) onAir).sw.active = some .a ∧ ((after (.detectFall .s0) onAir).station .a).state = .absent
      ∧ (after (.detectFall .s0) onAir).fl.records.map FaultRecord.kind = [.noSpare, .disconnected] := by decide
theorem test_detect_rise_finds_a_station :
    ((after (.detectRise .s0) State.reset).station .a).state = .down := by decide
theorem test_pulse_deadline_numbers_the_pulse :
    (after .pulseDeadline onAir).sw.pulse = 8 ∧ ((after .pulseDeadline onAir).station .a).miss = 1
      ∧ (after .pulseDeadline onAir).sw.deadline = 100000#32 := by decide
theorem test_resync_all_off_begins_the_walk :
    ((after (.resyncAllOff .b) (joiningAt .clearing)).station .b).phase = .replaying := by decide
theorem test_resync_replay_owes_no_more :
    (after (.resyncReplay .b) (joiningAt .replaying)).lr.held.map HeldEntry.pend = [⟨false, false⟩] := by decide
theorem test_resync_joined_is_up :
    ((after (.resyncJoined .b) { joiningAt .replaying with lr := rig.lr }).station .b).state = .up := by decide

-- R81 to R96: the worked velocities, and the pedal
theorem test_velocity_worked_case : fadeLayer.velocity 100 = 66 := by decide
theorem test_velocity_curves :
    [1, 32, 64, 100, 127].map (fun v => { flatLayer with curve := .soft }.velocity v) = [11, 63, 90, 112, 127]
      ∧ [1, 32, 64, 100, 127].map (fun v => { flatLayer with curve := .hard }.velocity v) = [1, 8, 32, 78, 127] := by decide
theorem test_note_on_sounds :
    ((after (.noteOn .in0 0 64 100) (rig.live1 flatLayer)).midiOut .out0).sounding = 1
      ∧ (after (.noteOn .in0 0 64 100) (rig.live1 flatLayer)).lr.held.map HeldEntry.targets
        = [[⟨.out .out0, 0, 64, 100, .follow⟩]] := by decide
theorem test_note_on_transposed_out_of_range :
    (after (.noteOn .in0 0 92 100) (rig.live1 { flatLayer with transpose := 36 })).lr.held = [] := by decide
theorem test_note_off_under_the_pedal :
    (after (.noteOff .in0 0 60 40) sounding.pedalDown).lr.held.map HeldEntry.state = [.sustained 40] := by decide
theorem test_note_off_without_the_pedal : (after (.noteOff .in0 0 60 40) sounding).lr.held = [] := by decide
theorem test_sustain_change_threshold :
    ((after (.sustainChange .in2 2 64) rig).midiIn .in2).sustain = 4#16
      ∧ ((after (.sustainChange .in2 2 63) rig).midiIn .in2).sustain = 0#16 := by decide
theorem test_all_notes_off_releases : (after (.allNotesOff .in0 0 0) sounding).lr.held = [] := by decide
theorem test_active_sensing_watches :
    ((after (.activeSensing .in1) rig).midiIn .in1).sensing = .watched := by decide
theorem test_sensing_deadline_loses_the_input :
    (after (.sensingDeadline .in0) (sounding.setIn .in0 { MidiIn.reset with sensing := .watched, deadline := some 0#32 })).lr.held = []
      ∧ (after (.sensingDeadline .in0) (sounding.setIn .in0 { MidiIn.reset with sensing := .watched, deadline := some 0#32 })).fault
        = some .sensingLost := by decide
theorem test_input_framing_error_clears :
    (after (.inputFramingError .in0) playing).fault = some .framing
      ∧ ((after (.inputFramingError .in0) playing).midiIn .in0).running = none := by decide
theorem test_system_exclusive_clears_running_status :
    ((after (.systemExclusive .in0 [0x7E, 0x01]) playing).midiIn .in0).running = none := by decide
theorem test_system_common_is_counted_out :
    ((after (.systemCommon .in0 (.f2 1 2)) playing).midiIn .in0).skip = .none := by decide
theorem test_real_time_leaves_running_status :
    ((after (.realTimeDiscard .in0 .f8) playing).midiIn .in0).running = some 0x90#8 := by decide
theorem test_channel_message_discard_keeps_its_status :
    ((after (.channelMessageDiscard .in0 2 (.polyPressure 1 2)) playing).midiIn .in0).running = some 0xA2#8 := by decide

-- R44: the rows of the worked stream that end a note-on, and a sustain change
theorem test_partial_message_byte_ends_a_note_on :
    (after (.partialMessageByte .in0 0x64)
      ((rig.live1 flatLayer).setIn .in0 { MidiIn.reset with running := some 0x92#8, collected := some ⟨0x92#8, [0x3C#8]⟩ })).lr.held.map
        HeldEntry.key = [60] := by decide
theorem test_partial_message_byte_sustain :
    ((after (.partialMessageByte .in2 0x7F)
      (rig.setIn .in2 { MidiIn.reset with running := some 0xB2#8, collected := some ⟨0xB2#8, [0x40#8]⟩ })).midiIn .in2).sustain = 4#16 := by
  decide

-- R108 to R115: the worked pedal, the scaling table, a patch change
theorem test_control_change_at_3000 :
    (after (.controlChange .in1 0 11 66)
      { (rig.setIn .in1 { MidiIn.reset with settings := ⟨true, none, 4, 2, 4⟩ }).withSlot
          ⟨⟨.in1, 0, .control 11⟩, [60, 62, 65], 62, some 60, some 0#32, none⟩ with micros := 3000 }).lr.slots
      = [⟨⟨.in1, 0, .control 11⟩, [60, 62, 65, 66], 63, some 60, some 0#32, some 4000#32⟩] := by decide
theorem test_control_change_scaled :
    [0, 64, 100, 127].map (fun f => { flatLayer with lo := 20, hi := 100 }.scale f) = [20, 60, 83, 100]
      ∧ [0, 64, 100, 127].map (fun f => { flatLayer with lo := 127, hi := 40 }.scale f) = [127, 83, 58, 40] := by decide
theorem test_channel_pressure_is_forwarded :
    ((after (.channelPressure .in0 0 80) (rig.live1 flatLayer)).midiOut .out0).tx.map OutTx.msg = some (.pressure 0 80) := by
  decide
theorem test_filter_expiry_forwards_the_latest :
    (after (.filterExpiry ⟨.in0, 0, .control 7⟩) { pendingSlot with micros := 8000 }).lr.slots.map Slot.lastFwd = [some 15] := by
  decide
theorem test_forward_time_expiry_forgets :
    (after (.forwardTimeExpiry ⟨.in0, 0, .control 7⟩) quietSlot).lr.slots.map Slot.lastTime = [none] := by decide
theorem test_pitch_bend_is_unscaled :
    ((after (.pitchBend .in0 0 0x28 0x46) (rig.live1 { flatLayer with hi := 0 })).midiOut .out0).tx.map OutTx.msg
      = some (.bend 0 9000) := by decide
theorem test_program_change_on_the_layer_channel :
    ((after (.programChange .in0 3 17) (rig.live1 { flatLayer with outChan := 5 })).midiOut .out0).tx.map OutTx.msg
      = some (.program 5 17) := by decide

-- R55, R56: the worked line, where a clock byte falls inside a note-on
theorem test_output_byte_sent_real_time_first :
    ((after (.outputByteSent .out2) (sending [0xF8#8] [80#8] [])).midiOut .out2).line.map LineByte.byte = some 0xF8#8 := by decide
theorem test_output_byte_sent_omits_running_status :
    ((after (.outputByteSent .out0) (rig.setOut .out0 { MidiOut.reset with
      settings := ⟨true, true, false⟩, statusMem := some 0x92#8, queue := [⟨.noteOn 2 0x3E 0x50, false⟩],
      line := some ⟨0x64#8, 0#32⟩ })).midiOut .out0).line.map LineByte.byte = some 0x3E#8 := by decide
theorem test_output_disabled_empties_the_real_time_list :
    ((after (.outputDisabled .out0) (rig.setOut .out0 { MidiOut.reset with
      settings := ⟨false, false, true⟩, mode := .draining, realTime := [0xF8#8] })).midiOut .out0).realTime = [] := by decide

-- R187: the worked faults, two FRAME GAP faults on S2 merge
theorem test_gap_faults_merge :
    (after (.gapDeadline .s2) ((after (.gapDeadline .s2) (rig.collecting .s2 [])).collecting .s2 [])).fl.records.map FaultRecord.repeats
      = [2] := by decide

/-! ## Witnesses: states and operands that meet the hypotheses of the obligations -/

theorem test_hyp_EmptyQueueLetsTimePass :
    (State.reset.pending = [] ∧ State.reset.due = []) ∧ (rig.pending = [] ∧ rig.owing.due ≠ [])
      ∧ rolling.ticking = true := by decide

theorem test_hyp_ResetCommandStartsTheSession :
    (∀ copy, State.reset.st.op ≠ .saving copy) ∧ saving.st.op = .saving saving.image := by
  refine ⟨fun c h => ?_, by decide⟩
  exact absurd h (by simp [State.reset])

theorem test_hyp_EveryStepKeepsTheSafetyInvariant :
    rolling.safe = true ∧ (∃ t, step { rolling with pending := [.tick] } = .next t) := ⟨by decide, _, rfl⟩

theorem test_hyp_EveryStepKeepsTheLimits :
    rolling.bounded = true ∧ rolling.safe = true ∧ rolling.inRange = true ∧ sounding.safe = true ∧ sounding.inRange = true
      ∧ (∃ t, step { rolling with pending := [.tick] } = .next t) := ⟨by decide, by decide, by decide, by decide, by decide, _, rfl⟩

theorem test_hyp_EveryStepKeepsTheTablesInOrder :
    ended.withSong.tidy = true ∧ (∃ t, step { ended.withSong with pending := [.reset .resetLine ⟨true, true, true, true⟩] } = .next t) :=
  ⟨by decide, _, rfl⟩

theorem test_hyp_EveryStepKeepsTheStationsPromise :
    onAir.stationsPromise = true ∧ (onAir.station .a).state = .up
      ∧ (∃ t, step { onAir with pending := [.pulseDeadline] } = .next t)
      ∧ (∃ t, exec .tick { onAir with lr := { onAir.lr with lock := some .s3 } } = .next t ∧ t.lr.lock = some .s3) :=
  ⟨by decide, by decide, ⟨_, rfl⟩, _, rfl, rfl⟩

theorem test_hyp_EveryRequestTakenGetsOneAnswer :
    Instr.asRequest (.stopNow .s2 []) = some (.s2, .stop, [0]) ∧ rig.hearsRequest .s2 = true := by decide

theorem test_hyp_RightsTable :
    Instr.asRequest (.setTempo .s0 []) = some (.s0, .setTempo, []) ∧ rig.hearsRequest .s0 = true
      ∧ ReqKind.allowed .setTempo (Link.role .s0) = false
      ∧ (RepKind.allowed .mark (Link.role .s0) = false ∧ (rig.link .s0).high = true)
      ∧ (RepKind.allowed .echo (Link.role .s3) = false ∧ (rig.link .s3).high = true) := by decide

theorem test_hyp_FirstFailedCheckGivesTheAnswer :
    kindOfCode 0 = none ∧ kindOfCode 38 = none ∧ kindOfCode 63 = none ∧ rig.hearsRequest .s3 = true
      ∧ (waking.ready = false ∧ waking.hearsRequest .s3 = true)
      ∧ ReqKind.fits .lock [0] = false
      ∧ (ReqKind.fits .unlock [1] = true ∧ ReqKind.fieldDenied .unlock .s1 [1] = true)
      ∧ (rig.takes .s3 .setInput [0, 1, 17, 3, 8, 9] = true ∧ rig.st.op = .none
        ∧ (ReqKind.checks .setInput [0, 1, 17, 3, 8, 9]).find? (fun c => !c.ok) = some ⟨2, none, false⟩)
      ∧ (rig.takes .s3 .writeSetlist [2, 63, 64] = true ∧ rig.cs.segue = none
        ∧ (ReqKind.checks .writeSetlist [2, 63, 64]).find? (fun c => !c.ok) = some ⟨2, some 1, false⟩)
      ∧ (rig.takes .s3 .writeSong [64, 0, 0, 0, 0, 0, 0, 0, 0, 0] = true
        ∧ (ReqKind.checks .writeSong [64, 0, 0, 0, 0, 0, 0, 0, 0, 0]).find? (fun c => !c.ok) = some ⟨0, none, false⟩)
      ∧ (rig.takes .s3 .writeCue [9, 3, 0, 0, 0, 0, 0, 0, 0] = true ∧ rig.cs.current = none ∧ rig.cs.latchedNext = none
        ∧ (ReqKind.checks .writeCue [9, 3, 0, 0, 0, 0, 0, 0, 0]).find? (fun c => !c.ok) = some ⟨1, none, false⟩)
      ∧ (rig.takes .s3 .writeScene [128, 0, 0, 0] = true ∧ rig.lr.staged = none
        ∧ (ReqKind.checks .writeScene [128, 0, 0, 0]).find? (fun c => !c.ok) = some ⟨0, none, false⟩)
      ∧ (rig.takes .s2 .setClick [2, 0, 0, 0, 0, 0, 0] = true
        ∧ (ReqKind.checks .setClick [2, 0, 0, 0, 0, 0, 0]).find? (fun c => !c.ok) = some ⟨0, none, false⟩)
      ∧ (rig.takes .s3 .setOutput [4, 0, 0, 0] = true
        ∧ (ReqKind.checks .setOutput [4, 0, 0, 0]).find? (fun c => !c.ok) = some ⟨0, none, false⟩)
      ∧ (rig.takes .s2 .writePattern (patternPayload 16 defaultPattern) = true
        ∧ (ReqKind.checks .writePattern (patternPayload 16 defaultPattern)).find? (fun c => !c.ok) = some ⟨0, none, false⟩) := by
  decide

theorem test_hyp_FieldsARoleMayNotAskFor :
    (rig.hearsRequest .s0 = true ∧ rig.hearsRequest .s1 = true ∧ rig.ready = true) ∧ 2 ≤ (2#8 : Byte).toNat
      ∧ 2 ≤ (255#8 : Byte).toNat := by decide

theorem test_hyp_InboundDropLosesTheRequest :
    Instr.asRequest (.go .s0 []) = some (.s0, .go, []) ∧ (choked.link .s0).high = true ∧ (choked.link .s0).free = 0 :=
  ⟨by decide, by decide, choked_full⟩

theorem test_hyp_RecordsReadBackFromTheirBytes :
    demoScene.ok = true ∧ demoSong.ok = true ∧ demoCue.ok = true ∧ ([0, 63] : List Nat).length ≤ 64
      ∧ (∀ n ∈ ([0, 63] : List Nat), n ≤ 63) ∧ patternOk defaultPattern = true
      ∧ ClickChange.ok ⟨some 15, some 12, none, none, none⟩ = true ∧ InSettings.reset.ok = true := by decide

theorem test_hyp_TelegramBytesAreTakenAsTheTelegram :
    ([0x1B#8, 0x58#8] : List Byte).length ≤ 240 ∧ (rig.link .s2).high = true ∧ (rig.link .s2).collecting = false
      ∧ (rig.link .s2).rescan = [] := by decide

theorem test_hyp_MidiBytesAreTakenAsTheMessage :
    rig.ready = true ∧ (rig.midiIn .in3).settings.enabled = true
      ∧ (playing.midiIn .in0).running = some (chanStatus 0 (.noteOn 60 100)) ∧ (playing.midiIn .in0).collected = none
      ∧ (playing.midiIn .in0).skip = .none ∧ playing.ready = true ∧ (playing.midiIn .in0).settings.enabled = true := by decide

theorem test_hyp_RescanAlwaysEnds :
    (rig.link .s2).high = true ∧ (∀ l, (rig.link l).rescan = [])
      ∧ (∃ t, step { rig with pending := [.linkByte .s2 0x9C#8] } = .next t) :=
  ⟨by decide, fun l => by cases l <;> decide, _, rfl⟩

theorem test_hyp_VelocityOfALayer :
    1 ≤ 100 ∧ 100 ≤ 127 ∧ Curve.ok (.fixed 127) = true
      ∧ (fadeLayer.fade = 24 ∧ min (100 - fadeLayer.vmin) (fadeLayer.vmax - 100) < fadeLayer.fade) ∧ flatLayer.fade = 0
      ∧ (0 < fadeLayer.fade ∧ fadeLayer.fade ≤ min (104 - fadeLayer.vmin) (fadeLayer.vmax - 103)) := by decide

theorem test_hyp_ControllerArithmetic :
    ([60, 62] : List Nat) ≠ [] ∧ 1 ≤ 4 ∧ 127 ≤ 127 ∧ flatLayer.lo = 0 ∧ flatLayer.hi = 127 := by decide

theorem test_hyp_RampNeverLeavesItsLine :
    0 < (Ramp.mk 12000 9000 960 0).len ∧ 960 ≤ (Ramp.mk 12000 9000 960 0).len
      ∧ (Ramp.mk 12000 9000 960 0).t1 ≤ (Ramp.mk 12000 9000 960 0).t0
      ∧ (Ramp.mk 9000 12000 480 0).t0 ≤ (Ramp.mk 9000 12000 480 0).t1 := by decide

theorem test_hyp_ChaseWalkChoosesPastCuesOnly :
    (∀ slot, Table.look ([] : Table CueSlot) 3 = some slot → slot.record.trigger.ok = true)
      ∧ (walk [(3, CueSlot.mk demoCue false .none)] 9 64 3 true []).chosen.length = 1
      ∧ (walk [(3, CueSlot.mk demoCue false .none)] 5 64 3 true []).stop = some 3
      ∧ (walk [(3, CueSlot.mk { stopCue with trigger := .afterPrevious } false .none)] 1 64 3 true []).stop = some 3
      ∧ (walk [(3, CueSlot.mk { stopCue with trigger := .afterPrevious } false .none)] 2 64 3 true []).chosen.length = 1
      ∧ walk [] 9 64 3 true [] = ⟨[], none, some .emptyCue⟩ := by
  refine ⟨fun s h => by simp [Table.look] at h, by decide⟩

theorem test_hyp_SetTempoAndRampTempoAct :
    rig.takes .s2 .setTempo (be16 2999) = true ∧ rig.te.follow = .free ∧ rolling.takes .s3 .setTempo (be16 30001) = true
      ∧ (chasing.takes .s2 .setTempo (be16 9000) = true ∧ chasing.te.follow ≠ .free)
      ∧ (chasing.takes .s2 .rampTempo (be16 9000 ++ [byte 2]) = true)
      ∧ (rig.takes .s2 .rampTempo (be16 9000 ++ [byte 64]) = true ∧ rig.ticking = false)
      ∧ (rolling.takes .s2 .rampTempo (be16 9000 ++ [byte 1]) = true ∧ rolling.ticking = true ∧ rolling.te.follow = .free)
      ∧ rig.takes .s2 .rampTempo (be16 9000 ++ [byte 65]) = true := by decide

theorem test_hyp_SetMeterAndSetFollowAct :
    rig.takes .s2 .setMeter [byte 0] = true ∧ rig.takes .s2 .setMeter [byte 17] = true ∧ rig.takes .s2 .setMeter [byte 16] = true
      ∧ rolling.takes .s3 .setMeter [byte 1] = true ∧ rig.takes .s2 .setFollow [byte 3] = true
      ∧ (rig.takes .s2 .setFollow [byte 0] = true ∧ 0 = rig.te.source.code)
      ∧ (chasing.takes .s2 .setFollow [byte 0] = true ∧ chasing.te.source ≠ .none)
      ∧ (rig.takes .s2 .setFollow [byte 1] = true ∧ rig.te.source ≠ .line)
      ∧ (chasing.takes .s2 .setFollow [byte 2] = true ∧ chasing.te.source ≠ .marks) := by decide

theorem test_hyp_BeatEventIsHandedToEveryBlock :
    (rolling.cs.state ≠ .waiting ∧ rolling.cs.segue = none ∧ rolling.lr.staged = none)
      ∧ (((rolling.staging .nextBar).lr.staged = some ⟨demoScene, 12, .nextBar, .link .s3⟩ ∧ (rolling.staging .nextBar).lr.lock = none)
        ∧ ((rolling.holding .s1).staging .nextBeat).lr.lock = some .s1)
      ∧ (rolling.waiting.cs.state = .waiting ∧ rolling.waiting.cs.current = some ⟨9, stopCue⟩ ∧ rolling.waiting.cs.goPending = false
        ∧ rolling.waiting.cs.segue = none)
      ∧ ((rolling.current demoCue).cs.current = some ⟨9, demoCue⟩ ∧ demoCue.trigger = .at 5 1 ∧ demoCue.lead = 16
        ∧ (rolling.current demoCue).cs.leadSent = false
        ∧ ((rolling.at_ 4 1 0).current demoCue).te.pos.bar = 4 ∧ ((rolling.at_ (-1) 1 0).current demoCue).te.pos.bar = -1)
      ∧ (rolling.current { demoCue with trigger := .afterPrevious }).cs.chained = false
      ∧ (rolling.current stopCue).cs.goPending = false
      ∧ rolling.armed.cs.segue = some ⟨1, 5, some 7, 3, 0⟩ := by decide

theorem test_hyp_StartBeginsTheRun :
    (rig.takes .s2 .start [] = true ∧ rig.st.op ≠ .loading ∧ rig.te.transport = .stopped)
      ∧ (remetered.takes .s3 .start [] = true ∧ remetered.st.op ≠ .loading ∧ remetered.te.transport = .stopped
        ∧ remetered.te.pendingMeter = some 16 ∧ remetered.te.countIn = 4)
      ∧ (rolling.takes .s2 .start [] = true ∧ rolling.st.op ≠ .loading ∧ rolling.te.transport ≠ .stopped)
      ∧ ((rig.loadingFrom .blank).takes .s2 .start [] = true ∧ (rig.loadingFrom .blank).st.op = .loading) := by decide

theorem test_hyp_StopsEndTheRun :
    (rolling.takes .s2 .stop [0] = true ∧ rolling.ticking = true) ∧ (rig.takes .s3 .stop [0] = true ∧ rig.ticking = false)
      ∧ (rolling.takes .s2 .stop [1] = true ∧ rolling.te.transport = .running)
      ∧ ((rolling.in_ .counting).takes .s2 .stop [1] = true ∧ (rolling.in_ .counting).te.transport = .counting)
      ∧ ((rolling.in_ .stopping).takes .s2 .stop [1] = true ∧ (rolling.in_ .stopping).te.transport = .stopping)
      ∧ (rig.takes .s2 .stop [1] = true ∧ rig.te.transport = .stopped) := by decide

theorem test_hyp_LocateMovesTheStoppedPosition :
    rig.takes .s2 .locate (be16 0) = true ∧ rig.takes .s2 .locate (be16 10000) = true ∧ rig.takes .s2 .locate (be16 9999) = true
      ∧ (rolling.takes .s2 .locate (be16 1) = true ∧ rolling.te.transport ≠ .stopped)
      ∧ (rig.te.transport = .stopped ∧ rig.cs.state = .idle)
      ∧ (ended.takes .s2 .locate (be16 1) = true ∧ ended.te.transport = .stopped ∧ ended.cs.state ≠ .idle ∧ ended.cs.current = none
        ∧ ended.cs.song = none)
      ∧ (cueless.takes .s3 .locate (be16 9) = true ∧ cueless.te.transport = .stopped ∧ cueless.cs.state = .waiting
        ∧ cueless.cs.current ≠ none ∧ cueless.cs.song = some 5
        ∧ (Table.look cueless.cs.songs 5).map Song.firstCue = some none)
      ∧ (playlist.takes .s3 .locate (be16 9999) = true ∧ playlist.te.transport = .stopped ∧ playlist.cs.state = .ended
        ∧ playlist.cs.song = some 5 ∧ Table.look playlist.cs.songs 5 = some demoSong ∧ demoSong.firstCue = some 7) := by decide

theorem test_hyp_TickMovesTheEngineOn :
    rig.ticking = false ∧ rolling.ticking = true ∧ (rolling.at_ 8 3 19).te.pos.tick + 1 = 20 ∧ (rolling.at_ 8 3 19).ticking = true
      ∧ (rolling.at_ 8 3 19).te.clockCount ≤ 1 ∧ rolling.te.pos.tick + 1 < 480 ∧ (rolling.te.pos.tick + 1) % 20 ≠ 0
      ∧ 480 ≤ (rolling.at_ 8 3 479).te.pos.tick + 1 ∧ (rolling.at_ 8 3 479).ticking = true := by decide

theorem test_hyp_BeatEventsAdvanceBeatAndBar :
    rolling.te.pos.beat < rolling.te.meter
      ∧ ((rolling.at_ 8 4 479).te.meter ≤ (rolling.at_ 8 4 479).te.pos.beat ∧ (rolling.at_ 8 4 479).te.segue = none
        ∧ (rolling.at_ 8 4 479).te.transport = .running)
      ∧ (((rolling.at_ (-1) 4 479).in_ .counting).te.meter ≤ ((rolling.at_ (-1) 4 479).in_ .counting).te.pos.beat
        ∧ ((rolling.at_ (-1) 4 479).in_ .counting).te.transport = .counting)
      ∧ (rolling.withSegue.te.meter ≤ rolling.withSegue.te.pos.beat ∧ rolling.withSegue.te.segue = some ⟨some 9000, 3, 2⟩
        ∧ rolling.withSegue.te.transport = .running) := by decide

theorem test_hyp_ClosingEventStopsAtTheBar :
    ((rolling.at_ 8 4 479).in_ .stopping).te.transport = .stopping
      ∧ ((rolling.at_ 8 4 479).in_ .stopping).te.meter ≤ ((rolling.at_ 8 4 479).in_ .stopping).te.pos.beat
      ∧ ((rolling.at_ 8 4 479).in_ .stopping).te.segue = none ∧ ((rolling.at_ 8 4 479).in_ .stopping).cs.state ≠ .waiting
      ∧ ((rolling.at_ 8 4 479).in_ .stopping).cs.segue = none ∧ ((rolling.at_ 8 4 479).in_ .stopping).cs.deferred = none
      ∧ ((rolling.at_ 8 4 479).in_ .stopping).lr.staged = none
      ∧ ((rolling.withSegue.in_ .stopping).te.transport = .stopping
        ∧ (rolling.withSegue.in_ .stopping).te.meter ≤ (rolling.withSegue.in_ .stopping).te.pos.beat
        ∧ (rolling.withSegue.in_ .stopping).te.segue = some ⟨some 9000, 3, 2⟩)
      ∧ ((((rolling.at_ 8 4 479).in_ .stopping).waiting).te.transport = .stopping
        ∧ (((rolling.at_ 8 4 479).in_ .stopping).waiting).cs.state = .waiting) := by decide
theorem test_hyp_ClosingEventStopsAtTheBar_deferred :
    (deferring.te.transport = .stopping ∧ deferring.te.meter ≤ deferring.te.pos.beat)
      ∧ (closing deferring).te.transport = .stopping ∧ (closing deferring).cs.deferred = some 0
      ∧ (closing deferring).cs.setlist[0]? = some 5 ∧ Table.look (closing deferring).cs.songs 5 = some demoSong := by decide
/-- In whatever order the four blocks take it: a STOP(NOW) cue of the closing event stops the transport itself. -/
theorem test_hyp_ClosingEventStopsAtTheBar_stopped :
    (stopsItself.te.transport = .stopping ∧ stopsItself.te.meter ≤ stopsItself.te.pos.beat)
      ∧ (closing stopsItself).te.transport ≠ .stopping := by
  refine ⟨by decide, ?_⟩
  have h : ∀ m < 24, (State.takeBeatAll (State.choose { stopsItself with te := { stopsItself.te with pos := ⟨9, 1, 0⟩ } })
      barNine (shuffle 4 m [.click, .router, .sequencer, .notice])).te.transport ≠ .stopping := by decide
  have hs : ∀ n, shuffle 4 n [Taker.click, .router, .sequencer, .notice] = shuffle 4 (n % 24) [.click, .router, .sequencer, .notice] := by
    intro n
    have e1 : n % 24 % 4 = n % 4 := by omega
    have e2 : n % 24 / 4 % 3 = n / 4 % 3 := by omega
    have e3 : n % 24 / 12 % 2 = n / 12 % 2 := by omega
    have k1 : n % 4 = 0 ∨ n % 4 = 1 ∨ n % 4 = 2 ∨ n % 4 = 3 := by omega
    have k2 : n / 4 % 3 = 0 ∨ n / 4 % 3 = 1 ∨ n / 4 % 3 = 2 := by omega
    have k3 : n / 12 % 2 = 0 ∨ n / 12 % 2 = 1 := by omega
    clear h
    rcases k1 with k1 | k1 | k1 | k1 <;> rcases k2 with k2 | k2 | k2 <;> rcases k3 with k3 | k3 <;>
      simp [shuffle, e1, e2, e3, k1, k2, k3, Nat.div_div_eq_div_mul, Nat.mod_one]
  have ho : closing stopsItself = State.takeBeatAll (State.choose { stopsItself with te := { stopsItself.te with pos := ⟨9, 1, 0⟩ } })
      barNine (shuffle 4 (Config.beatOrder 0) [.click, .router, .sequencer, .notice]) := rfl
  rw [ho, hs]
  exact h _ (Nat.mod_lt _ (by decide))

theorem test_hyp_MarksDriveTheFollower :
    rig.te.source ≠ .line ∧ ((rig.link .s2).high = true ∧ rig.te.source ≠ .marks)
      ∧ (chasing.te.source = .line ∧ chasing.te.lastMark = none ∧ chasing.te.follow ≠ .freewheel)
      ∧ ((chasing.follows .marks .freewheel).te.source = .marks ∧ ((chasing.follows .marks .freewheel).link .s2).high = true
        ∧ (chasing.follows .marks .freewheel).te.lastMark = none ∧ (chasing.follows .marks .freewheel).te.follow = .freewheel)
      ∧ (locked.te.source = .line ∧ locked.te.lastMark = some 999880#32 ∧ stampSince locked.now 999880#32 = 500120
        ∧ locked.te.history ≠ [] ∧ locked.ticking = false)
      ∧ ([199999, 200000, 2000000, 2000001].all (fun d =>
          decide ((lastMarked d).te.source = .line) && decide ((lastMarked d).te.follow = .locked)
            && decide ((lastMarked d).te.history ≠ [])
            && (lastMarked d).te.lastMark.any (fun m => decide (stampSince (lastMarked d).now m = d))) = true)
      ∧ ((lastMarked 200000).forgets.te.history = [] ∧ (lastMarked 200000).forgets.te.lastMark = (lastMarked 200000).te.lastMark
        ∧ (lastMarked 200000).forgets.te.follow = .seeking)
      ∧ (locked.te.follow = .locked ∧ lateFirst.te.follow = .locked ∧ lateFirst.te.lastMark = none
        ∧ lateFirst.te.lostDeadline ≠ none ∧ lateFirst.te.history ≠ [])
      ∧ ((locked.in_ .running).ticking = true ∧ ((locked.in_ .running).at_ 12 4 239).te.pos.tick = 239
        ∧ ((locked.in_ .running).at_ 12 4 240).te.pos.tick = 240) := by decide

theorem test_hyp_FollowerDeadlinesPass :
    rig.te.lostDeadline = none ∧ (locked.te.lostDeadline ≠ none ∧ locked.ticking = false)
      ∧ ((locked.in_ .running).te.lostDeadline ≠ none ∧ (locked.in_ .running).ticking = true) := by decide

theorem test_hyp_ClickRequestsAct :
    (patternOk (List.replicate 16 ⟨.silent, 8⟩) = true ∧ rig.st.op = .none
      ∧ rig.takes .s3 .writePattern (patternPayload 15 (List.replicate 16 ⟨.silent, 8⟩)) = true
      ∧ Table.sorted rig.ck.patterns = true)
      ∧ (ClickChange.ok ⟨some 15, none, none, none, some 12⟩ = true
        ∧ rig.takes .s2 .setClick (clickPayload .keys ⟨some 15, none, none, none, some 12⟩) = true)
      ∧ rig.takes .s2 .setClick (clickPayload .band ⟨none, none, none, none, none⟩) = true
      ∧ saving.takes .s0 .muteClick [byte (Bus.code .keys), flag true] = true
      ∧ rig.takes .s2 .muteClick [2#8, flag true] = true := by decide

theorem test_hyp_BeatAndSubdivisionClicks :
    (⟨1, 1, 4, .stopped, true, true⟩ : BeatEvent).closing = true
      ∧ (⟨-1, 1, 4, .counting, true, false⟩ : BeatEvent).transport = .counting
      ∧ (⟨1, 1, 4, .running, true, false⟩ : BeatEvent).transport = .running
      ∧ (1 < ({ ClickBus.reset with subdiv := 8 } : ClickBus).subdiv ∧ 60 % (480 / 8) = 0 ∧ 0 < 60 / (480 / 8))
      ∧ ¬(1 < ClickBus.reset.subdiv) ∧ ClickBus.reset.level ≤ 12 := by decide

theorem test_hyp_SamplePeriodSendsTheBurst :
    ClickBus.reset.burst = none
      ∧ (({ ClickBus.reset with burst := some ⟨.sub, 8388607, 479⟩ } : ClickBus).burst = some ⟨.sub, 8388607, 479⟩
        ∧ (⟨.sub, 8388607, 479⟩ : Burst).n ≤ 479 ∧ (⟨.sub, 8388607, 479⟩ : Burst).peak ≤ 8388607) := by decide

theorem test_hyp_WritesReplaceOneSlot :
    rig.st.op = .none ∧ demoScene.ok = true ∧ rig.takes .s3 .writeScene (byte 127 :: sceneBytes demoScene) = true
      ∧ demoSong.ok = true ∧ rig.takes .s3 .writeSong (byte 63 :: songBytes demoSong) = true
      ∧ demoCue.ok = true ∧ rig.takes .s3 .writeCue (byte 255 :: cueBytes demoCue) = true
      ∧ ([0, 63] : List Nat).length ≤ 64 ∧ rig.takes .s3 .writeSetlist (byte 2 :: [0, 63].map byte) = true := by decide

theorem test_hyp_ReadsReturnTheTables :
    rig.takes .s0 .readScene [byte 127] = true ∧ rig.takes .s2 .readScene [byte 128] = true
      ∧ saving.takes .s1 .readSong [byte 63] = true ∧ rig.takes .s1 .readSong [byte 64] = true
      ∧ rig.takes .s2 .readCue [byte 255] = true ∧ rig.takes .s3 .readSetlist [] = true := by decide

theorem test_hyp_LockTable :
    (∀ l : Link, rig.hearsRequest l = true) ∧ rig.ready = true ∧ rig.lr.lock = none
      ∧ (rig.holding .s1).lr.lock = some .s1 ∧ (rig.holding .s1).hearsRequest .s1 = true
      ∧ (rig.holding .s1).hearsRequest .s3 = true := by
  refine ⟨fun l => by cases l <;> decide, by decide⟩

theorem test_hyp_LoadSceneNowStagesOrSwaps :
    rig.takes .s0 .loadSceneNow [byte 128, byte 0] = true ∧ rig.takes .s0 .loadSceneNow [byte 127, byte 3] = true
      ∧ (rig.takes .s3 .loadSceneNow [byte 127, byte 2] = true ∧ rig.st.op ≠ .loading ∧ rig.lr.lock = none
        ∧ rig.lr.staged = none ∧ rig.lr.claim = none ∧ ((Table.look rig.cs.scenes 127).getD ⟨[], [], []⟩).programs = [])
      ∧ (rig.holding .s1).takes .s1 .loadSceneNow [byte 0, byte 1] = true
      ∧ (dressed.takes .s0 .loadSceneNow [byte 127, byte 0] = true ∧ dressed.lr.lock = none ∧ dressed.lr.staged = none
        ∧ dressed.lr.claim = some ⟨9, 3⟩ ∧ Table.look dressed.cs.scenes 127 = some demoScene ∧ demoScene.programs ≠ [])
      ∧ ((rig.staging .nextBar).lr.staged.map Staging.origin = some (.link .s3)
        ∧ (dressed.stageCommand 9 127).lr.staged.map Staging.origin = some (.cue 9)
        ∧ ((rig.staging .nextBar).holding .s1).lr.lock = some .s1) := by decide

theorem test_hyp_SelectSongAndGo :
    (ended.withSong.takes .s3 .selectSong [byte 0] = true ∧ ended.withSong.st.op ≠ .loading
      ∧ ended.withSong.cs.setlist[0]? = some 5 ∧ ended.withSong.te.transport = .stopped
      ∧ Table.look ended.withSong.cs.songs 5 = some demoSong ∧ ended.withSong.cs.current = none
      ∧ Table.look ended.withSong.cs.cues 7 = none)
      ∧ (ended.withSong.cs.setlist[1]? = none ∧ ended.withSong.takes .s0 .selectSong [byte 1] = true)
      ∧ (rolling.takes .s2 .go [] = true ∧ rolling.cs.state = .idle)
      ∧ (rolling.waiting.takes .s2 .go [] = true ∧ rolling.waiting.cs.state = .waiting
        ∧ rolling.waiting.cs.current = some ⟨9, stopCue⟩ ∧ rolling.waiting.ticking = true)
      ∧ (rig.waiting.takes .s0 .go [] = true ∧ rig.waiting.ticking = false ∧ stopCue.action = .nop ∧ stopCue.isEnd = true
        ∧ Table.look rig.waiting.cs.cues 9 = some ⟨stopCue, false, .none⟩)
      ∧ (rig.heldAt.takes .s0 .go [] = true ∧ rig.heldAt.cs.state = .held ∧ rig.heldAt.cs.latchedNext = some ⟨9, stopCue⟩
        ∧ Table.look rig.heldAt.cs.cues 9 = some ⟨stopCue, false, .none⟩ ∧ stopCue.action.sceneNumber = none
        ∧ stopCue.lead = 0)
      ∧ ((rolling.current loopCue).cs.boundary = 0 ∧ Table.look (rolling.current loopCue).cs.cues 9 = some ⟨loopCue, false, .none⟩
        ∧ loopCue = ⟨.afterPrevious, .nop, false, false, false, loopCue.lead, 9⟩)
      ∧ (rig.cs.setPos = none ∧ playlist.cs.setPos = some 0 ∧ playlist.cs.setlist[1]? = some 6
        ∧ Table.look playlist.cs.songs 6 = none)
      ∧ ((rolling.current { demoCue with action := .scene 3 }).cs.current.map (fun c => c.record.action) = some (.scene 3)
        ∧ Table.look (rig.current { stopCue with isHold := true, isEnd := false, next := 9 }).cs.cues 9 ≠ none
        ∧ Table.look rig.waiting.cs.cues 0 = none ∧ chasing.te.follow ≠ .free) := by decide

theorem test_hyp_PortAndWatchSettingsAct :
    rig.st.op = .none ∧ InSettings.ok ⟨true, none, 8, 7, 8⟩ = true
      ∧ rig.takes .s3 .setInput (inputPayload .in5 ⟨true, none, 8, 7, 8⟩) = true
      ∧ InSettings.ok ⟨false, some 15, 1, 0, 0⟩ = true ∧ rig.takes .s3 .setInput (inputPayload .in0 ⟨false, some 15, 1, 0, 0⟩) = true
      ∧ rig.lr.held = []
      ∧ ((rig.setIn .in0 { MidiIn.reset with settings := ⟨false, none, 1, 0, 0⟩ }).takes .s3 .setInput
          (inputPayload .in0 ⟨true, none, 1, 0, 0⟩) = true
        ∧ ((rig.setIn .in0 { MidiIn.reset with settings := ⟨false, none, 1, 0, 0⟩ }).midiIn .in0).settings.enabled = false)
      ∧ ((rig.setIn .in0 { MidiIn.reset with settings := ⟨false, none, 1, 0, 0⟩ }).takes .s3 .setInput
          (inputPayload .in0 ⟨false, some 15, 1, 0, 0⟩) = true)
      ∧ rig.takes .s3 .setOutput (outputPayload .out3 ⟨false, true, true⟩) = true
      ∧ rig.takes .s3 .setWatch [byte 2] = true
      ∧ ((rig.station .a).state ≠ .suspect ∧ (rig.station .a).state ≠ .joining ∧ (rig.station .b).state ≠ .suspect
        ∧ (rig.station .b).state ≠ .joining)
      ∧ ((sounding.midiIn .in0).settings.enabled = true ∧ sounding.takes .s3 .setInput (inputPayload .in0 ⟨true, some 15, 1, 0, 0⟩) = true
        ∧ sounding.lr.held = [heldNote])
      ∧ ((missing 3).takes .s3 .setWatch [byte 3] = true ∧ ((missing 3).station .a).state = .suspect
        ∧ ((missing 3).station .a).miss = 3 ∧ ((missing 3).station .b).state = .joining ∧ ((missing 3).station .b).miss = 2
        ∧ ((missing 2).station .a).miss = 2)
      ∧ ((missing 20).takes .s3 .setWatch [byte 1] = true ∧ ((missing 20).station .a).miss = 20) := by decide

theorem test_hyp_FaultLogRequestsAct :
    rig.st.op = .none ∧ rig.takes .s3 .setFaultMode [byte 10, byte 0] = true
      ∧ rig.takes .s3 .setFaultMode [byte 9, byte 3] = true
      ∧ (rig.takes .s3 .setFaultMode [byte (FaultClass.code .frame), byte (FaultMode.code .log)] = true
        ∧ rig.fl.modes.get .frame = .log)
      ∧ (rig.takes .s3 .setFaultMode [byte (FaultClass.code .startup), byte (FaultMode.code .alert)] = true
        ∧ rig.fl.modes.get .startup ≠ .alert)
      ∧ rig.takes .s0 .ackFaults [] = true ∧ rig.takes .s2 .readFaults [byte 31] = true
      ∧ rig.takes .s2 .readFaults [byte 32] = true := by decide

theorem test_hyp_SubscribeAndReadStatusAct :
    rig.takes .s2 .subscribe [0x7F#8] = true ∧ waking.takes .s0 .subscribe [0#8] = true
      ∧ rig.hearsRequest .s1 = true ∧ 128 ≤ (0x80#8 : Byte).toNat ∧ waking.takes .s3 .readStatus [] = true := by decide

theorem test_hyp_RestartClearsTheShow :
    rolling.takes .s3 .restart [] = true ∧ rolling.ticking = true
      ∧ (rig.holding .s1).takes .s3 .restart [] = true ∧ (rig.holding .s1).lr.lock ≠ none
      ∧ (sounding.takes .s3 .restart [] = true ∧ sounding.lr.held = heldNote :: [])
      ∧ (chasing.takes .s3 .restart [] = true ∧ chasing.te.follow ≠ .free) := by decide

theorem test_hyp_SaveRunsFromACopy :
    rig.st.op = .none ∧ rig.takes .s3 .saveShow [] = true
      ∧ (saving.st.op ≠ .none ∧ Instr.asRequest (.setWatch .s3 [byte 6]) = some (.s3, .setWatch, [byte 6])
        ∧ saving.takes .s3 .setWatch [byte 6] = true)
      ∧ saving.st.op = .saving saving.image := by
  refine ⟨by decide, by decide, by decide, by decide⟩

theorem test_hyp_LoadAndStartUpTakeTheImage :
    (rig.st.op = .none ∧ rig.takes .s3 .loadShow [] = true ∧ rolling.takes .s3 .loadShow [] = true)
      ∧ ((rig.loadingFrom .blank).st.op = .loading ∧ (rig.loadingFrom .blank).st.flash.read = (.blank, none)
        ∧ ImageStatus.fault .blank = some .blank)
      ∧ (waking.ready = false ∧ waking.st.flash.read = (.blank, none)) := by decide
theorem test_hyp_LoadAndStartUpTakeTheImage_valid :
    (rig.loadingFrom (.image rig.image (crc16 (Config.imageBytes rig.image)))).st.op = .loading
      ∧ (rig.loadingFrom (.image rig.image (crc16 (Config.imageBytes rig.image)))).st.flash
        = .image rig.image (crc16 (Config.imageBytes rig.image))
      ∧ { waking with st := { waking.st with flash := .image rig.image (crc16 (Config.imageBytes rig.image)) } }.ready = false
      ∧ Table.sorted rig.image.patterns = true := ⟨rfl, rfl, rfl, rfl⟩

theorem test_hyp_ActiveAndResyncRequestsAct :
    ((rig.withStation .a .up).takes .s3 .setActive [byte (Station.code .a)] = true
        ∧ ((rig.withStation .a .up).station .a).state = .up ∧ (rig.withStation .a .up).sw.active ≠ some .a)
      ∧ (onAir.takes .s0 .setActive [byte (Station.code .a)] = true ∧ (onAir.station .a).state = .up
        ∧ onAir.sw.active = some .a)
      ∧ (rig.takes .s3 .setActive [byte (Station.code .b)] = true ∧ (rig.station .b).state ≠ .up)
      ∧ (rig.takes .s3 .resync [byte (Station.code .b)] = true ∧ (rig.station .b).state ≠ .suspect)
      ∧ ((rig.withStation .b .suspect).takes .s1 .resync [byte (Station.code .b)] = true
        ∧ ((rig.withStation .b .suspect).station .b).state = .suspect ∧ rig.lr.lock = none ∧ rig.sw.active = none)
      ∧ ((onAir.holding .s0).takes .s0 .resync [byte (Station.code .a)] = true ∧ ((onAir.holding .s0).station .a).state = .up
        ∧ (onAir.holding .s0).lr.lock = some .s0 ∧ (onAir.holding .s0).sw.active = some .a)
      ∧ (rig.takes .s3 .setActive [2#8] = true ∧ rig.takes .s3 .resync [0xFF#8] = true) := by decide

theorem test_hyp_PanicSilencesEverything :
    onAir.takes .s3 .panic [] = true ∧ (onAir.station .a).state = .up ∧ (onAir.link .s0).high = true
      ∧ 16 ≤ ((onAir.answered .s3 .panic .done []).link .s0).free
      ∧ 16 ≤ ((onAir.answered .s3 .panic .done []).link .s1).free
      ∧ ((choked.withStation .a .up).takes .s3 .panic [] = true ∧ (choked.link .s0).high = true
        ∧ ((choked.withStation .a .up).station .a).state = .up) := by decide
theorem test_hyp_PanicSilencesEverything_full :
    (((choked.withStation .a .up).answered .s3 .panic .done []).link .s0).free < 16 := by
  have h : ((choked.withStation .a .up).answered .s3 .panic .done []).link .s0 = choked.link .s0 := rfl
  rw [h, choked_full]
  decide

theorem test_hyp_NoticesAndReportsReachTheirPlaces :
    (rig.fl.modes.frame ≠ .alert ∧ Mask.transport (rig.link .s2).mask = true ∧ (rig.link .s2).high = true
      ∧ 16 ≤ (rig.link .s2).free ∧ ¬ 16 ≤ (choked.link .s0).free)
      ∧ (rig.fl.records.length ≤ 32 ∧ rig.fl.modes.get (FaultKind.cls .gap) = .log
        ∧ rig.fl.modes.get (FaultKind.cls .lost) = .alert
        ∧ (rig.setModes { FaultModes.reset with cue := .ignore }).fl.modes.get (FaultKind.cls .late) = .ignore) := by
  rw [choked_full]; decide

theorem test_hyp_HoldsPauseAndTelegramsFollow :
    (rig.link .s3).high = true ∧ ((rig.heldLink .s3).link .s3).hold ≠ none ∧ (rig.link .s0).hold = none
      ∧ (choked.link .s0).tx ≠ none ∧ (rig.link .s0).tx = none := by decide

theorem test_hyp_ReceiverTakesTelegramsAndDiscards :
    ((State.reset.link .s0).high = false)
      ∧ ((rig.link .s2).high = true ∧ (rig.link .s2).rescan = [] ∧ (rig.link .s2).collecting = false)
      ∧ (((rig.collecting .s2 []).link .s2).high = true ∧ ((rig.collecting .s2 []).link .s2).rescan = []
        ∧ ((rig.collecting .s2 []).link .s2).collecting = true ∧ ((rig.collecting .s2 []).link .s2).collected = []
        ∧ ((rig.collecting .s2 []).link .s2).gap.isSome = true)
      ∧ (byteAt ([5#8] ++ [0x9C#8]) 0 ≤ 240 ∧ ([5#8] : List Byte).length + 1 < byteAt ([5#8] ++ [0x9C#8]) 0 + 3
        ∧ ((rig.collecting .s2 [5#8]).link .s2).collected = [5#8])
      ∧ 240 < (241#8 : Byte).toNat ∧ 128 ≤ (0x80#8 : Byte).toNat ∧ (4 < (63 : Fin 64).val)
      ∧ (RepKind.allowed .echo (Link.role .s0) = true ∧ RepKind.fits .echo [] = false)
      ∧ RepKind.allowed .mark (Link.role .s0) = false := by decide
theorem test_hyp_ReceiverTakesTelegramsAndDiscards_check :
    crc8 [0#8, 1#8] = 0x31#8 ∧ crc8 [0#8, 1#8] ≠ 0x30#8 ∧ byteAt ([0#8, 1#8] ++ [0x30#8]) 0 ≤ 240
      ∧ ([0#8, 1#8] ++ [0x30#8] : List Byte).length = byteAt ([0#8, 1#8] ++ [0x30#8]) 0 + 3
      ∧ ((rig.collecting .s2 [0#8, 1#8]).link .s2).collected = [0#8, 1#8] := by
  have h : crc8 [0#8, 1#8] = 0x31#8 := by decide +kernel
  exact ⟨h, by rw [h]; decide, by decide, rfl, rfl⟩

theorem test_hyp_DetectEndsAndOpensSessions :
    (rig.link .s2).high = true ∧ (rig.link .s3).high = true ∧ (rig.holding .s3).lr.lock = some .s3
      ∧ ((onAir.link .s1).high = true ∧ onAir.lr.lock ≠ some .s1 ∧ onAir.sw.active ≠ some .b)
      ∧ (((onAir.holding .s0).link .s0).high = true ∧ ((onAir.holding .s0).station .a).state = .up)
      ∧ ((State.reset.link .s3).high = false ∧ (State.reset.link .s0).high = false ∧ (State.reset.station .a).state = .absent
        ∧ State.reset.lr.lock ≠ some .s0) := by decide

theorem test_hyp_PulsesAndEchoesDriveTheStations :
    ((onAir.link .s0).high = true ∧ (onAir.station .a).awaited = some 7 ∧ (onAir.station .a).state = .up)
      ∧ (rig.station .b).awaited ≠ some 255
      ∧ (((onAir.withStation .b .suspect).station .b).state = .suspect ∧ onAir.sw.active = some .a
        ∧ (onAir.station .a).state.onAir = true)
      ∧ ((onAir.withStation .b .down).link .s1).high = true
      ∧ ((onAir.withStation .b .down).station .b).state = .down ∧ onAir.lr.lock ≠ some .s1 := by decide

theorem test_hyp_ResyncGivesBackTheHeldNotes :
    ((joiningAt .clearing).station .b).state = .joining ∧ ((joiningAt .clearing).station .b).phase = .clearing
      ∧ ((joiningAt .replaying).station .b).state = .joining ∧ ((joiningAt .replaying).station .b).phase = .replaying
      ∧ (joiningAt .replaying).lr.held = [] ++ owedNote :: [] ∧ owedNote.pend.get .b = true
      ∧ ((joiningAt .replaying).link .s1).high = true ∧ ((joiningAt .replaying).link .s1).hold = none
      ∧ 15 + 1 ≤ ((joiningAt .replaying).link .s1).free ∧ (joiningAt .replaying).sw.active = some .a
      ∧ ((joiningAt .replaying).station .a).state.onAir = true
      ∧ (onAir.station .a).state ≠ .joining
      ∧ (((joiningAt .clearing).link .s1).high = true ∧ ((joiningAt .clearing).station .b).phase = .clearing) := by decide

theorem test_hyp_NoteOnSoundsItsTargets :
    ((rig.live1 flatLayer).ready = true ∧ ((rig.live1 flatLayer).midiIn .in0).settings.enabled = true
      ∧ ((rig.live1 flatLayer).midiIn .in0).settings.filter = none ∧ (rig.live1 flatLayer).lr.held = []
      ∧ (rig.live1 flatLayer).lr.live.layers = [flatLayer] ∧ flatLayer.input = .in0 ∧ flatLayer.chan = none
      ∧ flatLayer.zoneLow ≤ 127 ∧ 127 ≤ flatLayer.zoneHigh ∧ flatLayer.vmin ≤ 1 ∧ 1 ≤ flatLayer.vmax
      ∧ flatLayer.transpose = 0 ∧ flatLayer.dest = .out .out0 ∧ ((rig.live1 flatLayer).midiOut .out0).mode = .enabled
      ∧ ((rig.live1 flatLayer).midiOut .out0).sounding < 64 ∧ ((rig.live1 flatLayer).midiOut .out0).queue.length < 64
      ∧ waking.ready = false)
    ∧ ∀ z, (rig.station z).state = .down ∨ (rig.station z).state = .absent :=
  ⟨by decide, fun z => by cases z <;> decide⟩

theorem test_hyp_ReleasesEndTheirNotes :
    sounding.ready = true ∧ (sounding.midiIn .in0).settings.enabled = true ∧ (sounding.midiIn .in0).settings.filter = none
      ∧ sounding.lr.held = [] ++ heldNote :: [] ∧ heldNote.input = .in0 ∧ heldNote.chan = 0 ∧ heldNote.key = 60
      ∧ heldNote.state = .held ∧ heldNote.targets = [⟨.out .out0, 0, 60, 100, .follow⟩]
      ∧ (sounding.midiOut .out0).mode ≠ .disabled ∧ (sounding.midiIn .in0).sustain.getLsbD 0 = false
      ∧ ((sounding.pedalDown).midiIn .in0).sustain.getLsbD 0 = true ∧ sounding.pedalDown.lr.held = [] ++ heldNote :: []
      ∧ sounding.lr.live.layers = []
      ∧ sounding.lr.held.find? (fun d => decide (d.input = .in0 ∧ d.chan = 0 ∧ d.key = 60)) = some heldNote
      ∧ (waking.ready = false ∧ (sounding.filtered 15).ready = true
        ∧ ((sounding.filtered 15).midiIn .in0).settings.enabled = true
        ∧ ((sounding.filtered 15).midiIn .in0).settings.filter = some 15 ∧ (15 : Chan) ≠ 0)
      ∧ (sustainedPair.input = .in0 ∧ sustainedPair.state = .sustained 40 ∧ sustainedPair.targets.map Target.dest = [.sound, .sound]
        ∧ [sustainedPair].find? (fun d => decide (d.input = .in0 ∧ d.chan = 0 ∧ d.key = 52)) = some sustainedPair) := by decide

theorem test_hyp_InputBytesBesidesNotes :
    (rig.ready = true ∧ (rig.midiIn .in5).settings.enabled = true ∧ (rig.midiIn .in5).running = none
      ∧ (rig.midiIn .in5).collected = none ∧ (rig.midiIn .in5).skip = .none ∧ (rig.midiIn .in5).sensing ≠ .watched)
      ∧ waking.ready = false
      ∧ (((rig.setIn .in1 { MidiIn.reset with sensing := .watched, deadline := some 0#32 }).midiIn .in1).sensing = .watched
        ∧ rig.lr.held = [])
      ∧ (∃ k v, ChanMsg.polyPressure 1 2 = .polyPressure k v)
      ∧ (120 ≤ (127 : Val7).val ∧ (127 : Val7).val ≠ 123) := by
  exact ⟨by decide, by decide, by decide, ⟨_, _, rfl⟩, by decide⟩

theorem test_hyp_ControllersFilterAndForward :
    ((rig.live1 flatLayer).lr.live.layers = [flatLayer] ∧ flatLayer.dest ≠ .sound ∧ (rig.live1 flatLayer).ready = true
      ∧ ((rig.live1 flatLayer).midiIn .in0).settings.enabled = true
      ∧ ((rig.live1 flatLayer).midiIn .in0).settings.filter = none ∧ (rig.live1 flatLayer).lr.slots = [])
      ∧ (pendingSlot.lr.slots = [] ++ ⟨⟨.in0, 0, .control 7⟩, [10, 20], 15, some 10, some 0#32, some 8000#32⟩ :: []
        ∧ pendingSlot.lr.live.layers = [])
      ∧ (quietSlot.lr.slots = [] ++ ⟨⟨.in0, 0, .control 7⟩, [10], 10, some 10, some 0#32, none⟩ :: []
        ∧ quietSlot.lr.live.layers = [])
      ∧ (fullSlots.ready = true ∧ fullSlots.lr.live.layers = [] ∧ 32 ≤ fullSlots.lr.slots.length
        ∧ (∀ q ∈ fullSlots.lr.slots, q.key ≠ ⟨.in0, 0, .control 40⟩) ∧ 1 ≤ (fullSlots.midiIn .in0).settings.average) := by decide

theorem test_hyp_OutputsAdmitAndSend :
    (rig.midiOut .out2).mode = .enabled ∧ (rig.midiOut .out2).queue.length + 3 ≤ 64 ∧ (rig.midiOut .out2).line = none
      ∧ ((sending [0xF8#8] [] []).midiOut .out2).line.isSome = true ∧ ((sending [0xF8#8] [] []).midiOut .out2).realTime = [0xF8#8]
      ∧ ((sending [] [60#8] []).midiOut .out2).tx = some ⟨.noteOn 0 60 100, [60#8]⟩
      ∧ ((sending [] [] [⟨.control 0 7 1, true⟩]).midiOut .out2).queue = [] ++ ⟨.control 0 7 1, true⟩ :: []
      ∧ OutMsg.sameStream (.control 0 7 1) (.control 0 7 9) = true
      ∧ ((sending [] [] []).midiOut .out2).queue = [] := by decide

theorem test_hyp_OutputsAdmitAndSend_full :
    let x : MidiOut := (sending [] [] (List.replicate 64 ⟨.control 0 7 1, true⟩)).midiOut .out2
    let y : MidiOut := (rig.setOut .out2 { MidiOut.reset with mode := .draining, line := some ⟨0xF8#8, 320#32⟩ }).midiOut .out2
    let z : MidiOut := (rig.setOut .out2 { MidiOut.reset with sounding := 64 }).midiOut .out2
    (x.mode = .enabled ∧ x.queue.length = 64 ∧ x.sounding < 64) ∧ (z.mode = .enabled ∧ 64 ≤ z.sounding)
      ∧ (y.mode = .draining ∧ y.mode ≠ .enabled ∧ y.sounding = 0 ∧ y.queue = [] ∧ y.tx = none ∧ y.line.isSome = true) := by
  decide

end Sys2Proof.Machine
end

section
/-! PROOFS. What a command can come to, said once: the operations of the model that `exec` hands a command to (`Deed`), and
the rule by which what every deed keeps is kept by every step. -/

namespace Sys2Proof.Machine

/-- The operation that a command is handed to, with the state it leaves. -/
inductive Deed (s : State) : State → Prop
  | resets (c : ResetCause) (d : PerLink Bool) : Deed s (s.resets c d)
  | startupEnds : Deed s s.startupEnds
  | tick : Deed s s.tick
  | sampleBuses : Deed s s.sampleBuses
  | beatEdge : Deed s (s.markFrom .line)
  | lastMarkExpiry : Deed s s.lastMarkExpiry
  | lostDeadline : Deed s s.lostDeadline
  | telegram (l : Link) (k : Byte) (p : List Byte) : Deed s (s.telegram l k p)
  | saveEnds (e : SaveEnd) : Deed s (s.saveEnds e)
  | loadEnds : Deed s s.loadEnds
  | holdExpiry (l : Link) : Deed s (s.holdExpiry l)
  | lineByte (l : Link) (b : Byte) : Deed s (s.lineByte l b)
  | badStop (l : Link) : Deed s (s.badStop l)
  | gapDeadline (l : Link) : Deed s (s.gapDeadline l)
  | telegramSent (l : Link) : Deed s (s.telegramSent l)
  | detectFalls (l : Link) : Deed s (s.detectFalls l)
  | detectRises (l : Link) : Deed s (s.detectRises l)
  | pulse : Deed s s.pulse
  | resyncAllOff (x : Station) : Deed s (s.resyncAllOff x)
  | resyncReplay (x : Station) : Deed s (s.resyncReplay x)
  | resyncJoined (x : Station) : Deed s (s.resyncJoined x)
  | message (i : InPort) (c : Chan) (m : ChanMsg) : Deed s (s.messageArrives i c m)
  | midiByte (i : InPort) (b : Byte) : Deed s (s.midiByte i b)
  | midiBytes (i : InPort) (bs : List Byte) : Deed s (s.midiBytes i bs)
  | sensingLoss (i : InPort) : Deed s (s.sensingLoss i)
  | framingError (i : InPort) : Deed s (s.framingError i)
  | slotExpiry (k : SlotKey) : Deed s (s.slotExpiry k)
  | forwardTimeExpiry (k : SlotKey) : Deed s (s.forwardTimeExpiry k)
  | outputByteSent (o : OutPort) : Deed s (s.outputByteSent o)
  | outputDrained (o : OutPort) : Deed s (s.outputDrained o)

/-- Every command is handed to one of these operations. -/
theorem exec_deed (c : Instr) (s : State) : ∃ t, exec c s = .next t ∧ Deed s t := by
  cases c with
  | reset c d => exact ⟨_, rfl, .resets c d⟩
  | startupImageRead => exact ⟨_, rfl, .startupEnds⟩
  | tick => exact ⟨_, rfl, .tick⟩
  | samplePeriod => exact ⟨_, rfl, .sampleBuses⟩
  | beatEdge => exact ⟨_, rfl, .beatEdge⟩
  | lastMarkExpiry => exact ⟨_, rfl, .lastMarkExpiry⟩
  | lostDeadline => exact ⟨_, rfl, .lostDeadline⟩
  | saveDone e => exact ⟨_, rfl, .saveEnds e⟩
  | loadDone => exact ⟨_, rfl, .loadEnds⟩
  | holdExpiry l => exact ⟨_, rfl, .holdExpiry l⟩
  | telegramDiscard l e =>
    cases e with
    | byte b => exact ⟨_, rfl, .lineByte l b⟩
    | badStop => exact ⟨_, rfl, .badStop l⟩
  | gapDeadline l => exact ⟨_, rfl, .gapDeadline l⟩
  | telegramSent l => exact ⟨_, rfl, .telegramSent l⟩
  | detectFall l => exact ⟨_, rfl, .detectFalls l⟩
  | detectRise l => exact ⟨_, rfl, .detectRises l⟩
  | pulseDeadline => exact ⟨_, rfl, .pulse⟩
  | resyncAllOff x => exact ⟨_, rfl, .resyncAllOff x⟩
  | resyncReplay x => exact ⟨_, rfl, .resyncReplay x⟩
  | resyncJoined x => exact ⟨_, rfl, .resyncJoined x⟩
  | activeSensing i => exact ⟨_, rfl, .midiByte i _⟩
  | sensingDeadline i => exact ⟨_, rfl, .sensingLoss i⟩
  | inputFramingError i => exact ⟨_, rfl, .framingError i⟩
  | systemExclusive i d => exact ⟨_, rfl, .midiBytes i _⟩
  | systemCommon i m => exact ⟨_, rfl, .midiBytes i _⟩
  | realTimeDiscard i b => exact ⟨_, rfl, .midiByte i _⟩
  | noteOn i c _ _ | noteOff i c _ _ | sustainChange i c _ | allNotesOff i c _ | channelMessageDiscard i c _
  | controlChange i c _ _ | channelPressure i c _ | pitchBend i c _ _ | programChange i c _ =>
    exact ⟨_, rfl, .message i c _⟩
  | filterExpiry k => exact ⟨_, rfl, .slotExpiry k⟩
  | forwardTimeExpiry k => exact ⟨_, rfl, .forwardTimeExpiry k⟩
  | outputByteSent o => exact ⟨_, rfl, .outputByteSent o⟩
  | outputDisabled o => exact ⟨_, rfl, .outputDrained o⟩
  | partialMessageByte i b => exact ⟨_, rfl, .midiByte i b⟩
  | linkByte l b => exact ⟨_, rfl, .lineByte l b⟩
  | _ => exact ⟨_, rfl, .telegram _ _ _⟩

theorem deed_of_exec {c : Instr} {s t : State} (h : exec c s = .next t) : Deed s t := by
  obtain ⟨u, hu, d⟩ := exec_deed c s
  rw [hu] at h
  exact Host.Outcome.next.inj h ▸ d

/-- What every deed and the passing of a microsecond keep, and the model's own counts do not touch, every step keeps. -/
theorem step_keeps {P : State → Prop} (queue : ∀ s q, P s → P { s with pending := q }) (choose : ∀ s, P s → P s.choose)
    (time : ∀ s, P s → P s.advance) (deed : ∀ s t, Deed s t → P s → P t) {s t : State} (hs : P s)
    (h : step s = .next t) : P t := by
  unfold step at h
  split at h
  · exact deed _ _ (deed_of_exec h) (queue _ _ hs)
  · unfold State.idle at h
    split at h
    · exact Host.Outcome.next.inj h ▸ time s hs
    · exact deed _ _ (deed_of_exec h) hs
    · exact deed _ _ (deed_of_exec h) (choose _ hs)

end Sys2Proof.Machine
end

section
/-! PROOFS. No step leaves the safe states, and the state after a reset is one that the invariants allow. -/

namespace Sys2Proof.Machine

theorem State.outputDrained_keeps (s : State) (o : OutPort) : Keeps s (s.outputDrained o) := by
  unfold State.outputDrained
  split
  · exact keeps_of s _ s.st s.ready s.micros
  · exact Keeps.refl s

/-- Every deed but a reset keeps the engine, the watch and the Fault Log as the manual promises; a reset brings them
there. -/
theorem Deed.safe {s t : State} (d : Deed s t) (h : s.safe = true) : t.safe = true := by
  cases d with
  | resets c d => exact (s.resets_safe c d).1
  | startupEnds => exact s.startupEnds_keeps.safe h
  | tick => exact s.tick_whole.keeps.safe h
  | sampleBuses => exact s.sampleBuses_whole.keeps.safe h
  | beatEdge => exact (s.markFrom_whole .line).keeps.safe h
  | lastMarkExpiry => exact s.lastMarkExpiry_whole.keeps.safe h
  | lostDeadline => exact s.lostDeadline_whole.keeps.safe h
  | telegram l k p => exact (s.telegram_keeps l k p).safe h
  | saveEnds e => exact (s.saveEnds_keeps e).safe h
  | loadEnds => exact s.loadEnds_keeps.safe h
  | holdExpiry l => exact (s.holdExpiry_keeps l).safe h
  | lineByte l b => exact (s.lineByte_keeps l b).safe h
  | badStop l => exact (s.badStop_keeps l).safe h
  | gapDeadline l => exact (s.gapDeadline_keeps l).safe h
  | telegramSent l => exact (s.telegramSent_keeps l).safe h
  | detectFalls l => exact (s.detectFalls_keeps l).safe h
  | detectRises l => exact (s.detectRises_keeps l).safe h
  | pulse => exact s.pulse_whole.keeps.safe h
  | resyncAllOff x => exact (s.resyncAllOff_whole x).keeps.safe h
  | resyncReplay x => exact (s.resyncReplay_whole x).keeps.safe h
  | resyncJoined x => exact (s.resyncJoined_whole x).keeps.safe h
  | message i c m => exact (s.messageArrives_portsOnly i c m).whole.keeps.safe h
  | midiByte i b => exact (s.midiByte_portsOnly i b).whole.keeps.safe h
  | midiBytes i bs => exact (s.midiBytes_portsOnly i bs).whole.keeps.safe h
  | sensingLoss i => exact (s.sensingLoss_portsOnly i).whole.keeps.safe h
  | framingError i => exact (s.framingError_portsOnly i).whole.keeps.safe h
  | slotExpiry k => exact (s.slotExpiry_routerOnly k).whole.keeps.safe h
  | forwardTimeExpiry k => exact (s.forwardTimeExpiry_routerOnly k).whole.keeps.safe h
  | outputByteSent o => exact (keeps_of s _ s.st s.ready s.micros).safe h
  | outputDrained o => exact (s.outputDrained_keeps o).safe h

/-- Settles O6: a step is a deed or the passing of a microsecond, and each keeps the safe states. -/
theorem everyStepKeepsTheSafetyInvariant : Obligations.EveryStepKeepsTheSafetyInvariant :=
  fun _ _ hs h =>
    step_keeps (P := fun u => u.safe = true) (fun _ _ k => k) (fun _ k => k) (fun u => u.advance_keeps.safe)
      (fun _ _ d => d.safe) hs h

/-- Settles O5: each part of the state after a reset is a closed value. -/
theorem resetMeetsTheInvariants : Obligations.ResetMeetsTheInvariants := by
  unfold Obligations.ResetMeetsTheInvariants
  decide

/-- Settles O3: the blocks without ports are read off, and those with ports are read port by port. -/
theorem resetValues : Obligations.ResetValues := by
  refine ⟨rfl, fun n => rfl, ?_, ?_, ?_, rfl, fun n => ⟨rfl, rfl, rfl⟩, rfl, rfl, rfl, rfl, rfl, rfl, rfl, rfl, rfl, rfl,
    rfl, rfl, ?_, ?_, rfl, rfl, rfl, rfl, rfl, rfl, rfl, rfl, rfl⟩
  · intro b; cases b <;> rfl
  · intro i; cases i <;> rfl
  · intro o; cases o <;> rfl
  · intro l; cases l <;> rfl
  · intro x; cases x <;> rfl

end Sys2Proof.Machine
end

section
/-! PROOFS. A ramp's line (R7): the tempo at a tick is its start and a whole quotient of the way to its target. -/

namespace Sys2Proof.Machine

/-- Upward, the tempo at k is T0 and the whole part of the way. -/
theorem Ramp.tempoAt_up {r : Ramp} (h : r.t0 ≤ r.t1) (k : Nat) : r.tempoAt k = r.t0 + (r.t1 - r.t0) * k / r.len := by
  have hway : ((r.t1 : Int) - r.t0) * k = ((r.t1 - r.t0) * k : Nat) := by push_cast [Nat.cast_sub h]; ring
  rw [Ramp.tempoAt, hway, ← Int.ofNat_tdiv, ← Nat.cast_add, Int.toNat_natCast]

/-- Downward, the tempo at k is T0 less the whole part of the way. -/
theorem Ramp.tempoAt_down {r : Ramp} (h : r.t1 ≤ r.t0) (k : Nat) : r.tempoAt k = r.t0 - (r.t0 - r.t1) * k / r.len := by
  have hway : ((r.t1 : Int) - r.t0) * k = -((r.t0 - r.t1) * k : Nat) := by push_cast [Nat.cast_sub h]; ring
  rw [Ramp.tempoAt, hway, Int.neg_tdiv, ← Int.ofNat_tdiv, ← sub_eq_add_neg, Int.toNat_sub]

/-- The whole part of a way of `d` at `k` of `n`: not past the way, and the greatest that falls short of the line. -/
theorem way_bounds (d : Nat) {k n : Nat} (hn : 0 < n) (hk : k ≤ n) :
    d * k / n ≤ d ∧ d * k / n * n ≤ d * k ∧ d * k < (d * k / n + 1) * n :=
  ⟨Nat.div_le_of_le_mul (by nlinarith), Nat.div_mul_le_self _ _, (Nat.div_lt_iff_lt_mul hn).1 (Nat.lt_succ_self _)⟩

/-- Settles O21: both directions are the quotient of `way_bounds`, from T0 up or down. -/
theorem rampNeverLeavesItsLine : Obligations.RampNeverLeavesItsLine := by
  intro r k hlen hk
  refine ⟨fun h => ?_, fun h => ?_, ?_, ?_⟩
  · obtain ⟨hd, hlow, hhigh⟩ := way_bounds (r.t1 - r.t0) hlen hk
    rw [Ramp.tempoAt_up h, Nat.add_sub_cancel_left]
    exact ⟨Nat.le_add_right _ _, Nat.add_le_of_le_sub' h hd, hlow, hhigh⟩
  · obtain ⟨hd, hlow, hhigh⟩ := way_bounds (r.t0 - r.t1) hlen hk
    rw [Ramp.tempoAt_down h, Nat.sub_sub_self (hd.trans (Nat.sub_le _ _))]
    exact ⟨Nat.le_sub_of_add_le' (Nat.add_le_of_le_sub h hd), Nat.sub_le _ _, hlow, hhigh⟩
  · simp [Ramp.tempoAt]
  · rcases Nat.le_total r.t0 r.t1 with h | h
    · rw [Ramp.tempoAt_up h, Nat.mul_div_cancel _ hlen]; omega
    · rw [Ramp.tempoAt_down h, Nat.mul_div_cancel _ hlen]; omega

end Sys2Proof.Machine
end

section
/-! PROOFS. The requests of the Tempo Engine that set tempo, ramp, meter and follower (R5, R6, R8, R17). -/

namespace Sys2Proof.Machine

/-! ## Numbers in a payload -/

@[simp] theorem byteAt_byte_cons {n : Nat} (h : n < 256) (r : List Byte) : byteAt (byte n :: r) 0 = n := by
  simp [byteAt, byte, Nat.mod_eq_of_lt h]

@[simp] theorem byteAt_be16_append {b : Nat} (h : b < 256) (n : Nat) : byteAt (be16 n ++ [byte b]) 2 = b := by
  simp [byteAt, be16, byte, Nat.mod_eq_of_lt h]

@[simp] theorem wordAt_be16_append {n : Nat} (h : n < 65536) (r : List Byte) : wordAt (be16 n ++ r) 0 = n := by
  simp [wordAt, byteAt, be16, byte]; omega

@[simp] theorem wordAt_be16 {n : Nat} (h : n < 65536) : wordAt (be16 n) 0 = n := by
  simpa using wordAt_be16_append h []

theorem within_ok {lo hi n : Nat} (h1 : lo ≤ n) (h2 : n ≤ hi) (o : Nat) : within lo hi n o = .ok n := by
  simp [within, field, h1, h2]

theorem within_error {lo hi n : Nat} (h : n < lo ∨ hi < n) (o : Nat) : within lo hi n o = .error ⟨o, none⟩ := by
  have : ¬(lo ≤ n ∧ n ≤ hi) := by omega
  simp [within, field, this]

theorem FollowState.holdsTempo_iff (f : FollowState) : f.holdsTempo = true ↔ f ≠ .free := by
  cases f <;> simp [FollowState.holdsTempo]

theorem clampTempo_eq (n : Nat) : clampTempo n = max 3000 (min 30000 n) := rfl

theorem doneOr_changed (a b : Nat) : doneOr (decide (a ≠ b)) = if a = b then .done else .clamped := by
  by_cases h : a = b <;> simp [doneOr, h]

/-! ## Tempo -/

/-- Settles O23: the checks of each request in order, then `setTempo` or `rampTempo` on the state that has answered. -/
theorem setTempoAndRampTempoAct : Obligations.SetTempoAndRampTempoAct := by
  intro s l n hn
  refine ⟨fun ht => ?_, fun b hb ht => ?_⟩
  · have hx := exec_of_takes (i := .setTempo l (be16 n)) rfl ht
    refine ⟨fun hf => ?_, fun hf => ?_⟩
    · have hh := (FollowState.holdsTempo_iff _).2 hf
      rw [hx]
      simp [State.perform, State.reqSetTempo, hh]
    · have hh : s.te.follow.holdsTempo = false := by rw [hf]; rfl
      rw [hx]
      simp only [State.perform, State.reqSetTempo, State.heard_te, hh, wordAt_be16 hn, doneOr_changed, State.heard_reply,
        clampTempo_eq, State.setTempo, State.answered_te]
      by_cases hs : s.te.tempo = max 3000 (min 30000 n) ∧ s.te.ramp = none
      · simp [hs, State.withTe]
      · have : s.te.tempo ≠ max 3000 (min 30000 n) ∨ s.te.ramp ≠ none := by tauto
        simp [hs, this, State.withTe, State.tempoNotice, hf]
  · have hx := exec_of_takes (i := .rampTempo l (be16 n ++ [byte b])) rfl ht
    refine ⟨fun hf => ?_, fun hf hr => ?_, fun hf h1 h2 => ?_⟩
    · have hh := (FollowState.holdsTempo_iff _).2 hf
      rw [hx]
      simp [State.perform, State.reqRampTempo, hh]
    · have hh : s.te.follow.holdsTempo = false := by rw [hf]; rfl
      rw [hx]
      simp [State.perform, State.reqRampTempo, hh, hb, within_error (lo := 1) (hi := 64) (n := b) (by omega)]
      rfl
    · have hh : s.te.follow.holdsTempo = false := by rw [hf]; rfl
      rw [hx]
      simp only [State.perform, State.reqRampTempo, State.heard_te, hh, wordAt_be16_append hn, byteAt_be16_append hb,
        within_ok h1 h2, doneOr_changed, State.heard_reply, clampTempo_eq, State.rampTempo, State.answered_te,
        State.answered_ticking]
      refine ⟨fun hk => ?_, fun hk => ?_⟩
      · simp [hk, State.withTe, State.tempoNotice, hf]
      · simp [hk, State.withTe, State.tempoNotice, hf]

/-! ## Meter and follower -/

theorem sourceOf_code (src : FollowSource) : sourceOf src.code = some src := by cases src <;> rfl

theorem sourceOf_none {b : Nat} (h : 3 ≤ b) : sourceOf b = none := by
  unfold sourceOf
  split <;> simp_all

/-- SET_FOLLOW with the code of a source. -/
theorem State.reqSetFollow_code (s : State) (l : Link) (src : FollowSource) :
    s.reqSetFollow l [byte src.code] =
      if s.te.source = src then s.reply l .setFollow .already else (s.reply l .setFollow .done).setFollow src := by
  have hb : src.code < 256 := by cases src <;> decide
  simp [State.reqSetFollow, hb, sourceOf_code, field]

/-- Settles O24: SET_METER by its range, SET_FOLLOW by the source its byte names. -/
theorem setMeterAndSetFollowAct : Obligations.SetMeterAndSetFollowAct := by
  intro s l b hb
  refine ⟨fun ht => ?_, fun ht => ?_⟩
  · have hx := exec_of_takes (i := .setMeter l [byte b]) rfl ht
    refine ⟨fun hr => ?_, fun h1 h2 => ?_⟩
    · rw [hx]
      simp [State.perform, State.reqSetMeter, hb, within_error (lo := 1) (hi := 16) (n := b) (by omega)]
      rfl
    · rw [hx]
      simp only [State.perform, State.reqSetMeter, byteAt_byte_cons hb, within_ok h1 h2, State.heard_reply, State.setMeter,
        State.answered_ticking, State.answered_te]
      split <;> rfl
  · have hx := exec_of_takes (i := .setFollow l [byte b]) rfl ht
    have hset : ∀ src, b = src.code → s.te.source ≠ src →
        exec (.setFollow l [byte b]) s = .next ((s.answered l .setFollow .done []).setFollow src) := by
      intro src hs hne
      subst hs
      rw [hx]
      simp [State.perform, State.reqSetFollow_code, hne]
    refine ⟨fun hr => ?_, fun hs => ?_, fun h0 hne => ?_, fun src hsrc hs hne => ?_⟩
    · rw [hx]
      simp [State.perform, State.reqSetFollow, hb, sourceOf_none hr, field]
      rfl
    · subst hs
      rw [hx]
      simp [State.perform, State.reqSetFollow_code]
    · rw [hset .none h0 hne]
      rfl
    · rw [hset src hs hne]
      rcases hsrc with rfl | rfl <;> rfl

end Sys2Proof.Machine
end

section
/-! PROOFS. The requests that move the transport: START, STOP and LOCATE (R10, R12 to R14, R139, R140). -/

namespace Sys2Proof.Machine

theorem Transport.ticking_iff (t : Transport) : t.ticking = true ↔ t ≠ .stopped := by cases t <;> simp [Transport.ticking]

theorem State.ticking_iff (s : State) : s.ticking = true ↔ s.te.transport ≠ .stopped := s.te.transport.ticking_iff

theorem State.loading_iff (s : State) : s.loading = true ↔ s.st.op = .loading := decide_eq_true_iff

/-! ## START -/

/-- Settles O26: BUSY, STATE, or the run that `startTransport` begins on the state that has answered. -/
theorem startBeginsTheRun : Obligations.StartBeginsTheRun := by
  intro s l ht
  have hx := exec_of_takes (i := .start l []) rfl ht
  refine ⟨fun hl => ?_, fun hl hs => ?_, fun hl hs => ?_⟩
  · rw [hx]
    simp [State.perform, State.reqStart, (s.loading_iff).2 hl]
  · have hn : s.loading = false := by rw [← Bool.not_eq_true, State.loading_iff]; exact hl
    rw [hx]
    simp [State.perform, State.reqStart, hn, hs]
  · have hn : s.loading = false := by rw [← Bool.not_eq_true, State.loading_iff]; exact hl
    rw [hx]
    simp only [State.perform, State.reqStart, State.heard_loading, hn, State.heard_te, hs, State.heard_reply,
      State.startTransport, TempoEngine.started, State.answered_te, ← Bool.decide_and]
    cases decide (0 < s.te.countIn ∧ s.te.pos.bar = 1)
    · simp [State.beatBytes, State.transportNotice, (State.broadcast_linksOnly _ _ _).te, State.withTe,
        State.handRealTime, clockByte, startByte]
    · simp [State.beatBytes, State.transportNotice, (State.broadcast_linksOnly _ _ _).te, State.withTe,
        State.handRealTime, clockByte]

/-! ## STOP -/

/-- STOP(NOW) while ticking, with the engine's values written out (R12). -/
theorem State.stopNow_eq {s : State} (h : s.ticking = true) :
    s.stopNow =
      let te : TempoEngine := { s.te with
        transport := .stopped, pos := ⟨if s.te.transport = .counting then 1 else s.te.pos.bar, 1, 0⟩, acc := 0, clockCount := 0,
        tickOwed := false, tempo := (s.te.ramp.map Ramp.t1).getD s.te.tempo, ramp := none, segue := none,
        meter := s.te.pendingMeter.getD s.te.meter, pendingMeter := none }
      let u : State := State.handRealTime { s with te := te, cs := { s.cs with goPending := false, segue := none } } 0xFC#8
      State.broadcast (if s.te.ramp.isSome then u.broadcastQuiet Mask.tempo (.tempo te.tempo none te.source te.follow) else u)
        Mask.transport (.transport .stopped te.pos te.meter te.tempo) := by
  simp only [State.stopNow, h, if_true, State.stopNotices]
  split
  · simp only [State.transportNotice, (State.tempoNotice_linksOnly _).te]
    rfl
  · rfl

/-- Settles O27: both stops by the transport state they find. -/
theorem stopsEndTheRun : Obligations.StopsEndTheRun := by
  intro s l stopped
  refine ⟨fun ht => ?_, fun ht => ?_⟩
  · have hx := exec_of_takes (i := .stopNow l []) rfl ht
    have hp : (s.heard l).perform l .stop [0] = (s.heard l).reqStopNow l := rfl
    rw [hx, hp]
    refine ⟨fun hk => ?_, fun hk => ?_⟩
    · have hs := State.stopNow_eq (s := s.answered l .stop .done []) hk
      simp only [State.reqStopNow, State.heard_ticking, hk, if_true, State.heard_reply, hs]
      rfl
    · simp [State.reqStopNow, hk]
  · have hx := exec_of_takes (i := .stopAtBar l []) rfl ht
    have hp : (s.heard l).perform l .stop [1] = (s.heard l).reqStopAtBar l := rfl
    rw [hx, hp]
    refine ⟨fun hk => ?_, fun hk => ?_, fun hk => ?_, fun hk => ?_⟩
    · simp [State.reqStopAtBar, hk, State.stopAtBar, State.transportNotice, State.withTe]
    · have hs := State.stopNow_eq (s := s.answered l .stop .done []) ((State.ticking_iff _).2 (by simp [hk]))
      simp only [State.reqStopAtBar, State.heard_te, hk, State.heard_reply, State.stopAtBar, State.answered_te, hs]
      simp only [stopped, hk]
      rfl
    · simp [State.reqStopAtBar, hk]
    · simp [State.reqStopAtBar, hk]

/-! ## LOCATE -/

/-- Dropping the current cue leaves the sequencer's tables and place (R124). -/
theorem State.dropCurrent_cs (s : State) : s.dropCurrent.cs =
    { s.cs with current := none, chained := false, leadSent := false, latchedNext := none, goPending := false } := by
  unfold State.dropCurrent
  simp only [State.withCs_cs]
  split
  · split
    · rw [(s.withdraw_routerOnly _).cs]
    · rfl
  · rfl

theorem State.dropCurrent_of_none {s : State} (h : s.cs.current = none) : s.dropCurrent = { s with cs := { s.cs with
    current := none, chained := false, leadSent := false, latchedNext := none, goPending := false } } := by
  simp [State.dropCurrent, h, State.withCs]

theorem State.chase_idle {s : State} (h : s.cs.state = .idle) (n : Nat) : s.chase n = s := if_pos h

/-- The chase in a song without a first cue, or in no song, ends it (R139). -/
theorem State.chase_unstarted {s : State} (h : s.cs.state ≠ .idle)
    (hf : ∀ k g, s.cs.song = some k → Table.look s.cs.songs k = some g → g.firstCue = none) (n : Nat) :
    s.chase n = s.dropCurrent.endSong := by
  have hfirst : (s.cs.song.bind (Table.look s.cs.songs)).bind Song.firstCue = none := by
    simp only [Option.bind_eq_none_iff, Option.bind_eq_some_iff]
    rintro g ⟨k, hk, hg⟩
    exact hf k g hk hg
  simp [State.chase, h, State.dropCurrent_cs, hfirst]

/-- The chase in a song with a first cue: walk, fault, chosen cues, stopping cue (R139, R140). -/
theorem State.chase_started {s : State} (h : s.cs.state ≠ .idle) {k m : Nat} {g : Song} (hk : s.cs.song = some k)
    (hg : Table.look s.cs.songs k = some g) (hm : g.firstCue = some m) (n : Nat) :
    s.chase n =
      let w := walk s.cs.cues n 64 m true []
      let v : State := match w.fault with
        | some f => s.dropCurrent.report f none
        | none => s.dropCurrent
      match w.stop with
      | some j => (v.chaseCues w.chosen).becomeCurrent j false none
      | none => (v.chaseCues w.chosen).endSong := by
  have hfirst : (s.cs.song.bind (Table.look s.cs.songs)).bind Song.firstCue = some m := by simp [hk, hg, hm]
  simp only [State.chase, h, if_false, State.dropCurrent_cs, hfirst]
  cases (walk s.cs.cues n 64 m true []).stop <;> rfl

/-- Settles O28: RANGE, STATE, or the located bar, handed to the chase. -/
theorem locateMovesTheStoppedPosition : Obligations.LocateMovesTheStoppedPosition := by
  intro s l n hn ht u
  have hx := exec_of_takes (i := .locate l (be16 n)) rfl ht
  have hcs : u.cs = s.cs := (State.broadcast_linksOnly _ _ _).cs
  refine ⟨fun hr => ?_, fun h1 h2 hs => ?_, fun h1 h2 hs => ⟨?_, fun hi => ?_, fun hi hc hf => ?_, fun hi hf => ?_,
    fun k g m hi hk hg hm => ?_⟩⟩
  · rw [hx]
    simp [State.perform, State.reqLocate, hn, within_error (lo := 1) (hi := 9999) (n := n) (by omega)]
    rfl
  · rw [hx]
    simp [State.perform, State.reqLocate, hn, within_ok h1 h2, hs]
  · rw [hx]
    simp [State.perform, State.reqLocate, hn, within_ok h1 h2, hs, State.locate, State.transportNotice, State.withTe, u]
  · exact State.chase_idle (by rw [hcs]; exact hi) n
  · rw [State.chase_unstarted (by rw [hcs]; exact hi) (by rw [hcs]; exact hf),
      State.dropCurrent_of_none (by rw [hcs]; exact hc), ← hcs]
    rfl
  · exact State.chase_unstarted (by rw [hcs]; exact hi) (by rw [hcs]; exact hf) n
  · have hw := State.chase_started (s := u) (by rw [hcs]; exact hi) (by rw [hcs]; exact hk) (by rw [hcs]; exact hg) hm n
    rw [hcs] at hw
    rw [hw]
    rfl

end Sys2Proof.Machine
end

section
/-! PROOFS. Ticks, and beat and bar events, as the engine takes them (R2, R3, R7, R15, R22, R23). -/

namespace Sys2Proof.Machine

/-! ## The accumulator -/

/-- The least number of additions that reaches M, and what is left over (R2). -/
theorem accAtTick_least {acc tempo : Nat} (ha : acc < 12500000) (ht : 0 < tempo) :
    ∃ n, 1 ≤ n ∧ accAtTick acc tempo + 12500000 = acc + n * tempo ∧ acc + (n - 1) * tempo < 12500000 := by
  have hsum : 12500000 - acc + (tempo - 1) = (12500000 - acc - 1) + tempo := by omega
  have hq : (12500000 - acc + (tempo - 1)) / tempo = (12500000 - acc - 1) / tempo + 1 := by
    rw [hsum, Nat.add_div_right _ ht]
  have hlow := Nat.div_mul_le_self (12500000 - acc - 1) tempo
  have hhigh : 12500000 - acc - 1 < ((12500000 - acc - 1) / tempo + 1) * tempo :=
    (Nat.div_lt_iff_lt_mul ht).1 (Nat.lt_succ_self _)
  have hacc : accAtTick acc tempo = acc + ((12500000 - acc - 1) / tempo + 1) * tempo - 12500000 := by
    simp only [accAtTick, Config.modulus, hq]
    rw [Nat.max_eq_right (Nat.le_add_left 1 _)]
  refine ⟨(12500000 - acc - 1) / tempo + 1, Nat.le_add_left 1 _, ?_, ?_⟩
  · rw [hacc]; omega
  · rw [Nat.add_sub_cancel]; omega

/-! ## Ramp steps and ticks -/

/-- A ramp step moves the engine's tempo and ramp and offers notices; the position and q stay (R7). -/
theorem State.rampStep_linksOnly (s : State) :
    ∃ te : TempoEngine, LinksOnly (s.withTe te) s.rampStep ∧ te.pos = s.te.pos ∧ te.clockCount = s.te.clockCount := by
  unfold State.rampStep
  split
  · exact ⟨s.te, LinksOnly.refl s, rfl, rfl⟩
  · simp only
    split
    · exact ⟨_, State.tempoNotice_linksOnly _, rfl, rfl⟩
    · exact ⟨_, LinksOnly.refl _, rfl, rfl⟩

/-- The state after a ramp step with its values written out (R7). -/
theorem State.rampStep_eq (s : State) : s.rampStep =
    match s.te.ramp with
    | none => s
    | some r =>
      if r.len ≤ r.prog + 1 then
        State.broadcastQuiet { s with te := { s.te with tempo := r.t1, ramp := none } } Mask.tempo
          (.tempo r.t1 none s.te.source s.te.follow)
      else { s with te := { s.te with tempo := r.tempoAt (r.prog + 1), ramp := some { r with prog := r.prog + 1 } } } := by
  unfold State.rampStep
  cases s.te.ramp <;> rfl

/-- A tick that is no beat event: subdivisions and the clock byte where it is due (R3, R22, R33). -/
theorem State.tickOccurs_below {s : State} (h : s.te.pos.tick + 1 < 480) :
    s.tickOccurs = ((s.rampStep.withTe { s.rampStep.te with pos := { s.te.pos with tick := s.te.pos.tick + 1 } }).clickTick
      (s.te.pos.tick + 1)).tickBytes (s.te.pos.tick + 1) := by
  obtain ⟨te, hl, hp, -⟩ := s.rampStep_linksOnly
  have hpos : s.rampStep.te.pos = s.te.pos := by rw [hl.te]; exact hp
  simp only [State.tickOccurs, hpos]
  rw [if_neg (by omega)]

theorem State.tickOccurs_at {s : State} (h : 480 ≤ s.te.pos.tick + 1) : s.tickOccurs = s.rampStep.beatOccurs := by
  obtain ⟨te, hl, hp, -⟩ := s.rampStep_linksOnly
  have hpos : s.rampStep.te.pos = s.te.pos := by rw [hl.te]; exact hp
  simp only [State.tickOccurs, hpos]
  rw [if_pos h]

/-- Settles O29: the ramp step, then the tick or the beat event. -/
theorem tickMovesTheEngineOn : Obligations.TickMovesTheEngineOn := by
  refine ⟨fun s hk => ?_, fun s hk => ?_, fun acc tempo ha ht _ => accAtTick_least ha ht⟩
  · show Host.Outcome.next s.tick = _
    rw [State.tick, hk]
    rfl
  · intro acc te0 u t te1
    have htick : exec .tick s = .next (s.withTe te0).tickOccurs := by
      show Host.Outcome.next s.tick = _
      rw [State.tick, hk, if_pos rfl]
    have hu : (s.withTe te0).rampStep = u := State.rampStep_eq _
    obtain ⟨te, hl, hp, hc⟩ := (s.withTe te0).rampStep_linksOnly
    rw [hu] at hl
    have hck : u.ck = s.ck := hl.ck
    have hop : u.op = s.op := hl.op
    have hnow : u.now = s.now := hl.now
    have hcount : u.te.clockCount = s.te.clockCount := by rw [hl.te]; exact hc
    have hbelow : t < 480 → exec .tick s = .next (((u.withTe te1).clickTick t).tickBytes t) := fun h => by
      rw [htick, State.tickOccurs_below (s := s.withTe te0) h, hu]
      rfl
    refine ⟨fun h1 h2 h3 => ?_, fun h1 h2 => ?_, fun h1 => ?_⟩
    · have hdue : t % 20 = 0 ∧ te1.clockCount ≤ t / 20 := ⟨h2, by rw [show te1.clockCount = s.te.clockCount from hcount]; exact h3⟩
      rw [hbelow h1, State.tickBytes, ← hnow]
      simp only [State.clickTick, State.withTe, hdue, and_self, if_true, State.handRealTime, hop, hck]
      rfl
    · have hdue : ¬(t % 20 = 0 ∧ te1.clockCount ≤ t / 20) := by
        rw [show te1.clockCount = s.te.clockCount from hcount]; omega
      rw [hbelow h1, State.tickBytes]
      simp only [State.clickTick, State.withTe, if_neg hdue, hck]
    · rw [htick, State.tickOccurs_at (s := s.withTe te0) h1, hu]

end Sys2Proof.Machine
end

section
/-! PROOFS. How a beat event is handed to the blocks (R4), and what the Layer Router and the Cue Sequencer make of it (R67,
R74, R125, R126, R137). -/

namespace Sys2Proof.Machine

/-! ## The order of the blocks -/

theorem shuffle_perm {α : Type} : ∀ (k n : Nat) (l : List α), (shuffle k n l).Perm l
  | 0, _, l => List.Perm.refl l
  | k + 1, n, l => by
    unfold shuffle
    split
    · exact List.Perm.refl l
    · next x hx =>
      obtain ⟨hlt, rfl⟩ := List.getElem?_eq_some_iff.1 hx
      exact ((shuffle_perm k _ _).cons _).trans (List.getElem_cons_eraseIdx_perm hlt)

/-- No staging falls due at a beat event, a bar event where `bar` says so (R67). -/
def State.NoneDue (s : State) (bar : Bool) : Prop :=
  ∀ g, s.lr.staged = some g → g.point ≠ .nextBeat ∧ (bar = true → g.point ≠ .nextBar)

theorem State.orderMatters_eq_false {s : State} {ev : BeatEvent} (hw : s.cs.state ≠ .waiting)
    (hs : ev.isBar = true → s.cs.segue = none) (hg : s.NoneDue ev.isBar) : s.orderMatters ev = false := by
  have hbar : (ev.isBar && s.cs.segue.isSome) = false := by
    cases hb : ev.isBar
    · rfl
    · simp [hs hb]
  unfold State.orderMatters
  rw [hbar, decide_eq_false hw]
  cases hst : s.lr.staged with
  | none => rfl
  | some g =>
    obtain ⟨h1, h2⟩ := hg g hst
    cases hb : ev.isBar
    · simp [h1]
    · simp [h1, h2 hb]

/-! ## The Layer Router -/

/-- A claim that waits for an EMPTY staged map is staged (R71). -/
theorem State.settleClaim_eq_emptied {s : State} (h : s.lr.staged = none) : s.settleClaim = s.emptied := by
  have hlr : s.lr = { s.lr with staged := none } := by rw [← h]
  unfold State.settleClaim State.emptied
  cases hc : s.lr.claim with
  | none =>
    have hlr' : s.lr = { s.lr with staged := none, claim := none } := by rw [← h, ← hc]
    simp only [h, Option.map_none]
    rw [← hlr']
  | some c => simp only [h]; rfl

theorem State.unstage_eq_emptied (s : State) : s.unstage = s.emptied := State.settleClaim_eq_emptied rfl

/-- The programs of a list are sent one by one (R69). -/
theorem State.sendPrograms_fst (es : List ProgEntry) (s : State) :
    (s.sendPrograms es).1 = es.foldl (fun u e => (u.sendProgram e).1) s := by
  have h : ∀ (es : List ProgEntry) (a : State × Bool),
      (es.foldl (fun a e => let r := a.1.sendProgram e; (r.1, a.2 || r.2)) a).1
        = es.foldl (fun u e => (u.sendProgram e).1) a.1 := by
    intro es
    induction es with
    | nil => intro a; rfl
    | cons e es ih => intro a; exact ih _
  exact h es (s, false)

theorem State.swap_eq_swapped (s : State) (g : Staging) : s.swap g = s.swapped g := by
  rw [State.swap, State.unstage_eq_emptied, State.sendPrograms_fst]
  rfl

theorem State.skip_eq (s : State) (g : Staging) :
    s.skip g = (State.tellsScene { s with lr := { s.lr with staged := none } } .skippedLock g.scene g.origin).emptied := by
  refine State.settleClaim_eq_emptied ?_
  rw [(State.sceneNotice_linksOnly _ _ _ _).lr]

theorem State.routerBeat_of_noneDue {s : State} {bar : Bool} (h : s.NoneDue bar) : s.routerBeat bar = s := by
  unfold State.routerBeat
  split
  · rfl
  · next g hg =>
    obtain ⟨h1, h2⟩ := h g hg
    split
    · exact absurd ‹_› h1
    · next hp =>
      cases bar
      · rfl
      · exact absurd hp (h2 rfl)
    · rfl
    · rfl

theorem State.routerBeat_of_due {s : State} {bar : Bool} {g : Staging} (hg : s.lr.staged = some g)
    (h : g.point = .nextBeat ∨ (bar = true ∧ g.point = .nextBar)) :
    s.routerBeat bar = if s.lr.lock = none then s.swapped g
      else (State.tellsScene { s with lr := { s.lr with staged := none } } .skippedLock g.scene g.origin).emptied := by
  have hr : s.routerBeat bar = s.reachPoint g := by
    unfold State.routerBeat
    rcases h with hp | ⟨rfl, hp⟩ <;> simp [hg, hp]
  rw [hr, State.reachPoint, State.swap_eq_swapped, State.skip_eq]

/-! ## The lead check -/

/-- The lead check of a current cue AT a position (R125). -/
theorem State.leadCheck_at {s : State} {c : Latched} (hc : s.cs.current = some c) {p q : Nat} (ht : c.record.trigger = .at p q) :
    s.leadCheck = if 1 ≤ c.record.lead ∧ s.cs.leadSent = false ∧ beatsRemaining p q s.te.pos s.te.meter ≤ (c.record.lead : Int) then
        State.broadcast { s with cs := { s.cs with leadSent := true } } Mask.cue
          (.cueNear c.cue p q (beatsRemaining p q s.te.pos s.te.meter) c.record.action.code c.record.action.sceneNumber)
      else s := by
  simp only [State.leadCheck, hc, ht]
  rfl

theorem State.leadCheck_of_no_position {s : State} {c : Latched} (hc : s.cs.current = some c)
    (ht : c.record.trigger = .onGo ∨ c.record.trigger = .afterPrevious) : s.leadCheck = s := by
  rcases ht with ht | ht <;> simp only [State.leadCheck, hc, ht]

theorem State.leadCheck_of_none {s : State} (hc : s.cs.current = none) : s.leadCheck = s := by
  simp only [State.leadCheck, hc]

/-- The lead check moves the lead sent mark alone in the sequencer. -/
theorem State.leadCheck_cs (s : State) : ∃ b, s.leadCheck.cs = { s.cs with leadSent := b } := by
  unfold State.leadCheck
  split
  · exact ⟨_, rfl⟩
  · split
    · simp only
      split
      · exact ⟨true, (State.cueNotice_linksOnly _ _).cs⟩
      · exact ⟨_, rfl⟩
    · exact ⟨_, rfl⟩
    · exact ⟨_, rfl⟩

/-! ## The Cue Sequencer at a beat event -/

/-- The sequencer before its lead check: the boundary opened, and at a bar event a segue record applied (R126, R137). -/
def State.boundaryOpened (s : State) (ev : BeatEvent) : State :=
  let u : State := { s with cs := { s.cs with boundary := 0, chained := false } }
  if ev.isBar then u.applySegueRecord (some ⟨ev.bar, ev.beat⟩) else u

/-- The sequencer after its lead check: the current cue fires where the transport runs and `firing` says so (R126). -/
def State.currentFires (t : State) (ev : BeatEvent) : State :=
  if t.cs.state = .waiting ∧ (ev.transport = .running ∨ ev.transport = .stopping) then
    match t.cs.current with
    | none => t
    | some c =>
      match firing t.cs c.record ev.bar ev.beat with
      | some late => t.fire c late ev.closing (some ⟨ev.bar, ev.beat⟩)
      | none => t
  else t

theorem State.sequencerBeat_eq (s : State) (ev : BeatEvent) : s.sequencerBeat ev =
    (if (s.boundaryOpened ev).cs.state = .waiting then (s.boundaryOpened ev).leadCheck else s.boundaryOpened ev).currentFires ev :=
  rfl

theorem State.currentFires_of_not {t : State} {ev : BeatEvent}
    (h : ¬(t.cs.state = .waiting ∧ (ev.transport = .running ∨ ev.transport = .stopping))) : t.currentFires ev = t := if_neg h

theorem State.sequencerBeat_of_not_waiting {s : State} {ev : BeatEvent} (h : (s.boundaryOpened ev).cs.state ≠ .waiting) :
    s.sequencerBeat ev = s.boundaryOpened ev := by
  rw [State.sequencerBeat_eq, if_neg h, State.currentFires_of_not (fun k => h k.1)]

theorem State.sequencerBeat_of_not_running {s : State} {ev : BeatEvent} (h : (s.boundaryOpened ev).cs.state = .waiting)
    (h1 : ev.transport ≠ .running) (h2 : ev.transport ≠ .stopping) :
    s.sequencerBeat ev = (s.boundaryOpened ev).leadCheck := by
  rw [State.sequencerBeat_eq, if_pos h, State.currentFires_of_not (by simp [h1, h2])]

/-- While WAITING with the transport running, the current cue fires behind the lead check where `firing` says so. -/
theorem State.sequencerBeat_of_current {s : State} {ev : BeatEvent} {c : Latched} (h : (s.boundaryOpened ev).cs.state = .waiting)
    (hc : (s.boundaryOpened ev).cs.current = some c) (ht : ev.transport = .running ∨ ev.transport = .stopping) :
    s.sequencerBeat ev =
      match firing (s.boundaryOpened ev).cs c.record ev.bar ev.beat with
      | some late => (s.boundaryOpened ev).leadCheck.fire c late ev.closing (some ⟨ev.bar, ev.beat⟩)
      | none => (s.boundaryOpened ev).leadCheck := by
  obtain ⟨b, hcs⟩ := (s.boundaryOpened ev).leadCheck_cs
  rw [State.sequencerBeat_eq, if_pos h, State.currentFires, hcs, if_pos ⟨h, ht⟩]
  simp only [hc]
  rfl

/-- A segue record applied at a bar event: place and song, both patterns asked for, and the first cue current (R137). -/
theorem State.applySegueRecord_eq {s : State} {g : SegueRecord} (h : s.cs.segue = some g) (pos : Option BarBeat) :
    s.applySegueRecord pos =
      let v : State := { s with
        cs := { s.cs with setPos := some g.pos, song := some g.song, segue := none }
        ck := { s.ck with buses := ⟨(s.bus .band).ask ⟨some g.band, none, none, none, none⟩,
                                    (s.bus .keys).ask ⟨some g.keys, none, none, none, none⟩⟩ } }
      match g.firstCue with
      | none => v
      | some n => v.becomeCurrent n false pos := by
  simp only [State.applySegueRecord, h]
  cases g.firstCue <;> rfl

/-! ## Whether the current cue fires (R126, step 4) -/

section
variable {cs : CueSeq} {c : Cue} {bar : Int} {beat : Nat}

theorem firing_go (h : cs.goPending = true) : firing cs c bar beat = some false := if_pos h

theorem firing_onGo (h : cs.goPending = false) (ht : c.trigger = .onGo) : firing cs c bar beat = none := by
  simp [firing, h, ht]

theorem firing_afterPrevious (h : cs.goPending = false) (ht : c.trigger = .afterPrevious) (hc : cs.chained = false) :
    firing cs c bar beat = some false := by
  simp [firing, h, ht, hc]

theorem firing_before {p q : Nat} (h : cs.goPending = false) (ht : c.trigger = .at p q)
    (hp : bar < p ∨ (bar = p ∧ beat < q)) : firing cs c bar beat = none := by
  have h1 : ¬(bar = (p : Int) ∧ beat = q) := by omega
  have h2 : ¬((p : Int) < bar ∨ ((p : Int) = bar ∧ q < beat)) := by omega
  simp only [firing, h, ht, if_neg h1, if_neg h2]
  rfl

theorem firing_there {p q : Nat} (h : cs.goPending = false) (ht : c.trigger = .at p q) (hp : bar = p) (hq : beat = q) :
    firing cs c bar beat = some false := by
  simp [firing, h, ht, hp, hq]

theorem firing_after {p q : Nat} (h : cs.goPending = false) (ht : c.trigger = .at p q)
    (hp : (p : Int) < bar ∨ (bar = p ∧ q < beat)) : firing cs c bar beat = some true := by
  have h1 : ¬(bar = (p : Int) ∧ beat = q) := by omega
  have h2 : (p : Int) < bar ∨ ((p : Int) = bar ∧ q < beat) := by omega
  simp only [firing, h, ht, if_neg h1, if_pos h2]
  rfl

end

/-! ## A beat event at which nothing falls due -/

/-- With nothing due the blocks take the event one after the other: clicks, the opened boundary, a BEAT notice (R4). -/
theorem State.handOn_of_nothing_due {s : State} {ev : BeatEvent} (hw : s.cs.state ≠ .waiting)
    (hs : ev.isBar = true → s.cs.segue = none) (hg : s.NoneDue ev.isBar) :
    s.handOn ev = State.broadcastQuiet
      { s with ck := { s.ck with buses := s.ck.buses.map (fun x => x.beat s.ck.patterns ev) },
               cs := { s.cs with boundary := 0, chained := false } }
      Mask.beat (.beat ev.bar ev.beat ev.meter s.te.tempo ev.transport) := by
  have hopen : ((s.clickBeat ev).boundaryOpened ev) = { s.clickBeat ev with cs := { s.cs with boundary := 0, chained := false } } := by
    unfold State.boundaryOpened
    split
    · next hb => simp [State.applySegueRecord, State.clickBeat, hs hb]
    · rfl
  have hseq : (s.clickBeat ev).sequencerBeat ev = (s.clickBeat ev).boundaryOpened ev :=
    State.sequencerBeat_of_not_waiting (by rw [hopen]; exact hw)
  have hrouter : (s.clickBeat ev).routerBeat ev.isBar = s.clickBeat ev := State.routerBeat_of_noneDue hg
  rw [State.handOn, State.orderMatters_eq_false hw hs hg, if_neg (by simp)]
  show State.beatNotice (State.sequencerBeat (State.routerBeat (s.clickBeat ev) ev.isBar) ev) _ _ _ _ = _
  rw [hrouter, hseq, hopen]
  rfl

/-- Settles O25: the order, the quiet case, the router's two outcomes, the sequencer's, and the lead check. -/
theorem beatEventIsHandedToEveryBlock : Obligations.BeatEventIsHandedToEveryBlock := by
  intro s ev
  refine ⟨?_, fun hw hs hg => ?_, fun bar => ⟨State.routerBeat_of_noneDue, fun g hg h => State.routerBeat_of_due hg h⟩, ?_,
    State.leadCheck_of_none, fun c hc => ⟨State.leadCheck_of_no_position hc, fun p q ht => State.leadCheck_at hc ht⟩⟩
  · unfold State.handOn
    split
    · exact ⟨_, shuffle_perm _ _ _, .inr rfl⟩
    · exact ⟨_, List.Perm.refl _, .inl rfl⟩
  · exact State.handOn_of_nothing_due hw hs hg
  · intro pos u a
    have ha : s.boundaryOpened ev = a := rfl
    refine ⟨fun h => ?_, fun g h => State.applySegueRecord_eq (s := u) h pos, fun h => ?_, fun h h1 h2 => ?_, fun c h hc ht => ?_⟩
    · simp only [State.applySegueRecord, show u.cs.segue = none from h]
    · rw [State.sequencerBeat_of_not_waiting (ha ▸ h), ha]
    · rw [State.sequencerBeat_of_not_running (ha ▸ h) h1 h2, ha]
    · have hfire := State.sequencerBeat_of_current (ha ▸ h) (ha ▸ hc) ht
      rw [ha] at hfire
      refine ⟨fun hgo => ?_, fun hgo => ⟨fun htr => ?_, fun htr hch => ?_, fun p q htr => ⟨fun hp => ?_, fun hp hq => ?_, fun hp => ?_⟩⟩⟩
      · rw [hfire, firing_go hgo]
      · rw [hfire, firing_onGo hgo htr]
      · rw [hfire, firing_afterPrevious hgo htr hch]
      · rw [hfire, firing_before hgo htr hp]
      · rw [hfire, firing_there hgo htr hp hq]
      · rw [hfire, firing_after hgo htr hp]

end Sys2Proof.Machine
end

section
/-! PROOFS. Beat and bar events (R3, R9, R11, R15, R22, R23) and the closing of a stop at the bar (R13). -/

namespace Sys2Proof.Machine

/-! ## The steps of R3 at a bar event -/

theorem TempoEngine.barStep_of_no_segue {te : TempoEngine} (h : te.segue = none) :
    te.barStep = { te with
      pos := ⟨nextBar te.pos.bar, 1, 0⟩, meter := te.pendingMeter.getD te.meter, pendingMeter := none,
      transport := if te.transport = .counting ∧ nextBar te.pos.bar = 1 then .running else te.transport } := by
  simp only [TempoEngine.barStep, h]

theorem TempoEngine.barStep_of_segue {te : TempoEngine} {g : PendingSegue} (h : te.segue = some g) :
    te.barStep = { te with
      pos := ⟨1, 1, 0⟩, meter := g.meter, pendingMeter := none, countIn := g.countIn, tempo := g.tempo.getD te.tempo,
      ramp := if g.tempo.isSome then none else te.ramp, segue := none,
      transport := if te.transport = .counting then .running else te.transport } := by
  simp [TempoEngine.barStep, h]

/-- The timing bytes of a beat event (R22, R23). -/
theorem State.beatBytes_eq (s : State) (start : Bool) : s.beatBytes start =
    { (if start then s.handRealTime 0xFA#8 else s).handRealTime 0xF8#8 with te := { s.te with clockCount := 1 } } := rfl

/-- The engine's notices at a bar event: TEMPO where a segue changed tempo or ramp, TRANSPORT where the state changed. -/
def State.barNotices (s : State) : State :=
  let te := s.te.barStep
  let u := if s.te.segue.isSome ∧ (te.tempo ≠ s.te.tempo ∨ te.ramp ≠ s.te.ramp) then (s.withTe te).tempoNotice else s.withTe te
  if te.transport ≠ s.te.transport then u.transportNotice else u

theorem State.barNotices_linksOnly (s : State) : LinksOnly (s.withTe s.te.barStep) s.barNotices := by
  unfold State.barNotices
  simp only
  split
  · split
    · exact (State.tempoNotice_linksOnly _).trans (State.transportNotice_linksOnly _)
    · exact State.transportNotice_linksOnly _
  · split
    · exact State.tempoNotice_linksOnly _
    · exact LinksOnly.refl _

/-- The START byte is due at a bar event that ends a count-in or begins the song of a segue (R23). -/
def State.startsSong (s : State) : Bool :=
  decide ((s.te.transport = .counting ∧ s.te.barStep.transport = .running)
    ∨ (s.te.segue.isSome ∧ s.te.barStep.transport = .running))

/-- The bar event that is handed on. -/
def State.barEvent (s : State) (closing : Bool) : BeatEvent :=
  { bar := s.te.barStep.pos.bar, beat := 1, meter := s.te.barStep.meter, transport := s.te.barStep.transport, isBar := true,
    closing := closing }

/-- A bar event of a transport that is not STOPPING (R3). -/
theorem State.beatOccurs_bar {s : State} (hb : s.te.meter ≤ s.te.pos.beat) (h : s.te.transport ≠ .stopping) :
    s.beatOccurs = (s.barNotices.beatBytes s.startsSong).handOn (s.barEvent false) := by
  rw [State.beatOccurs, if_pos hb]
  simp only [decide_eq_false h]
  rfl

/-- A closing event: handed on behind its notices, without timing bytes, and the transport then stops (R3, R13). -/
theorem State.beatOccurs_closing {s : State} (hb : s.te.meter ≤ s.te.pos.beat) (h : s.te.transport = .stopping) :
    s.beatOccurs = (s.barNotices.handOn (s.barEvent true)).close := by
  rw [State.beatOccurs, if_pos hb]
  simp only [decide_eq_true h]
  rfl

theorem State.beatOccurs_beat {s : State} (h : s.te.pos.beat < s.te.meter) :
    s.beatOccurs = State.handOn ((s.withTe { s.te with pos := ⟨s.te.pos.bar, s.te.pos.beat + 1, 0⟩ }).beatBytes false)
      { bar := s.te.pos.bar, beat := s.te.pos.beat + 1, meter := s.te.meter, transport := s.te.transport, isBar := false,
        closing := false } := by
  rw [State.beatOccurs, if_neg (by omega)]

/-- A bar event of a transport that is not STOPPING, once its step, its notices and its START byte are known. -/
theorem State.beatOccurs_bar_of {s u : State} {te : TempoEngine} {start : Bool} (hb : s.te.meter ≤ s.te.pos.beat)
    (h : s.te.transport ≠ .stopping) (hstep : s.te.barStep = te) (hu : s.barNotices = u) (hstart : s.startsSong = start) :
    s.beatOccurs = State.handOn
      { (if start then u.handRealTime 0xFA#8 else u).handRealTime 0xF8#8 with te := { te with clockCount := 1 } }
      { bar := te.pos.bar, beat := 1, meter := te.meter, transport := te.transport, isBar := true, closing := false } := by
  have hte : u.te = te := by rw [← hu, s.barNotices_linksOnly.te, hstep]; rfl
  rw [State.beatOccurs_bar hb h, State.beatBytes_eq, hu, hstart, hte, State.barEvent, hstep]

/-- Settles O30: within the bar, at a bar line without and with a pending segue. -/
theorem beatEventsAdvanceBeatAndBar : Obligations.BeatEventsAdvanceBeatAndBar := by
  intro s
  refine ⟨fun h => ?_, fun hb hs ht => ?_, fun g hb hs ht => ?_⟩
  · rw [State.beatOccurs_beat h]
    rfl
  · intro bar begins te u
    have hne : s.te.transport ≠ .stopping := by rcases ht with ht | ht <;> simp [ht]
    have hstep : s.te.barStep = te := by
      rw [TempoEngine.barStep_of_no_segue hs]
      simp only [te, begins, decide_eq_true_eq]
      rfl
    by_cases hbeg : s.te.transport = .counting ∧ bar = 1
    · have hbegins : begins = true := decide_eq_true hbeg
      have htr : te.transport = .running := if_pos hbegins
      have hu : s.barNotices = (s.withTe te).transportNotice := by
        simp [State.barNotices, hstep, hs, htr, hbeg.1]
      have hstart : s.startsSong = true := by simp [State.startsSong, hstep, htr, hbeg.1]
      rw [State.beatOccurs_bar_of hb hne hstep hu hstart]
      simp only [u, hbegins, if_true, State.transportNotice, State.withTe_te, htr]
      rfl
    · have hbegins : begins = false := decide_eq_false hbeg
      have htr : te.transport = s.te.transport := if_neg (by simp [hbegins])
      have hu : s.barNotices = s.withTe te := by simp [State.barNotices, hstep, hs, htr]
      have hstart : s.startsSong = false := by
        have : ¬(s.te.transport = .counting ∧ te.transport = .running) := by rw [htr]; rintro ⟨h1, h2⟩; simp [h1] at h2
        simp [State.startsSong, hstep, hs, this]
      rw [State.beatOccurs_bar_of hb hne hstep hu hstart]
      simp only [u, hbegins]
      rfl
  · intro te u v
    have hne : s.te.transport ≠ .stopping := by rcases ht with ht | ht <;> simp [ht]
    have hstep : s.te.barStep = te := by
      rw [TempoEngine.barStep_of_segue hs]
      rcases ht with ht | ht <;> simp [ht, te]
    have hstart : s.startsSong = true := by simp [State.startsSong, hstep, hs, te]
    have hute : u.te = te := by
      simp only [u]
      split
      · exact (State.broadcastQuiet_linksOnly _ _ _).te
      · rfl
    have hu : s.barNotices = v := by
      have htempo : (if s.te.segue.isSome ∧ (te.tempo ≠ s.te.tempo ∨ te.ramp ≠ s.te.ramp) then (s.withTe te).tempoNotice
          else s.withTe te) = u := by
        simp only [hs, Option.isSome_some, true_and]
        rfl
      simp only [State.barNotices, hstep, htempo]
      rcases ht with ht | ht
      · simp only [v, ht, if_true, State.transportNotice, hute]
        rfl
      · simp [v, ht, te]
    rw [State.beatOccurs_bar_of hb hne hstep hu hstart]
    rfl

/-! ## The closing of a stop at the bar -/

theorem State.close_of_stopped {s : State} (h : s.te.transport ≠ .stopping) : s.close = s := if_neg h

/-- The end of a closing event (R13, R130, R136): the engine STOPPED with its byte and notices, then the sequencer told. -/
theorem State.close_of_stopping {w : State} (h : w.te.transport = .stopping) :
    let tempo := (w.te.ramp.map Ramp.t1).getD w.te.tempo
    let a : State := State.handRealTime { w with te := { w.te with
      pos := ⟨w.te.pos.bar, 1, 0⟩, transport := .stopped, acc := 0, clockCount := 0, tickOwed := false, tempo := tempo,
      ramp := none, segue := none } } 0xFC#8
    let b : State := if w.te.ramp = none then a
      else a.broadcastQuiet Mask.tempo (.tempo tempo none w.te.source w.te.follow)
    let c : State := b.broadcast Mask.transport (.transport .stopped ⟨w.te.pos.bar, 1, 0⟩ w.te.meter tempo)
    w.close = c.sequencerClosed ∧ c.cs = w.cs := by
  intro tempo a b c
  have hb : b = if w.te.ramp.isSome then a.tempoNotice else a := by
    simp only [b]
    cases w.te.ramp <;> rfl
  have hbl : LinksOnly a b := by
    rw [hb]
    split
    · exact State.tempoNotice_linksOnly _
    · exact LinksOnly.refl _
  have hc : c = State.stopNotices (w.withTe (w.te.stopAt w.te.pos.bar)) w.te.ramp.isSome := by
    show b.broadcast _ _ = State.transportNotice (if w.te.ramp.isSome then a.tempoNotice else a)
    rw [← hb, State.transportNotice, hbl.te]
    rfl
  refine ⟨?_, ((State.broadcast_linksOnly _ _ _).cs.trans hbl.cs)⟩
  rw [State.close, if_pos h, ← hc]

/-- What the sequencer does with the end of a closing event (R130, R136). -/
theorem State.sequencerClosed_of_none {c : State} (h : c.cs.deferred = none) :
    c.sequencerClosed = { c with cs := { c.cs with goPending := false, deferred := none } } := by
  simp [State.sequencerClosed, h, State.withCs]

theorem State.sequencerClosed_of_song {c : State} {p n : Nat} {g : Song} (h : c.cs.deferred = some p)
    (hn : c.cs.setlist[p]? = some n) (hg : Table.look c.cs.songs n = some g) :
    c.sequencerClosed = State.songSelect { c with cs := { c.cs with goPending := false, deferred := none } } p n g none := by
  simp [State.sequencerClosed, h, hn, hg, State.withCs]

theorem State.sequencerClosed_of_no_song {c : State} {p : Nat} (h : c.cs.deferred = some p)
    (hn : ∀ n, c.cs.setlist[p]? = some n → Table.look c.cs.songs n = none) :
    c.sequencerClosed = { c with cs := { c.cs with goPending := false, deferred := none } } := by
  cases hp : c.cs.setlist[p]? with
  | none => simp [State.sequencerClosed, h, hp, State.withCs]
  | some n => simp [State.sequencerClosed, h, hp, hn n hp, State.withCs]

theorem State.stopNotices_linksOnly (s : State) (b : Bool) : LinksOnly (s.handRealTime stopByte) (s.stopNotices b) := by
  unfold State.stopNotices
  cases b
  · exact State.transportNotice_linksOnly _
  · exact (State.tempoNotice_linksOnly _).trans (State.transportNotice_linksOnly _)

/-- The end of a closing event with no deferred select, from a state that has only gained notices since `u`. -/
theorem State.close_noticesOnly {u w : State} (hl : LinksOnly u w) (h : u.te.transport = .stopping) (hd : u.cs.deferred = none) :
    NoticesOnly { u with
        te := u.te.stopAt u.te.pos.bar
        cs := { u.cs with goPending := false }
        op := u.op.map (fun x => x.handRealTime u.now 0xFC#8) } w.close := by
  have hn := State.stopNotices_linksOnly (w.withTe (w.te.stopAt w.te.pos.bar)) w.te.ramp.isSome
  have hcs := hn.cs.trans hl.cs
  have hclose : w.close = { State.stopNotices (w.withTe (w.te.stopAt w.te.pos.bar)) w.te.ramp.isSome with
      cs := { u.cs with goPending := false } } := by
    rw [State.close, if_pos (by rw [hl.te]; exact h), State.sequencerClosed_of_none (by rw [hcs]; exact hd), hcs, ← hd]
  rw [hclose]
  have hop : (w.handRealTime stopByte).op = u.op.map (fun x => x.handRealTime u.now 0xFC#8) := by
    show w.op.map (fun x => x.handRealTime w.now 0xFC#8) = _
    rw [hl.op, hl.now]
  exact ⟨fun l => (hl.link l).trans (hn.link l), hn.modes.trans hl.modes, hn.te.trans (by rw [State.handRealTime, State.withTe, hl.te]),
    hn.ck.trans hl.ck, hn.ip.trans hl.ip, hn.op.trans hop, hn.lr.trans hl.lr, rfl, hn.watch.trans hl.watch, hn.st.trans hl.st,
    hn.ready.trans hl.ready, hn.micros.trans hl.micros, hn.cause.trans hl.cause, hn.choices.trans hl.choices,
    hn.pending.trans hl.pending⟩

/-- Settles O31: the bar event of R3 handed on as closing, and then the end of the run. -/
theorem closingEventStopsAtTheBar : Obligations.ClosingEventStopsAtTheBar := by
  refine ⟨fun s ht hb => ?_, fun s ht hb hs hw hsr hd hg => ?_⟩
  · intro bar te u w
    have hstep : s.te.barStep = te := by
      cases hs : s.te.segue with
      | none => rw [TempoEngine.barStep_of_no_segue hs]; simp [te, hs, ht]; rfl
      | some g => rw [TempoEngine.barStep_of_segue hs]; simp [te, hs, ht]
    have htr : te.transport = .stopping := by simp only [te]; split <;> exact ht
    have hu : s.barNotices = u := by
      simp only [State.barNotices, hstep, htr, ht, ne_eq, not_true_eq_false, if_false]
      cases hs : s.te.segue with
      | none => simp [u, te, hs, State.withTe]
      | some g => simp only [Option.isSome_some, true_and]; rfl
    have hw : s.beatOccurs = w.close := by
      rw [State.beatOccurs_closing hb ht, hu, State.barEvent, hstep, htr]
    refine ⟨fun hn => ?_, fun hn => ?_⟩
    · rw [hw, State.close_of_stopped hn]
    · intro tempo a b c d
      obtain ⟨hclose, hcs⟩ := State.close_of_stopping hn
      change w.close = c.sequencerClosed at hclose
      change c.cs = w.cs at hcs
      have hdc : d = { c with cs := { c.cs with goPending := false, deferred := none } } := by simp only [d, hcs]
      rw [hw, hclose]
      refine ⟨fun hdef => ?_, fun p hdef => ⟨fun n g hn hg => ?_, fun hn => ?_⟩⟩
      · rw [State.sequencerClosed_of_none (hcs ▸ hdef), hdc]
      · rw [State.sequencerClosed_of_song (hcs ▸ hdef) (hcs ▸ hn) (hcs ▸ hg), hdc]
      · rw [State.sequencerClosed_of_no_song (hcs ▸ hdef) (hcs ▸ hn), hdc]
  · intro bar meter ev
    have hstep : s.te.barStep = { s.te with pos := ⟨bar, 1, 0⟩, meter := meter, pendingMeter := none } := by
      rw [TempoEngine.barStep_of_no_segue hs]; simp [ht]; exact ⟨rfl, rfl⟩
    have hbn : s.barNotices = s.withTe s.te.barStep := by simp [State.barNotices, hstep, hs]
    have hev : s.barEvent true = ev := by rw [State.barEvent, hstep, ht]
    have hon := State.handOn_of_nothing_due (s := s.withTe s.te.barStep) (ev := ev) hw (fun _ => hsr)
      (fun g hst => ⟨(hg g hst).1, fun _ => (hg g hst).2⟩)
    rw [State.beatOccurs_closing hb ht, hbn, hev, hon, hstep]
    have hno := State.close_noticesOnly (State.broadcastQuiet_linksOnly { s with
        te := { s.te with pos := ⟨bar, 1, 0⟩, meter := meter, pendingMeter := none }
        ck := { s.ck with buses := s.ck.buses.map (fun x => x.beat s.ck.patterns ev) }
        cs := { s.cs with boundary := 0, chained := false } } Mask.beat
        (.beat ev.bar ev.beat ev.meter s.te.tempo ev.transport)) ht hd
    simp only [hs] at hno ⊢
    exact hno

end Sys2Proof.Machine
end

section
/-! PROOFS. The follower: marks, the last mark time and the lost deadline (R17 to R21). -/

namespace Sys2Proof.Machine

theorem exec_beatEdge (s : State) : exec .beatEdge s = .next (s.markFrom .line) := rfl

/-- A MARK report on a connected S2 is taken by the follower (R153). -/
theorem exec_mark {s : State} (h : (s.link .s2).high = true) :
    exec (.mark .s2 []) s = .next ((s.heard .s2).markFrom .marks) := by
  show Host.Outcome.next (s.telegram .s2 65#8 []) = _
  rw [State.telegram, if_pos h]
  rfl

/-- Settles O33. -/
theorem followerDeadlinesPass : Obligations.FollowerDeadlinesPass := by
  intro s
  refine ⟨rfl, fun h => ?_, fun h => ?_⟩
  · show Host.Outcome.next s.lostDeadline = _
    rw [State.lostDeadline, h]
  · obtain ⟨d, hd⟩ := Option.ne_none_iff_exists'.1 h
    intro u
    have hu : LinksOnly (s.withTe { s.te with follow := .freewheel, history := [], lastMark := none, lostDeadline := none }) u :=
      State.broadcastQuiet_linksOnly _ _ _
    have hlost : s.lostDeadline = if s.ticking then u.report .followLost none else u := by
      rw [State.lostDeadline, hd]
      rfl
    have hpos : u.barBeat = if s.ticking then some ⟨s.te.pos.bar, s.te.pos.beat⟩ else none := by
      rw [State.barBeat, State.ticking, hu.te]
      rfl
    refine ⟨fun hk => ?_, fun hk => ?_⟩
    · show Host.Outcome.next s.lostDeadline = _
      rw [hlost, hk]
      rfl
    · show Host.Outcome.next s.lostDeadline = _
      rw [hlost, if_pos hk, State.report, hpos, if_pos hk]

/-! ## Marks -/

section
variable {u : State}

theorem State.takeMark_first (h : u.te.lastMark = none) (hf : u.te.follow ≠ .freewheel) :
    u.takeMark = u.withTe { u.te with lastMark := some u.now } := by
  simp only [State.takeMark, h, if_neg hf]

theorem State.takeMark_first_freewheel (h : u.te.lastMark = none) (hf : u.te.follow = .freewheel) :
    u.takeMark = State.tempoNotice
      (u.withTe { u.te with lastMark := some u.now, follow := .seeking, lostDeadline := none }) := by
  simp only [State.takeMark, h, if_pos hf]

/-- An interval outside 200,000 to 2,000,000 us (R18). -/
theorem State.takeMark_outside {m : Stamp} (h : u.te.lastMark = some m)
    (hd : stampSince u.now m < 200000 ∨ 2000000 < stampSince u.now m) :
    u.takeMark =
      let v := u.withTe { u.te with lastMark := some u.now, history := [], lostDeadline := none }
      if u.te.follow = .locked ∨ u.te.follow = .freewheel then State.tempoNotice (v.withTe { v.te with follow := .seeking })
      else v := by
  have hd' : ¬(200000 ≤ stampSince u.now m ∧ stampSince u.now m ≤ 2000000) := by omega
  simp only [State.takeMark, h, if_neg hd']

/-- An interval within 200,000 to 2,000,000 us joins the history, and two or more make an estimate (R18, R19). -/
theorem State.takeMark_inside {m : Stamp} (h : u.te.lastMark = some m) (h1 : 200000 ≤ stampSince u.now m)
    (h2 : stampSince u.now m ≤ 2000000) :
    u.takeMark =
      let v := u.withTe { u.te with lastMark := some u.now, history := marksPush u.te.history (stampSince u.now m) }
      if 2 ≤ v.te.history.length then v.estimate else v := by
  simp only [State.takeMark, h, h1, h2, and_self, if_true]

end

theorem marksPush_length (h : List Nat) (d : Nat) : (marksPush h d).length = min 4 (h.length + 1) := by
  simp [marksPush]; omega

/-- The estimate of a history of two to four intervals, with its notice, before the phase correction (R19). -/
theorem State.estimate_eq {v : State} (h : v.te.history.length ≤ 4) :
    let avg := v.te.history.sum / v.te.history.length
    let t := (6000000000 + avg / 2) / avg
    let w := v.withTe { v.te with tempo := t, follow := .locked, lostDeadline := some (stampAfter v.now (3 * avg)) }
    v.estimate = (if v.te.tempo = t ∧ v.te.follow = .locked then w else w.tempoNotice).phaseCorrect := by
  intro avg t w
  have hn : min v.te.history.length 4 = v.te.history.length := Nat.min_eq_left h
  simp only [State.estimate, hn, Nat.sub_self, List.drop_zero]
  congr 1
  by_cases hc : v.te.tempo = t ∧ v.te.follow = .locked
  · rw [if_pos hc, if_neg (by tauto)]
  · rw [if_neg hc, if_pos (by tauto)]

theorem State.phaseCorrect_still {x : State} (h : x.ticking = false ∨ x.te.pos.tick = 0) : x.phaseCorrect = x := by
  unfold State.phaseCorrect
  rcases h with h | h
  · rw [h]; rfl
  · simp only [h, if_true, ite_self]

theorem State.phaseCorrect_back {x : State} (h : x.ticking = true) (h1 : 1 ≤ x.te.pos.tick) (h2 : x.te.pos.tick ≤ 239) :
    x.phaseCorrect = x.withTe { x.te with pos := { x.te.pos with tick := 0 }, acc := 0 } := by
  rw [State.phaseCorrect, if_pos h, if_neg (by omega), if_pos h2]

theorem State.phaseCorrect_forward {x : State} (h : x.ticking = true) (h1 : 240 ≤ x.te.pos.tick) :
    x.phaseCorrect = State.beatOccurs (x.withTe { x.te with acc := 0 }) := by
  rw [State.phaseCorrect, if_pos h, if_neg (by omega), if_neg (by omega)]

/-- Settles O32: each kind of mark, for the two sources at once. -/
theorem marksDriveTheFollower : Obligations.MarksDriveTheFollower := by
  intro s
  refine ⟨fun h => ?_, fun hh h => ?_, fun c u hcu => ?_⟩
  · rw [exec_beatEdge, State.markFrom, if_neg h]
  · rw [exec_mark hh, State.markFrom, State.heard_te, if_neg h]
  · obtain ⟨hc, hte, hnow⟩ : exec c s = .next u.takeMark ∧ u.te = s.te ∧ u.now = s.now := by
      rcases hcu with ⟨rfl, rfl, h⟩ | ⟨rfl, rfl, hh, h⟩
      · exact ⟨by rw [exec_beatEdge, State.markFrom, if_pos h], rfl, rfl⟩
      · exact ⟨by rw [exec_mark hh, State.markFrom, State.heard_te, if_pos h], rfl, rfl⟩
    rw [hc]
    refine ⟨fun h hf => ?_, fun h hf => ?_, fun m hm => ?_⟩
    · rw [State.takeMark_first (hte ▸ h) (hte ▸ hf), hte, hnow]
      rfl
    · rw [State.takeMark_first_freewheel (hte ▸ h) (hte ▸ hf), hte, hnow]
      rfl
    · intro d v h h4 avg t w x
      have hd : stampSince u.now m = d := by rw [hnow]
      have hm' : u.te.lastMark = some m := hte ▸ hm
      have hin : 200000 ≤ d → d ≤ 2000000 → u.takeMark =
          let v4 := u.withTe { s.te with lastMark := some s.now, history := h4 }
          if 2 ≤ h4.length then v4.estimate else v4 := fun h1 h2 => by
        rw [State.takeMark_inside hm' (hd ▸ h1) (hd ▸ h2), hd, hte, hnow]
        rfl
      have hlen : h4.length = min 4 (s.te.history.length + 1) := marksPush_length _ _
      have hest : 200000 ≤ d → d ≤ 2000000 → s.te.history ≠ [] → u.takeMark = x.phaseCorrect := fun h1 h2 hne => by
        have hpos := List.length_pos_of_ne_nil hne
        have he := State.estimate_eq (v := u.withTe { s.te with lastMark := some s.now, history := h4 })
          (show h4.length ≤ 4 by omega)
        rw [hin h1 h2]
        simp only [if_pos (show 2 ≤ h4.length by omega)]
        rw [he, State.now_withTe, hnow]
        rfl
      have hxte : x.te = w.te := by
        simp only [x]
        split
        · rfl
        · exact (State.broadcastQuiet_linksOnly _ _ _).te
      have hxk : x.ticking = s.ticking := by rw [State.ticking, hxte]; rfl
      have hxp : x.te.pos = s.te.pos := by rw [hxte]
      have hout : d < 200000 ∨ 2000000 < d → u.takeMark =
          if s.te.follow = .locked ∨ s.te.follow = .freewheel then State.tempoNotice (v.withTe { v.te with follow := .seeking })
          else v := fun ho => by
        rw [State.takeMark_outside hm' (hd ▸ ho), hte, hnow]
        rfl
      refine ⟨fun ho h1 h2 => ?_, fun ho hf => ?_, fun h1 h2 he => ?_, fun h1 h2 hne hk => ?_, fun h1 h2 hne hk hk1 hk2 => ?_,
        fun h1 h2 hne hk hk1 => ?_⟩
      · rw [hout ho, if_neg (by simp [h1, h2])]
      · rw [hout ho, if_pos hf]
        rfl
      · have h4eq : h4 = [d] := by simp only [h4, h, he]; rfl
        rw [hin h1 h2, h4eq]
        rfl
      · rw [hest h1 h2 hne, State.phaseCorrect_still (by rw [hxk, hxp]; exact hk)]
      · rw [hest h1 h2 hne, State.phaseCorrect_back (hxk.trans hk) (hxp ▸ hk1) (hxp ▸ hk2), hxp]
        rfl
      · rw [hest h1 h2 hne, State.phaseCorrect_forward (hxk.trans hk) (hxp ▸ hk1)]
        rfl

end Sys2Proof.Machine
end

section
/-! PROOFS. RESTART (R24, R38, R78, R103, R142): the blocks one after the other, and the held-note table emptied. -/

namespace Sys2Proof.Machine

/-- Releasing every entry empties the held-note table (R103). -/
theorem State.releaseAll_true_held (rel : HeldEntry → Nat) :
    ∀ (n : Nat) (s : State), s.lr.held.length = n → (s.releaseAll (fun _ => true) rel).lr.held = []
  | 0, s, h => by
    have hnil := List.length_eq_zero_iff.1 h
    rw [State.releaseAll_none rel (by rw [hnil]; rfl), hnil]
  | n + 1, s, h => by
    obtain ⟨e, r, hr⟩ := List.exists_cons_of_length_eq_add_one h
    have hfind : s.lr.held.find? (fun _ => true) = some e := by rw [hr]; rfl
    have hlen := s.releaseEntry_length (List.mem_of_find?_eq_some hfind) (rel e)
    rw [State.releaseAll_some rel hfind]
    exact State.releaseAll_true_held rel n _ (by omega)

/-- The oldest entry leaves the table and its targets are released in order (R91). -/
theorem State.releaseAll_true_cons {u : State} {e : HeldEntry} {r : List HeldEntry} (h : u.lr.held = e :: r)
    (rel : HeldEntry → Nat) : u.releaseAll (fun _ => true) rel =
      State.releaseAll (e.targets.foldl (fun v t => v.releaseTarget e.pend (rel e) t) { u with lr := { u.lr with held := r } })
        (fun _ => true) rel := by
  rw [State.releaseAll_some rel (e := e) (by rw [h]; rfl), State.releaseEntry, h, List.erase_cons_head]
  rfl

/-- RESTART on the map state with the engine STOPPED: a held lock's notice carries no position (R70, R78). -/
theorem State.restartMap_eq {s : State} (h : s.ticking = false) :
    s.restartMap =
      let u : State := { s with lr := { s.lr with staged := none, claim := none, lock := none } }
      if s.lr.lock = none then u else u.broadcast Mask.scene (.scene .lock s.lr.live.scene none none none none) := by
  by_cases hl : s.lr.lock = none
  · simp [State.restartMap, hl]
  · have hb : ∀ r : LayerRouter, State.barBeat { s with lr := r } = none := fun r => by
      show (if s.ticking then _ else _) = _
      rw [h]
      rfl
    simp only [State.restartMap, hl, if_false, State.releaseLock, State.sceneNotice, hb]

/-- Settles O45: the blocks of `restart` in their order; the table is emptied by releases one at a time. -/
theorem restartClearsTheShow : Obligations.RestartClearsTheShow := by
  intro s l ht te cs u0 u1 u2 u3 u4 u5 released
  have hx := exec_of_takes (i := .restart l []) rfl ht
  have hperform : (s.heard l).perform l .restart [] = (s.answered l .restart .done []).restart := by
    simp [State.perform, State.reqRestart]
  have hr1 : RouterOnly u0 u1 := by
    simp only [u1]
    split
    · exact State.handRealTime_routerOnly _ _
    · exact RouterOnly.refl _
  have hr2 : LinksOnly u1 u2 := by
    simp only [u2]
    split
    · exact State.broadcast_linksOnly _ _ _
    · exact LinksOnly.refl _
  have hr3 : LinksOnly u2 u3 := by
    simp only [u3]
    split
    · exact State.broadcastQuiet_linksOnly _ _ _
    · exact LinksOnly.refl _
  have hlr : u3.lr = s.lr := by
    rw [hr3.lr, hr2.lr]
    simp only [u1]
    split <;> rfl
  have hr : RouterOnly u0 u3 := hr1.trans (hr2.trans hr3).routerOnly
  have h3 : (s.answered l .restart .done []).restartTempo = u3 := by
    have e2 : (if s.ticking = true ∨ s.te.pos ≠ ⟨1, 1, 0⟩ then u1.transportNotice else u1) = u2 := by
      rw [State.transportNotice, hr1.te]
    have e3 : (if s.te.follow ≠ .free ∨ s.te.ramp ≠ none then u2.tempoNotice else u2) = u3 := by
      rw [State.tempoNotice, hr2.te, hr1.te]
      rfl
    rw [← e3, ← e2]
    rfl
  have h5 : u3.restartSequencer.restartMap = u5 := by
    have hstop : u3.restartSequencer.ticking = false := by
      show u3.te.transport.ticking = false
      rw [hr.te]
      rfl
    have hseq : u3.restartSequencer = { u3 with cs := cs } := by
      rw [State.restartSequencer, State.withCs, hr.cs]
      rfl
    rw [State.restartMap_eq hstop, hseq]
    simp only [hlr]
    rfl
  have h54 : LinksOnly u4 u5 := by
    simp only [u5]
    split
    · exact LinksOnly.refl _
    · exact State.broadcast_linksOnly _ _ _
  have hck : (released u5).ck = s.ck := by
    rw [(u5.releaseAll_routerOnly _ _).ck, h54.ck]
    exact hr.ck
  refine ⟨?_, State.releaseAll_true_held _ _ _ rfl, fun u hu => State.releaseAll_none _ (by rw [hu]; rfl),
    fun u e r hr => State.releaseAll_true_cons hr _⟩
  rw [hx, hperform, State.restart, h3, h5]
  rw [← hck]
  rfl

end Sys2Proof.Machine
end

section
/-! PROOFS. What is due in the present microsecond, and the move to the next one (00_scope.md, Time; R2, R34, R156). -/

namespace Sys2Proof.Machine

/-! ## What is due -/

/-- The stamp has been reached: the counter stands at it, or less than half its range past it. -/
def State.past (s : State) (d : Stamp) : Prop := (s.now - d).toNat < 2147483648

theorem stampReached_iff (s : State) (d : Stamp) : stampReached s.now d = true ↔ s.past d := decide_eq_true_iff

theorem State.reached_iff (s : State) (d : Option Stamp) : s.reached d = true ↔ ∃ x, d = some x ∧ s.past x := by
  cases d <;> simp [State.reached, stampReached_iff]

theorem mem_dueIf (b : Bool) (c d : Instr) : c ∈ dueIf b d ↔ c = d ∧ b = true := by
  cases b <;> simp [dueIf]

theorem State.mem_dueTempo (s : State) (c : Instr) : c ∈ s.dueTempo ↔
    (c = .tick ∧ s.te.tickOwed = true) ∨ (c = .lastMarkExpiry ∧ ∃ d, s.te.lastMark = some d ∧ s.past (d + 2000000#32)) ∨
      (c = .lostDeadline ∧ ∃ d, s.te.lostDeadline = some d ∧ s.past d) := by
  simp only [State.dueTempo, List.mem_append, mem_dueIf, State.reached_iff, Option.map_eq_some_iff, or_assoc]
  simp only [stampAfter, ↓existsAndEq, and_true]

theorem State.mem_dueInput (s : State) (i : InPort) (c : Instr) : c ∈ s.dueInput i ↔
    ∃ d, c = .sensingDeadline i ∧ (s.midiIn i).sensing = .watched ∧ (s.midiIn i).deadline = some d ∧ s.past d := by
  simp [State.dueInput, mem_dueIf, State.reached_iff]

theorem State.mem_dueSlot (s : State) (q : Slot) (c : Instr) : c ∈ s.dueSlot q ↔
    (c = .filterExpiry q.key ∧ ∃ d, q.deadline = some d ∧ s.past d) ∨
      (c = .forwardTimeExpiry q.key ∧ ∃ d, q.lastTime = some d ∧ s.past (d + 8000#32)) := by
  simp [State.dueSlot, mem_dueIf, State.reached_iff, stampAfter]

theorem State.mem_dueOutput (s : State) (o : OutPort) (c : Instr) : c ∈ s.dueOutput o ↔
    (∃ b, c = .outputByteSent o ∧ (s.midiOut o).line = some b ∧ s.past b.ends) ∨
      (c = .outputDisabled o ∧ (s.midiOut o).mode = .draining ∧ (s.midiOut o).sounding = 0 ∧ (s.midiOut o).queue = [] ∧
        (s.midiOut o).tx = none) := by
  simp [State.dueOutput, mem_dueIf, State.reached_iff, MidiOut.drained, and_assoc]

theorem State.lastByteOut_iff (s : State) (l : Link) : s.lastByteOut l = true ↔
    ∃ x, (s.link l).tx = some x ∧ x.left.length ≤ 1 ∧ s.past x.byteEnds := by
  unfold State.lastByteOut
  cases (s.link l).tx <;> simp [stampReached_iff]

theorem State.mem_dueLink (s : State) (l : Link) (c : Instr) : c ∈ s.dueLink l ↔
    (∃ d, c = .holdExpiry l ∧ (s.link l).hold = some d ∧ s.past d) ∨
      (∃ d, c = .gapDeadline l ∧ (s.link l).collecting = true ∧ (s.link l).gap = some d ∧ s.past d) ∨
      (∃ x, c = .telegramSent l ∧ (s.link l).tx = some x ∧ x.left.length ≤ 1 ∧ s.past x.byteEnds) := by
  simp [State.dueLink, mem_dueIf, State.reached_iff, State.lastByteOut_iff]

/-- A connected link of a station has so many free places (R144). -/
def State.room (s : State) (x : Station) (k : Nat) : Prop :=
  (s.link x.link).high = true ∧ k ≤ 128 - (s.link x.link).queue.length

/-- The station is in a resync phase (R163). -/
def State.inPhase (s : State) (x : Station) (p : Phase) : Prop := (s.station x).state = .joining ∧ (s.station x).phase = p

theorem State.allOffReady_iff (s : State) (x : Station) : s.allOffReady x = true ↔ s.inPhase x .clearing ∧ s.room x 16 := by
  simp only [State.allOffReady, State.inPhase, State.room, Bool.and_eq_true, decide_eq_true_eq, and_assoc]
  rfl

theorem State.cursor_eq_none_iff (s : State) (x : Station) : s.cursor x = none ↔ ∀ e ∈ s.lr.held, e.pend.get x = false := by
  simp [State.cursor]

theorem State.joinedReady_iff (s : State) (x : Station) : s.joinedReady x = true ↔
    s.inPhase x .replaying ∧ (∀ e ∈ s.lr.held, e.pend.get x = false) ∧ s.room x 16 := by
  simp only [State.joinedReady, State.inPhase, State.room, Bool.and_eq_true, decide_eq_true_eq, and_assoc,
    Option.isNone_iff_eq_none, State.cursor_eq_none_iff]
  rfl

theorem HeldEntry.soundTargets_length (e : HeldEntry) :
    e.soundTargets.length = e.targets.countP (fun t => decide (t.dest = .sound)) := List.countP_eq_length_filter.symm

theorem State.replayReady_iff (s : State) (x : Station) : s.replayReady x = true ↔
    ∃ e, s.inPhase x .replaying ∧ s.lr.held.find? (fun e => e.pend.get x) = some e ∧
      (e.targets.countP (fun t => decide (t.dest = .sound)) = 0 ∨
        (s.room x (15 + e.targets.countP (fun t => decide (t.dest = .sound))) ∧ (s.link x.link).hold = none)) := by
  unfold State.replayReady State.cursor
  cases s.lr.held.find? (fun e => e.pend.get x) with
  | none => simp
  | some e =>
    simp only [State.inPhase, State.room, Bool.and_eq_true, Bool.or_eq_true, decide_eq_true_eq, and_assoc,
      HeldEntry.soundTargets_length, Option.some.injEq, ↓existsAndEq, true_and]
    refine and_congr_right fun _ => and_congr_right fun _ => or_congr_right (and_congr_right fun _ => and_comm)

theorem State.mem_dueStation (s : State) (x : Station) (c : Instr) : c ∈ s.dueStation x ↔
    (c = .resyncAllOff x ∧ s.inPhase x .clearing ∧ s.room x 16) ∨
      (∃ e, c = .resyncReplay x ∧ s.inPhase x .replaying ∧ s.lr.held.find? (fun e => e.pend.get x) = some e ∧
        (e.targets.countP (fun t => decide (t.dest = .sound)) = 0 ∨
          (s.room x (15 + e.targets.countP (fun t => decide (t.dest = .sound))) ∧ (s.link x.link).hold = none))) ∨
      (c = .resyncJoined x ∧ s.inPhase x .replaying ∧ (∀ e ∈ s.lr.held, e.pend.get x = false) ∧ s.room x 16) := by
  simp only [State.dueStation, List.mem_append, mem_dueIf, State.allOffReady_iff, State.replayReady_iff, State.joinedReady_iff,
    exists_and_left, or_assoc]

theorem mem_allIns (i : InPort) : i ∈ allIns := by cases i <;> decide
theorem mem_allOuts (o : OutPort) : o ∈ allOuts := by cases o <;> decide
theorem mem_allLinks (l : Link) : l ∈ allLinks := by cases l <;> decide
theorem mem_allStations (x : Station) : x ∈ allStations := by cases x <;> decide

/-- What is due, block by block. -/
theorem State.mem_due (s : State) (c : Instr) : c ∈ s.due ↔
    c ∈ s.dueTempo ∨ (∃ i, c ∈ s.dueInput i) ∨ (∃ q ∈ s.lr.slots, c ∈ s.dueSlot q) ∨ (∃ o, c ∈ s.dueOutput o) ∨
      (∃ l, c ∈ s.dueLink l) ∨ (c = .pulseDeadline ∧ s.past s.sw.deadline) ∨ ∃ x, c ∈ s.dueStation x := by
  simp only [State.due, List.mem_append, List.mem_flatMap, mem_dueIf, stampReached_iff, mem_allIns, mem_allOuts, mem_allLinks,
    mem_allStations, true_and, or_assoc]

/-! ## The choice among the events due -/

theorem pickDue_mem (n : Nat) (c : Instr) (cs : List Instr) : pickDue n c cs ∈ c :: cs := by
  have h : n % (cs.length + 1) < (c :: cs).length := Nat.mod_lt _ (Nat.succ_pos _)
  rw [pickDue, List.getD_eq_getElem _ _ h]
  exact List.getElem_mem h

theorem State.idle_of_due {s : State} (h : s.due ≠ []) : ∃ c ∈ s.due, s.idle = exec c s ∨ s.idle = exec c s.choose := by
  unfold State.idle
  split
  · exact absurd ‹_› h
  · next c hc => exact ⟨c, by simp [hc], .inl rfl⟩
  · next c cs _ hc => exact ⟨_, hc ▸ pickDue_mem _ _ _, .inr rfl⟩

/-! ## The next microsecond -/

theorem sampleBoundary_iff (n : Nat) : sampleBoundary n = true ↔ ∃ k, 6 * n ≤ 125 * k ∧ 125 * k < 6 * n + 6 := by
  rw [sampleBoundary, decide_eq_true_iff]
  constructor
  · exact fun h => ⟨(6 * n + 124) / 125, by omega, by omega⟩
  · rintro ⟨k, h1, h2⟩
    have hk : (6 * n + 124) / 125 ≤ k := by omega
    omega

/-- A byte that is out, but not the last, gives way to the next (R156). -/
theorem LinkState.shiftByte_eq (x : LinkState) (now : Stamp) : x.shiftByte now =
    { x with tx := x.tx.map (fun t =>
      if 2 ≤ t.left.length ∧ (now - t.byteEnds).toNat < 2147483648 then
        { t with left := t.left.tail, byteEnds := t.byteEnds + 10#32 }
      else t) } := by
  unfold LinkState.shiftByte
  split
  · next h => rw [h]; exact congrArg (fun tx => { x with tx := tx }) h
  · next t h =>
    have hx : x = { x with tx := some t } := by rw [← h]
    rw [h, Option.map_some]
    split
    · next hl =>
      simp only [hl, stampReached, decide_eq_true_eq]
      split
      · next hr => rw [if_pos ⟨by simp, hr⟩]; rfl
      · next hr => rw [if_neg (fun k => hr k.2)]; exact hx
    · next hl => simpa [hl] using hx
    · next hl => simpa [hl] using hx

theorem State.shiftBytes_link (s : State) (l : Link) : s.shiftBytes.link l = (s.link l).shiftByte s.now := by
  cases l <;> rfl

theorem TempoEngine.addTempo_of_stopped {te : TempoEngine} (h : te.transport.ticking = false) : te.addTempo = te := by
  simp [TempoEngine.addTempo, h]

theorem TempoEngine.addTempo_of_below {te : TempoEngine} (h : te.transport.ticking = true) (hs : te.acc + te.tempo < 12500000) :
    te.addTempo = { te with acc := te.acc + te.tempo } := by
  rw [TempoEngine.addTempo, if_pos h]
  exact if_neg (Nat.not_le.2 hs)

theorem TempoEngine.addTempo_of_reached {te : TempoEngine} (h : te.transport.ticking = true) (hs : 12500000 ≤ te.acc + te.tempo) :
    te.addTempo = { te with acc := te.acc + te.tempo - 12500000, tickOwed := true } := by
  rw [TempoEngine.addTempo, if_pos h]
  exact if_pos hs

/-- The next microsecond, with its values written out (R2, R34). -/
theorem State.advance_eq (s : State) : s.advance = { s with
    te := s.te.addTempo
    ck := { s.ck with buses := if sampleBoundary s.micros then s.ck.buses.map ClickBus.samplePeriod else s.ck.buses }
    sl := s.shiftBytes.sl
    micros := s.micros + 1 } := by
  unfold State.advance
  simp only
  cases sampleBoundary s.micros <;> rfl

/-- Settles O2: what is due block by block, the free choice, and the move to the next microsecond. -/
theorem emptyQueueLetsTimePass : Obligations.EmptyQueueLetsTimePass := by
  refine ⟨sampleBoundary_iff, fun s c => ?_, fun s hp => ?_⟩
  · intro past room phase
    simp only [State.mem_due, State.mem_dueTempo, State.mem_dueInput, State.mem_dueSlot, State.mem_dueOutput, State.mem_dueLink,
      State.mem_dueStation, exists_or, or_assoc]
    exact Iff.rfl
  · have hstep : step s = s.idle := by rw [step, hp]
    rw [hstep]
    refine ⟨State.idle_of_due, fun hd => ⟨s.advance, by rw [State.idle, hd], ?_⟩⟩
    rw [State.advance_eq]
    refine ⟨rfl, fun hk => TempoEngine.addTempo_of_stopped hk, fun hk hlt => TempoEngine.addTempo_of_below hk hlt,
      fun hk hle => TempoEngine.addTempo_of_reached hk hle, rfl, fun l => ?_, rfl, rfl, rfl, rfl, rfl, rfl, rfl, rfl, rfl, rfl, rfl⟩
    exact (s.shiftBytes_link l).trans (LinkState.shiftByte_eq _ _)

end Sys2Proof.Machine
end

section
/-! PROOFS. The 128 places of each link's queue (R144, R154): every telegram is admitted where there is a place for it. -/

namespace Sys2Proof.Machine

/-- Where no link had more than 128 telegrams waiting, none has. -/
def Fits (s t : State) : Prop := (∀ l, (s.link l).queue.length ≤ 128) → ∀ l, (t.link l).queue.length ≤ 128

theorem Fits.refl (s : State) : Fits s s := id

theorem Fits.trans {s t u : State} (h : Fits s t) (k : Fits t u) : Fits s u := fun x => k (h x)

theorem Fits.of_sl {s t : State} (h : t.sl = s.sl) : Fits s t := fun k l => by
  show (t.sl.get l).queue.length ≤ 128
  rw [h]
  exact k l

/-! ## One link -/

theorem LinkState.startTx_queue_le (x : LinkState) (now : Stamp) : (x.startTx now).queue.length ≤ x.queue.length := by
  unfold LinkState.startTx
  split
  · exact Nat.le_refl _
  · next h =>
    split
    · rw [h]; exact Nat.le_succ _
    · exact Nat.le_refl _

theorem LinkState.admitTelegram_queue_le (x : LinkState) (now : Stamp) (t : Telegram) :
    (x.admitTelegram now t).queue.length ≤ x.queue.length + 1 := by
  unfold LinkState.admitTelegram
  refine (LinkState.startTx_queue_le _ _).trans ?_
  simp

theorem LinkState.one_le_free_iff (x : LinkState) : 1 ≤ x.free ↔ x.queue.length ≤ 127 := by
  simp only [LinkState.free, Config.linkQueue]; omega

theorem LinkState.queue_le_of_room {x : LinkState} (h : Config.noticeRoom ≤ x.free) : x.queue.length ≤ 127 := by
  simp only [LinkState.free, Config.linkQueue, Config.noticeRoom] at h; omega

theorem State.setLink_fits {s : State} {l : Link} {x : LinkState}
    (h : (s.link l).queue.length ≤ 128 → x.queue.length ≤ 128) : Fits s (s.setLink l x) := by
  intro k j
  by_cases e : j = l
  · subst e; rw [State.link_setLink_same]; exact h (k j)
  · rw [State.link_setLink_of_ne s x e]; exact k j

theorem State.post_fits {s : State} {l : Link} (h : (s.link l).queue.length ≤ 127) (t : Telegram) : Fits s (s.post l t) :=
  State.setLink_fits (fun _ => (LinkState.admitTelegram_queue_le _ _ _).trans (by omega))

/-! ## Notices and fault reports -/

theorem State.offerQuiet_fits (s : State) (l : Link) (n : Notice) : Fits s (s.offerQuiet l n) := by
  unfold State.offerQuiet
  split
  · next h =>
    simp only [Bool.and_eq_true, decide_eq_true_eq] at h
    exact State.post_fits (LinkState.queue_le_of_room h.2) _
  · exact Fits.refl s

theorem State.broadcastQuiet_fits (s : State) (g : Mask → Bool) (n : Notice) : Fits s (s.broadcastQuiet g n) := by
  unfold State.broadcastQuiet
  apply foldl_rel Fits Fits.refl Fits.trans
  intro s l
  split
  · exact s.offerQuiet_fits l n
  · exact Fits.refl s

theorem State.reportAt_fits (s : State) (k : FaultKind) (p : Option FaultPort) (pos : Option BarBeat) :
    Fits s (s.reportAt k p pos) := by
  have hrecord : Fits s { s with fl := s.fl.record k p pos s.millis } := Fits.of_sl rfl
  unfold State.reportAt
  split
  · exact Fits.refl s
  · exact hrecord
  · refine hrecord.trans ?_
    unfold State.offerFaultNotice
    split
    · exact State.broadcastQuiet_fits _ _ _
    · exact Fits.refl _

theorem State.report_fits (s : State) (k : FaultKind) (p : Option FaultPort) : Fits s (s.report k p) := s.reportAt_fits k p _

theorem State.offerNotice_fits (s : State) (l : Link) (n : Notice) : Fits s (s.offerNotice l n) := by
  unfold State.offerNotice
  split
  · exact Fits.refl s
  · split
    · next h => exact State.post_fits (LinkState.queue_le_of_room h) _
    · exact s.report_fits _ _

theorem State.broadcast_fits (s : State) (g : Mask → Bool) (n : Notice) : Fits s (s.broadcast g n) := by
  unfold State.broadcast
  apply foldl_rel Fits Fits.refl Fits.trans
  intro s l
  split
  · exact s.offerNotice_fits l n
  · exact Fits.refl s

/-! ## The watch -/

theorem State.releaseLock_fits (s : State) : Fits s s.releaseLock :=
  Fits.trans (t := { s with lr := { s.lr with lock := none } }) (Fits.of_sl rfl) (State.broadcast_fits _ _ _)

theorem State.makeActive_fits (s : State) (x : Station) (c : ActiveCause) : Fits s (s.makeActive x c) :=
  Fits.trans (t := { s with sw := { s.sw with active := some x, audioHigh := decide (x = Station.b) } }) (Fits.of_sl rfl)
    (State.broadcast_fits _ _ _)

theorem State.reviewActive_fits (s : State) (x : Station) (old new : StationState) : Fits s (s.reviewActive x old new) := by
  unfold State.reviewActive
  split
  · split
    · exact s.makeActive_fits x _
    · split
      · exact (s.makeActive_fits x _).trans (State.report_fits _ _ _)
      · exact Fits.refl s
  · split
    · split
      · exact (s.makeActive_fits _ _).trans (State.report_fits _ _ _)
      · exact s.report_fits _ _
    · exact Fits.refl s

theorem State.resyncAllOff_fits (s : State) (x : Station) : Fits s (s.resyncAllOff x) := by
  unfold State.resyncAllOff
  split
  · next h =>
    simp only [State.allOffReady, Bool.and_eq_true, decide_eq_true_eq] at h
    exact (State.post_fits (LinkState.queue_le_of_room h.2) _).trans (Fits.of_sl rfl)
  · exact Fits.refl s

theorem State.enterState_fits (s : State) (x : Station) (new : StationState) : Fits s (s.enterState x new) := by
  cases new with
  | joining =>
    exact Fits.trans (t := (s.setStation x { s.station x with state := .joining, phase := .clearing }).markPending x)
      (Fits.of_sl rfl) (State.resyncAllOff_fits _ x)
  | absent | down | up | suspect => exact Fits.of_sl rfl

theorem State.changeStation_fits (s : State) (x : Station) (new : StationState) (f : Option FaultKind) :
    Fits s (s.changeStation x new f) := by
  have hlock : ∀ u : State, Fits u (u.autoRelease x new) := fun u => by
    unfold State.autoRelease
    split
    · exact u.releaseLock_fits
    · exact Fits.refl u
  have h := ((s.enterState_fits x new).trans (hlock _)).trans (State.reviewActive_fits _ x (s.station x).state new)
  cases f with
  | none => exact h
  | some k => exact h.trans (State.report_fits _ _ _)

theorem State.refused_fits (s : State) (x : Station) : Fits s (s.refused x) := by
  unfold State.refused
  split
  · exact s.changeStation_fits _ _ _
  · exact s.changeStation_fits _ _ _
  · exact s.changeStation_fits _ _ _
  · exact Fits.refl s

/-! ## Mirroring and PANIC's ALL_OFF -/

/-- A connected link that does not refuse an EVENT has room for it (R154). -/
theorem State.queue_le_of_not_refuses {s : State} {x : Station} (h : s.refusesEvent x = false) (hh : (s.link x.link).high = true) :
    (s.link x.link).queue.length ≤ 127 := by
  simp only [State.refusesEvent, hh, Bool.true_and, Bool.or_eq_false_iff, decide_eq_false_iff_not, Nat.not_lt] at h
  exact LinkState.queue_le_of_room h.1

theorem State.offerEvent_fits (s : State) (x : Station) (e : Event) : Fits s (s.offerEvent x e).1 := by
  unfold State.offerEvent
  split
  · exact s.refused_fits x
  · next h =>
    split
    · next hh => exact State.post_fits (State.queue_le_of_not_refuses (by simpa using h) hh) _
    · exact Fits.refl s

theorem State.admitEvent_fits {s : State} {x : Station} {w : Bool} (e : Event)
    (h : w = true → (s.link x.link).high = true → (s.link x.link).queue.length ≤ 127) : Fits s (s.admitEvent x e w) := by
  unfold State.admitEvent
  split
  · next hw =>
    simp only [Bool.and_eq_true] at hw
    exact State.post_fits (h hw.1 hw.2) _
  · exact Fits.refl s

/-- Sound station B's link does not move when an EVENT is admitted to A. -/
theorem State.admitEvent_a_link (s : State) (e : Event) (w : Bool) : (s.admitEvent .a e w).link Station.b.link = s.link Station.b.link := by
  unfold State.admitEvent
  split
  · exact State.link_setLink_of_ne s _ (by decide)
  · rfl

theorem State.mirror_fits (s : State) (w : PerStation Bool) (e : Event) : Fits s (s.mirror w e).1 := by
  have hoffer : ∀ (u : State) (x : Station) (b : Bool), Fits u (if b then u.offerEvent x e else (u, false)).1 := fun u x b => by
    split
    · exact u.offerEvent_fits x e
    · exact Fits.refl u
  have hchoose : Fits s s.choose := Fits.of_sl rfl
  unfold State.mirror
  split
  · split
    · exact (hchoose.trans (hoffer _ .a w.a)).trans (hoffer _ .b w.b)
    · exact (hchoose.trans (hoffer _ .b w.b)).trans (hoffer _ .a w.a)
  · next h =>
    simp only [Bool.or_eq_true, Bool.and_eq_true, not_or, not_and, Bool.not_eq_true] at h
    refine (State.admitEvent_fits e (fun hw => State.queue_le_of_not_refuses (h.1 hw))).trans (State.admitEvent_fits e ?_)
    intro hw
    have hb := State.queue_le_of_not_refuses (x := .b) (h.2 hw)
    rwa [← State.admitEvent_a_link s e w.a] at hb

theorem State.panicStation_fits (s : State) (x : Station) : Fits s (s.panicStation x) := by
  unfold State.panicStation
  split
  · split
    · exact (s.report_fits _ _).trans (State.refused_fits _ x)
    · next h =>
      split
      · next hh =>
        simp only [hh, Bool.true_and, decide_eq_true_eq, Nat.not_lt] at h
        exact State.post_fits (LinkState.queue_le_of_room h) _
      · exact Fits.refl s
  · exact Fits.refl s

theorem State.panicStations_fits (s : State) : Fits s s.panicStations := by
  have hchoose : Fits s s.choose := Fits.of_sl rfl
  unfold State.panicStations
  simp only
  split
  · split
    · exact (hchoose.trans (State.panicStation_fits _ .a)).trans (State.panicStation_fits _ .b)
    · exact (hchoose.trans (State.panicStation_fits _ .b)).trans (State.panicStation_fits _ .a)
  · exact (s.panicStation_fits .a).trans (State.panicStation_fits _ .b)

/-! ## The replay of a resync -/

/-- The replay of an entry takes one place for each of its targets (R172). -/
theorem State.postEach_fits (l : Link) (f : Target → Notice) : ∀ (ts : List Target) (s : State),
    (s.link l).queue.length + ts.length ≤ 128 → Fits s (ts.foldl (fun s t => s.post l (.notice (f t))) s)
  | [], s, _ => Fits.refl s
  | t :: ts, s, h => by
    have hpost : ((s.post l (.notice (f t))).link l).queue.length ≤ (s.link l).queue.length + 1 := by
      rw [State.post, State.link_setLink_same]
      exact LinkState.admitTelegram_queue_le _ _ _
    rw [List.length_cons] at h
    exact (State.post_fits (by omega) _).trans (State.postEach_fits l f ts _ (by omega))

end Sys2Proof.Machine
end

section
/-! PROOFS. The limits of an output (R51 to R57): what sending, admission and the moves of its state do to the counts W and S
and to the real-time list. -/

namespace Sys2Proof.Machine

theorem MidiOut.inRange_iff (x : MidiOut) (n : Nat) : x.inRange n = true ↔
    (x.queue.countP (fun q => !q.msg.isNoteOff) ≤ 64 ∧ x.sounding ≤ 64 ∧ x.queue.length + x.sounding ≤ 128 ∧ x.sounding = n) ∧
      (x.mode = .disabled → x.sounding = 0 ∧ x.queue = []) := by
  simp only [MidiOut.inRange, Bool.and_eq_true, Bool.or_eq_true, decide_eq_true_eq, List.isEmpty_iff]
  tauto

/-- An output has not outgrown its limits, whatever the number of its targets in the held-note table. -/
structure OutKept (x y : MidiOut) : Prop where
  range : ∀ n, x.inRange n = true → y.inRange n = true
  realTime : x.realTime.length ≤ 8 → y.realTime.length ≤ 8

theorem OutKept.refl (x : MidiOut) : OutKept x x := ⟨fun _ => id, id⟩

theorem OutKept.trans {x y z : MidiOut} (h : OutKept x y) (k : OutKept y z) : OutKept x z :=
  ⟨fun n r => k.range n (h.range n r), fun r => k.realTime (h.realTime r)⟩

/-! ## Transmission -/

/-- The output has sent on: messages and real-time bytes have only left its lists (R55). -/
structure SentOn (x y : MidiOut) : Prop where
  mode : y.mode = x.mode
  settings : y.settings = x.settings
  sounding : y.sounding = x.sounding
  queue : y.queue.Sublist x.queue
  realTime : y.realTime.Sublist x.realTime

theorem SentOn.refl (x : MidiOut) : SentOn x x := ⟨rfl, rfl, rfl, List.Sublist.refl _, List.Sublist.refl _⟩

theorem SentOn.inRange {x y : MidiOut} (h : SentOn x y) {n : Nat} (k : x.inRange n = true) : y.inRange n = true := by
  rw [MidiOut.inRange_iff] at k ⊢
  obtain ⟨⟨hothers, hs, hw, hn⟩, hd⟩ := k
  have hlen := h.queue.length_le
  refine ⟨⟨(h.queue.countP_le).trans hothers, h.sounding ▸ hs, by rw [h.sounding]; omega, h.sounding.trans hn⟩, fun hm => ?_⟩
  obtain ⟨h0, hq⟩ := hd (h.mode ▸ hm)
  exact ⟨h.sounding.trans h0, List.eq_nil_of_length_eq_zero (by simpa [hq] using hlen)⟩

theorem SentOn.outKept {x y : MidiOut} (h : SentOn x y) : OutKept x y :=
  ⟨fun _ => h.inRange, fun k => h.realTime.length_le.trans k⟩

theorem MidiOut.startMessage_sentOn {x : MidiOut} (now : Stamp) {q : QMsg} {rest : List QMsg} (h : x.queue = q :: rest) :
    SentOn x (x.startMessage now q.msg rest) := by
  have hq : rest.Sublist x.queue := h ▸ List.sublist_cons_self _ _
  unfold MidiOut.startMessage
  split
  · split <;> exact ⟨rfl, rfl, rfl, hq, List.Sublist.refl _⟩
  · exact ⟨rfl, rfl, rfl, hq, List.Sublist.refl _⟩

theorem MidiOut.nextByte_sentOn (x : MidiOut) (now : Stamp) : SentOn x (x.nextByte now) := by
  unfold MidiOut.nextByte
  split
  · next b r h => exact ⟨rfl, rfl, rfl, List.Sublist.refl _, h ▸ List.sublist_cons_self _ _⟩
  · split
    · exact ⟨rfl, rfl, rfl, List.Sublist.refl _, List.Sublist.refl _⟩
    · split
      · next q rest h => exact MidiOut.startMessage_sentOn now h
      · exact ⟨rfl, rfl, rfl, List.Sublist.refl _, List.Sublist.refl _⟩

theorem MidiOut.kick_sentOn (x : MidiOut) (now : Stamp) : SentOn x (x.kick now) := by
  unfold MidiOut.kick
  split
  · exact x.nextByte_sentOn now
  · exact SentOn.refl x

theorem MidiOut.byteSent_sentOn (x : MidiOut) (now : Stamp) : SentOn x (x.byteSent now) := by
  have h : ∀ tx, SentOn x (MidiOut.nextByte { x with tx := tx, line := none } now) := fun tx => by
    obtain ⟨h1, h2, h3, h4, h5⟩ := MidiOut.nextByte_sentOn { x with tx := tx, line := none } now
    exact ⟨h1, h2, h3, h4, h5⟩
  unfold MidiOut.byteSent
  split
  · exact SentOn.refl x
  · split
    · exact h none
    · exact h x.tx

/-! ## Admission -/

/-- Messages admitted together, with the count S moved as they say. -/
theorem MidiOut.append_inRange {x : MidiOut} {s n : Nat} {ms : List QMsg} (now : Stamp) (hm : x.mode ≠ .disabled)
    (ho : x.queue.countP (fun q => !q.msg.isNoteOff) + ms.countP (fun q => !q.msg.isNoteOff) ≤ 64) (hs : s ≤ 64)
    (hw : x.queue.length + ms.length + s ≤ 128) (hn : s = n) :
    (MidiOut.append { x with sounding := s } now ms).inRange n = true := by
  refine (MidiOut.kick_sentOn _ now).inRange ?_
  rw [MidiOut.inRange_iff]
  exact ⟨⟨by rw [List.countP_append]; exact ho, hs, by rw [List.length_append]; exact hw, hn⟩, fun h => absurd h hm⟩

theorem MidiOut.append_realTime (x : MidiOut) (now : Stamp) (ms : List QMsg) :
    (x.append now ms).realTime.length ≤ x.realTime.length := (MidiOut.kick_sentOn _ now).realTime.length_le

/-- A note-off lowers S by its target (R52). -/
theorem MidiOut.noteOff_inRange {x : MidiOut} {n : Nat} (now : Stamp) (c : Chan) (k v : Nat) (hm : x.mode ≠ .disabled)
    (h : x.inRange (n + 1) = true) :
    (MidiOut.append { x with sounding := x.sounding - 1 } now [⟨.noteOff c k v, false⟩]).inRange n = true := by
  obtain ⟨⟨ho, hs, hw, hn⟩, -⟩ := (x.inRange_iff _).1 h
  refine MidiOut.append_inRange now hm ?_ (by omega) ?_ (by omega)
  · simpa [OutMsg.isNoteOff] using ho
  · simp only [List.length_cons, List.length_nil]; omega

/-- A note-on admitted below both limits raises S by its target (R52). -/
theorem MidiOut.noteOn_inRange {x : MidiOut} {n : Nat} (now : Stamp) (c : Chan) (k v : Nat) (hm : x.mode ≠ .disabled)
    (hs : x.sounding < 64) (hw : x.queue.length < 64) (h : x.inRange n = true) :
    (MidiOut.append { x with sounding := x.sounding + 1 } now [⟨.noteOn c k v, false⟩]).inRange (n + 1) = true := by
  obtain ⟨⟨-, -, -, hn⟩, -⟩ := (x.inRange_iff _).1 h
  have ho := List.countP_le_length (p := fun q : QMsg => !q.msg.isNoteOff) (l := x.queue)
  refine MidiOut.append_inRange now hm ?_ (by omega) ?_ (by omega)
  · have hone : [(⟨.noteOn c k v, false⟩ : QMsg)].countP (fun q => !q.msg.isNoteOff) = 1 := rfl
    omega
  · simp only [List.length_cons, List.length_nil]; omega

/-- A group admitted within the 64 places for messages other than note-offs (R53). -/
theorem MidiOut.append_outKept {x : MidiOut} (now : Stamp) {ms : List QMsg} (hm : x.mode ≠ .disabled)
    (hw : x.queue.length + ms.length ≤ 64) : OutKept x (x.append now ms) := by
  refine ⟨fun n h => ?_, fun h => (x.append_realTime now ms).trans h⟩
  obtain ⟨⟨-, hs, -, hn⟩, -⟩ := (x.inRange_iff _).1 h
  have h1 := List.countP_le_length (p := fun q : QMsg => !q.msg.isNoteOff) (l := x.queue)
  have h2 := List.countP_le_length (p := fun q : QMsg => !q.msg.isNoteOff) (l := ms)
  exact MidiOut.append_inRange now hm (by omega) hs (by omega) hn

/-- A message takes the place of a waiting one of its stream: neither is a note-off (R54). -/
theorem coalesceInto_counts (m : OutMsg) : ∀ q : List QMsg,
    (coalesceInto m q).length = q.length ∧
      (coalesceInto m q).countP (fun q => !q.msg.isNoteOff) = q.countP (fun q => !q.msg.isNoteOff)
  | [] => ⟨rfl, rfl⟩
  | q :: r => by
    obtain ⟨hl, hc⟩ := coalesceInto_counts m r
    unfold coalesceInto
    split
    · next h =>
      refine ⟨rfl, ?_⟩
      have hmsg : q.msg.isNoteOff = m.isNoteOff := by
        simp only [QMsg.matches, Bool.and_eq_true] at h
        generalize q.msg = a at h
        cases a <;> cases m <;> simp_all [OutMsg.sameStream, OutMsg.isNoteOff]
      simp only [List.countP_cons, hmsg]
    · exact ⟨by rw [List.length_cons, hl, List.length_cons], by rw [List.countP_cons, hc, List.countP_cons]⟩

theorem MidiOut.coalesce_outKept {x : MidiOut} (m : OutMsg) (hm : x.mode ≠ .disabled) :
    OutKept x { x with queue := coalesceInto m x.queue } := by
  refine ⟨fun n h => ?_, id⟩
  obtain ⟨hl, hc⟩ := coalesceInto_counts m x.queue
  rw [MidiOut.inRange_iff] at h ⊢
  exact ⟨by rw [hl, hc]; exact h.1, fun k => absurd k hm⟩

theorem MidiOut.handRealTime_outKept (x : MidiOut) (now : Stamp) (b : Byte) : OutKept x (x.handRealTime now b) := by
  unfold MidiOut.handRealTime
  split
  · next h =>
    have hk := MidiOut.kick_sentOn { x with realTime := x.realTime ++ [b] } now
    refine ⟨fun n k => hk.inRange k, fun _ => hk.realTime.length_le.trans ?_⟩
    have := h.2.2
    simp only [Config.realTimeRoom] at this
    simp only [List.length_append, List.length_cons, List.length_nil]
    omega
  · exact OutKept.refl x

/-! ## Output states and PANIC -/

theorem MidiOut.disable_outKept {x : MidiOut} (h : x.drained = true) : OutKept x x.disable := by
  simp only [MidiOut.drained, Bool.and_eq_true, decide_eq_true_eq, List.isEmpty_iff] at h
  refine ⟨fun n k => ?_, fun _ => Nat.zero_le _⟩
  rw [MidiOut.inRange_iff] at k ⊢
  exact ⟨k.1, fun _ => ⟨h.1.1, h.1.2⟩⟩

/-- A change of settings and status memory, into a state that is not DISABLED unless the output was, keeps the counts. -/
theorem MidiOut.outKept_of_mode {x y : MidiOut} (hq : y.queue = x.queue) (hs : y.sounding = x.sounding)
    (hr : y.realTime = x.realTime) (hm : y.mode = .disabled → x.mode = .disabled) : OutKept x y := by
  refine ⟨fun n k => ?_, fun k => hr ▸ k⟩
  rw [MidiOut.inRange_iff] at k ⊢
  rw [hq, hs]
  exact ⟨k.1, fun h => k.2 (hm h)⟩

theorem MidiOut.applySettings_outKept (x : MidiOut) (t : OutSettings) : OutKept x (x.applySettings t) := by
  have hset : OutKept x { x with settings := t } := MidiOut.outKept_of_mode rfl rfl rfl id
  unfold MidiOut.applySettings
  simp only
  split
  · split
    · next h => exact hset.trans (MidiOut.disable_outKept h)
    · exact MidiOut.outKept_of_mode rfl rfl rfl (fun h => nomatch h)
  · exact MidiOut.outKept_of_mode rfl rfl rfl (fun h => nomatch h)
  · exact MidiOut.outKept_of_mode rfl rfl rfl (fun h => nomatch h)
  · exact hset

/-- PANIC leaves sixteen messages and nothing sounding (R57). -/
theorem MidiOut.panic_inRange {x : MidiOut} {n : Nat} (now : Stamp) (h : x.inRange n = true) :
    (x.panic now).inRange 0 = true := by
  unfold MidiOut.panic
  split
  · next hm =>
    obtain ⟨⟨ho, hs, hw, -⟩, hd⟩ := (x.inRange_iff n).1 h
    exact (x.inRange_iff 0).2 ⟨⟨ho, hs, hw, (hd hm).1⟩, hd⟩
  · next hm =>
    refine (MidiOut.kick_sentOn _ now).inRange ?_
    have hcounts : allNotesOffMessages.countP (fun q => !q.msg.isNoteOff) ≤ 64 ∧ 0 ≤ 64 ∧
        allNotesOffMessages.length + 0 ≤ 128 ∧ 0 = 0 := by decide
    exact (MidiOut.inRange_iff _ _).2 ⟨hcounts, fun k => absurd k hm⟩

theorem MidiOut.panic_realTime {x : MidiOut} (now : Stamp) : (x.panic now).realTime.length ≤ x.realTime.length := by
  unfold MidiOut.panic
  split
  · exact Nat.le_refl _
  · exact (MidiOut.kick_sentOn _ now).realTime.length_le

end Sys2Proof.Machine
end

section
/-! PROOFS. The held-note table and the outputs' counts (R52, R79, R87, R102): on every output S is the number of its targets in
the table, through releases, steals and new notes. -/

namespace Sys2Proof.Machine

/-! ## Counting targets -/

/-- The targets of a list that are on an output. -/
def onOut (o : OutPort) (ts : List Target) : Nat := ts.countP (fun t => decide (t.dest = .out o))

/-- What an entry is for: input, channel and key. -/
def HeldEntry.name (e : HeldEntry) : InPort × Chan × Nat := (e.input, e.chan, e.key)

theorem heldOk_iff (held : List HeldEntry) : heldOk held = true ↔
    (∀ e ∈ held, 1 ≤ e.targets.length ∧ e.targets.length ≤ 4) ∧ held.Pairwise (fun e f => e.name ≠ f.name) := by
  simp [heldOk, HeldEntry.ok, HeldEntry.name]

theorem targetsOn_nil (o : OutPort) : targetsOn o [] = 0 := rfl

theorem targetsOn_cons (o : OutPort) (e : HeldEntry) (r : List HeldEntry) :
    targetsOn o (e :: r) = onOut o e.targets + targetsOn o r := by
  simp [targetsOn, onOut]

theorem targetsOn_append (o : OutPort) (a b : List HeldEntry) : targetsOn o (a ++ b) = targetsOn o a + targetsOn o b := by
  simp [targetsOn]

theorem targetsOn_perm (o : OutPort) {a b : List HeldEntry} (h : a.Perm b) : targetsOn o a = targetsOn o b :=
  (h.flatMap_right _).countP_eq _

/-- The count of targets does not see replay-pending sets. -/
theorem targetsOn_bare (o : OutPort) (held : List HeldEntry) : targetsOn o (held.map HeldEntry.bare) = targetsOn o held := by
  simp only [targetsOn, List.flatMap_map]
  rfl

theorem targetsOn_of_bare {a b : List HeldEntry} (h : b.map HeldEntry.bare = a.map HeldEntry.bare) (o : OutPort) :
    targetsOn o b = targetsOn o a := by
  rw [← targetsOn_bare o b, h, targetsOn_bare]

theorem heldOk_bare (held : List HeldEntry) : heldOk (held.map HeldEntry.bare) = heldOk held := by
  rw [Bool.eq_iff_iff, heldOk_iff, heldOk_iff]
  simp only [List.mem_map, forall_exists_index, and_imp, forall_apply_eq_imp_iff₂, List.pairwise_map]
  rfl

theorem heldOk_of_bare {a b : List HeldEntry} (h : b.map HeldEntry.bare = a.map HeldEntry.bare) : heldOk b = heldOk a := by
  rw [← heldOk_bare b, h, heldOk_bare]

theorem heldOk_sublist {a b : List HeldEntry} (h : b.Sublist a) (k : heldOk a = true) : heldOk b = true := by
  rw [heldOk_iff] at k ⊢
  exact ⟨fun e he => k.1 e (h.subset he), k.2.sublist h⟩

/-! ## What an operation leaves of the table -/

/-- The outputs sound the targets of the table, and `ts` besides: the targets that have left the table and are still to be
released, or have been admitted and are still to enter it. -/
def State.Carries (s : State) (ts : List Target) : Prop :=
  ∀ o, (s.midiOut o).inRange (targetsOn o s.lr.held + onOut o ts) = true

/-- The held-note table is as R79 has it, and the outputs' counts are those of its targets (R102). -/
def State.Sounding (s : State) : Prop := heldOk s.lr.held = true ∧ s.Carries []

/-- The table is as it was but for replay-pending sets, and no list of a link or an output has outgrown its limit. -/
structure TableKept (s t : State) : Prop where
  fits : Fits s t
  slots : t.lr.slots = s.lr.slots
  held : t.lr.held.map HeldEntry.bare = s.lr.held.map HeldEntry.bare
  realTime : (∀ o, (s.midiOut o).realTime.length ≤ 8) → ∀ o, (t.midiOut o).realTime.length ≤ 8

theorem TableKept.refl (s : State) : TableKept s s := ⟨Fits.refl s, rfl, rfl, id⟩

theorem TableKept.trans {s t u : State} (h : TableKept s t) (k : TableKept t u) : TableKept s u :=
  ⟨h.fits.trans k.fits, k.slots.trans h.slots, k.held.trans h.held, fun x => k.realTime (h.realTime x)⟩

theorem TableKept.length {s t : State} (h : TableKept s t) : t.lr.held.length = s.lr.held.length := by
  simpa using congrArg List.length h.held

theorem WatchOnly.midiOut {s t : State} (h : WatchOnly s t) (o : OutPort) : t.midiOut o = s.midiOut o := by
  simp [State.midiOut, h.op]

theorem WatchOnly.tableKept {s t : State} (h : WatchOnly s t) (f : Fits s t) : TableKept s t :=
  ⟨f, h.slots, h.held, fun k o => h.midiOut o ▸ k o⟩

theorem WatchOnly.carries {s t : State} (h : WatchOnly s t) {ts : List Target} (k : s.Carries ts) : t.Carries ts := fun o => by
  rw [h.midiOut, targetsOn_of_bare h.held]
  exact k o

/-- An output's record is replaced by one whose real-time list has not outgrown its limit. -/
theorem State.setOut_tableKept {s : State} {o : OutPort} {x : MidiOut}
    (h : x.realTime.length ≤ (s.midiOut o).realTime.length) : TableKept s (s.setOut o x) := by
  refine ⟨Fits.of_sl rfl, rfl, rfl, fun k p => ?_⟩
  by_cases e : p = o
  · subst e; rw [State.midiOut_setOut_same]; exact h.trans (k p)
  · rw [State.midiOut_setOut_of_ne s x e]; exact k p

/-! ## Releases -/

theorem State.mirrorOff_tableKept (s : State) (p : PerStation Bool) (e : Event) : TableKept s (s.mirrorOff p e) :=
  (s.mirrorOff_watchOnly p e).tableKept (s.mirror_fits _ e)

theorem State.offerNoteOff_tableKept (s : State) (o : OutPort) (c : Chan) (k v : Nat) : TableKept s (s.offerNoteOff o c k v) := by
  unfold State.offerNoteOff
  simp only
  split
  · exact TableKept.refl s
  · exact State.setOut_tableKept (MidiOut.append_realTime _ _ _)

theorem State.releaseTarget_tableKept (s : State) (p : PerStation Bool) (r : Nat) (t : Target) :
    TableKept s (s.releaseTarget p r t) := by
  unfold State.releaseTarget
  split
  · exact s.offerNoteOff_tableKept _ _ _ _
  · exact s.mirrorOff_tableKept _ _

theorem State.releaseTargets_tableKept (s : State) (p : PerStation Bool) (r : Nat) (ts : List Target) :
    TableKept s (s.releaseTargets p r ts) := by
  unfold State.releaseTargets
  exact foldl_rel TableKept TableKept.refl TableKept.trans (fun s t => s.releaseTarget_tableKept p r t) ts s

theorem onOut_cons (o : OutPort) (t : Target) (ts : List Target) :
    onOut o (t :: ts) = onOut o ts + if t.dest = .out o then 1 else 0 := by
  simp [onOut, List.countP_cons]

/-- The note-off of a target settles its share of S (R52, R91); a target on a DISABLED output there is none. -/
theorem State.releaseTarget_carries {s : State} {t : Target} {ts : List Target} (p : PerStation Bool) (r : Nat)
    (h : s.Carries (t :: ts)) : (s.releaseTarget p r t).Carries ts := by
  unfold State.releaseTarget
  split
  · next o ho =>
    intro q
    rw [State.offerNoteOff_lr]
    have hq := h q
    rw [onOut_cons, ho] at hq
    unfold State.offerNoteOff
    simp only
    split
    · next hm =>
      have hmode : ∀ n, (s.midiOut o).inRange n = true → n = 0 := fun n hn => by
        obtain ⟨⟨-, -, -, hS⟩, hd⟩ := (MidiOut.inRange_iff _ _).1 hn
        rw [← hS, (hd hm).1]
      have h0 := hmode _ (h o)
      rw [onOut_cons, if_pos ho] at h0
      omega
    · next hm =>
      by_cases e : q = o
      · subst e
        rw [State.midiOut_setOut_same]
        rw [if_pos rfl, ← Nat.add_assoc] at hq
        exact MidiOut.noteOff_inRange _ _ _ _ hm hq
      · rw [State.midiOut_setOut_of_ne s _ e]
        rwa [if_neg (fun he => e (Dest.out.inj he).symm)] at hq
  · next ho =>
    refine (s.mirrorOff_watchOnly _ _).carries (fun q => ?_)
    have hq := h q
    rwa [onOut_cons, ho, if_neg (by simp)] at hq

theorem State.releaseTargets_carries (p : PerStation Bool) (r : Nat) : ∀ (ts : List Target) (s : State), s.Carries ts →
    (s.releaseTargets p r ts).Carries []
  | [], _, h => h
  | _ :: ts, _, h => State.releaseTargets_carries p r ts _ (State.releaseTarget_carries p r h)

/-- Targets leave the table and are released: the table without them, and the outputs' counts with it (R91, R102). -/
theorem State.releaseTargets_sounding {s : State} (p : PerStation Bool) (r : Nat) {ts : List Target} {held : List HeldEntry}
    (hs : s.Sounding) (hok : heldOk held = true) (hcount : ∀ o, targetsOn o s.lr.held = targetsOn o held + onOut o ts) :
    (State.releaseTargets { s with lr := { s.lr with held := held } } p r ts).Sounding := by
  have hc : State.Carries { s with lr := { s.lr with held := held } } ts := fun o => by
    have := hs.2 o
    rw [hcount] at this
    exact this
  refine ⟨?_, State.releaseTargets_carries p r ts _ hc⟩
  rw [heldOk_of_bare (State.releaseTargets_held p r ts _)]
  exact hok

/-- The limits of the tables and lists that notes and controllers move, and the counts of the outputs. -/
structure Noted (s t : State) : Prop where
  fits : Fits s t
  slots : s.lr.slots.length ≤ 32 → t.lr.slots.length ≤ 32
  held : s.lr.held.length ≤ 128 → t.lr.held.length ≤ 128
  realTime : (∀ o, (s.midiOut o).realTime.length ≤ 8) → ∀ o, (t.midiOut o).realTime.length ≤ 8
  sounding : s.Sounding → t.Sounding

theorem Noted.refl (s : State) : Noted s s := ⟨Fits.refl s, id, id, id, id⟩

theorem Noted.trans {s t u : State} (h : Noted s t) (k : Noted t u) : Noted s u :=
  ⟨h.fits.trans k.fits, fun x => k.slots (h.slots x), fun x => k.held (h.held x), fun x => k.realTime (h.realTime x),
    fun x => k.sounding (h.sounding x)⟩

theorem WatchOnly.noted {s t : State} (h : WatchOnly s t) (f : Fits s t) : Noted s t :=
  ⟨f, fun k => h.slots ▸ k, fun k => by rw [(h.tableKept f).length]; exact k, (h.tableKept f).realTime,
    fun k => ⟨by rw [heldOk_of_bare h.held]; exact k.1, h.carries k.2⟩⟩

/-- A change that touches neither the links, nor the outputs, nor the held-note table and the slots. -/
theorem Noted.of_eq {s t : State} (hsl : t.sl = s.sl) (hop : t.op = s.op) (hh : t.lr.held = s.lr.held)
    (hq : t.lr.slots = s.lr.slots) : Noted s t := by
  have hout : ∀ o, t.midiOut o = s.midiOut o := fun o => by simp [State.midiOut, hop]
  refine ⟨Fits.of_sl hsl, fun k => hq ▸ k, fun k => hh ▸ k, fun k o => hout o ▸ k o, fun k => ⟨hh ▸ k.1, fun o => ?_⟩⟩
  rw [hout, hh]
  exact k.2 o

theorem State.releaseEntry_noted {s : State} {e : HeldEntry} (h : e ∈ s.lr.held) (r : Nat) : Noted s (s.releaseEntry e r) := by
  have hk := State.releaseTargets_tableKept { s with lr := { s.lr with held := s.lr.held.erase e } } e.pend r e.targets
  have hlen := State.releaseEntry_length h r
  refine ⟨hk.fits, fun k => ?_, fun k => by omega, hk.realTime, fun k => ?_⟩
  · rw [State.releaseEntry, hk.slots]; exact k
  · refine State.releaseTargets_sounding _ _ k (heldOk_sublist List.erase_sublist k.1) (fun o => ?_)
    rw [targetsOn_perm o (List.perm_cons_erase h), targetsOn_cons, Nat.add_comm]

theorem State.releaseWhere_noted (p : HeldEntry → Bool) (r : HeldEntry → Nat) :
    ∀ (n : Nat) (s : State), Noted s (State.releaseWhere p r n s)
  | 0, s => Noted.refl s
  | n + 1, s => by
    unfold State.releaseWhere
    split
    · exact Noted.refl s
    · next e he => exact (State.releaseEntry_noted (List.mem_of_find?_eq_some he) _).trans (State.releaseWhere_noted p r n _)

theorem State.releaseAll_noted (s : State) (p : HeldEntry → Bool) (r : HeldEntry → Nat) : Noted s (s.releaseAll p r) :=
  State.releaseWhere_noted p r _ s

theorem State.report_noted (s : State) (k : FaultKind) (p : Option FaultPort) : Noted s (s.report k p) :=
  (s.report_linksOnly k p).watchOnly.noted (s.report_fits k p)

end Sys2Proof.Machine
end

section
/-! PROOFS. Notes (section 5.2): a note-on enters at most one entry of at most four targets, after the old entry for its key
and, with a full table, one other have left; pedals, group releases and PANIC only take entries and targets out. -/

namespace Sys2Proof.Machine

/-! ## The offers of a note-on -/

theorem LinksOnly.tableKept {s t : State} (h : LinksOnly s t) (f : Fits s t) : TableKept s t := h.watchOnly.tableKept f

theorem State.report_tableKept (s : State) (k : FaultKind) (p : Option FaultPort) : TableKept s (s.report k p) :=
  (s.report_linksOnly k p).tableKept (s.report_fits k p)

theorem State.offerNoteOn_tableKept (s : State) (o : OutPort) (c : Chan) (k v : Nat) : TableKept s (s.offerNoteOn o c k v).1 := by
  unfold State.offerNoteOn
  simp only
  split
  · split
    · exact s.report_tableKept _ _
    · split
      · exact s.report_tableKept _ _
      · exact State.setOut_tableKept (MidiOut.append_realTime _ _ _)
  · exact TableKept.refl s

theorem onOut_append (o : OutPort) (a b : List Target) : onOut o (a ++ b) = onOut o a + onOut o b := by simp [onOut]

theorem State.report_carries {s : State} {ts : List Target} (k : FaultKind) (p : Option FaultPort) (h : s.Carries ts) :
    (s.report k p).Carries ts := (s.report_linksOnly k p).watchOnly.carries h

/-- An admitted note-on sounds its target; any other answer leaves S alone (R52, R88). -/
theorem State.offerNoteOn_carries {s : State} {t : Target} {ts : List Target} {o : OutPort} (hd : t.dest = .out o)
    (h : s.Carries ts) : (s.offerNoteOn o t.chan t.key t.vel).1.Carries
      (if (s.offerNoteOn o t.chan t.key t.vel).2 = .admitted then ts ++ [t] else ts) := by
  unfold State.offerNoteOn
  simp only
  split
  · next hm =>
    split
    · exact State.report_carries _ _ h
    · next hs =>
      split
      · exact State.report_carries _ _ h
      · next hw =>
        rw [if_pos rfl]
        intro q
        rw [State.setOut_lr, onOut_append, onOut_cons, hd]
        by_cases e : q = o
        · subst e
          rw [State.midiOut_setOut_same, if_pos rfl]
          exact MidiOut.noteOn_inRange _ _ _ _ (by rw [hm]; decide) (Nat.lt_of_not_le hs) (Nat.lt_of_not_le hw) (h q)
        · rw [State.midiOut_setOut_of_ne s _ e, if_neg (fun he => e (Dest.out.inj he).symm)]
          exact h q
  · exact h

theorem offerCandidate_tableKept (a : NoteOffers) (t : Target) : TableKept a.state (offerCandidate a t).state := by
  unfold offerCandidate
  split
  · simp only
    split <;> exact a.state.offerNoteOn_tableKept _ _ _ _
  · exact (a.state.mirrorLive_watchOnly _).tableKept (a.state.mirror_fits _ _)

theorem offerCandidate_targets_length (a : NoteOffers) (t : Target) :
    (offerCandidate a t).targets.length ≤ a.targets.length + 1 := by
  unfold offerCandidate
  split
  · simp only
    split <;> simp
  · simp

theorem offerCandidate_carries {a : NoteOffers} (t : Target) (h : a.state.Carries a.targets) :
    (offerCandidate a t).state.Carries (offerCandidate a t).targets := by
  unfold offerCandidate
  split
  · next o hd =>
    have hc := State.offerNoteOn_carries hd h
    simp only
    split
    · next hr => rwa [hr, if_pos rfl] at hc
    all_goals next hr => rwa [hr, if_neg (by decide)] at hc
  · next hd =>
    refine (a.state.mirrorLive_watchOnly _).carries (fun q => ?_)
    rw [onOut_append, onOut_cons, hd, if_neg (by simp)]
    exact h q

theorem offers_tableKept (ts : List Target) (a : NoteOffers) : TableKept a.state (ts.foldl offerCandidate a).state :=
  foldl_rel (fun a b : NoteOffers => TableKept a.state b.state) (fun a => TableKept.refl a.state)
    (fun h k => TableKept.trans h k) offerCandidate_tableKept ts a

theorem offers_targets_length : ∀ (ts : List Target) (a : NoteOffers),
    (ts.foldl offerCandidate a).targets.length ≤ a.targets.length + ts.length
  | [], _ => Nat.le_refl _
  | t :: ts, a => by
    have h1 := offerCandidate_targets_length a t
    have h2 := offers_targets_length ts (offerCandidate a t)
    rw [List.foldl_cons, List.length_cons]
    omega

theorem offers_carries : ∀ (ts : List Target) (a : NoteOffers), a.state.Carries a.targets →
    (ts.foldl offerCandidate a).state.Carries (ts.foldl offerCandidate a).targets
  | [], _, h => h
  | t :: ts, _, h => offers_carries ts _ (offerCandidate_carries t h)

/-- R82: a note-on has at most four candidates. -/
theorem candidatesFrom_length (i : InPort) (c : Chan) (key vel : Nat) : ∀ (ys : List Layer) (acc : List Target),
    acc.length ≤ 4 → (candidatesFrom i c key vel ys acc).length ≤ 4
  | [], _, h => h
  | y :: ys, acc, h => by
    unfold candidatesFrom
    simp only
    split
    · exact h
    · split
      · split
        · exact candidatesFrom_length i c key vel ys acc h
        · exact candidatesFrom_length i c key vel ys _ (by simp only [List.length_append, List.length_cons, List.length_nil]; omega)
      · exact candidatesFrom_length i c key vel ys acc h

/-! ## The entry of a note-on -/

/-- No entry of the table is for an input, channel and key. -/
def NoEntry (i : InPort) (c : Chan) (key : Nat) (held : List HeldEntry) : Prop := ∀ e ∈ held, e.name ≠ (i, c, key)

theorem HeldEntry.name_bare (e : HeldEntry) : e.bare.name = e.name := rfl

theorem NoEntry.of_bare {i : InPort} {c : Chan} {key : Nat} {a b : List HeldEntry}
    (h : b.map HeldEntry.bare = a.map HeldEntry.bare) (k : NoEntry i c key a) : NoEntry i c key b := fun e he => by
  obtain ⟨f, hf, hfe⟩ := List.mem_map.1 (h ▸ List.mem_map_of_mem (f := HeldEntry.bare) he)
  rw [← HeldEntry.name_bare, ← hfe, HeldEntry.name_bare]
  exact k f hf

theorem HeldEntry.isFor_iff_name (e : HeldEntry) (i : InPort) (c : Chan) (key : Nat) :
    e.isFor i c key = true ↔ e.name = (i, c, key) := by
  simp [HeldEntry.isFor, HeldEntry.name, and_assoc]

/-- A new entry for a key the table has none for (R79, R90). -/
theorem heldOk_append {held : List HeldEntry} {e : HeldEntry} (h : heldOk held = true)
    (hn : NoEntry e.input e.chan e.key held) (ht : 1 ≤ e.targets.length ∧ e.targets.length ≤ 4) :
    heldOk (held ++ [e]) = true := by
  rw [heldOk_iff] at h ⊢
  refine ⟨fun f hf => ?_, ?_⟩
  · rcases List.mem_append.1 hf with hf | hf
    · exact h.1 f hf
    · rw [List.mem_singleton.1 hf]; exact ht
  · rw [List.pairwise_append]
    refine ⟨h.2, List.pairwise_singleton _ _, fun f hf g hg => ?_⟩
    rw [List.mem_singleton.1 hg]
    exact hn f hf

/-- The entry leaves no other for its key behind (R79). -/
theorem noEntry_erase {held : List HeldEntry} {e : HeldEntry} (h : heldOk held = true) (he : e ∈ held) :
    NoEntry e.input e.chan e.key (held.erase e) := fun f hf => by
  have hp := ((heldOk_iff held).1 h).2.perm (List.perm_cons_erase he) (fun hne => hne.symm)
  exact ((List.pairwise_cons.1 hp).1 f hf).symm

theorem State.retrigger_noted (s : State) (i : InPort) (c : Chan) (k : Nat) : Noted s (s.retrigger i c k) := by
  unfold State.retrigger
  split
  · next e he => exact State.releaseEntry_noted (List.mem_of_find?_eq_some he) _
  · exact Noted.refl s

theorem State.retrigger_noEntry {s : State} (i : InPort) (c : Chan) (k : Nat) (h : heldOk s.lr.held = true) :
    NoEntry i c k (s.retrigger i c k).lr.held := by
  unfold State.retrigger
  split
  · next e he =>
    have hname := (HeldEntry.isFor_iff_name e i c k).1 (List.find?_some (p := fun e : HeldEntry => e.isFor i c k) he)
    have hno := noEntry_erase h (List.mem_of_find?_eq_some he)
    have hkey : NoEntry i c k (s.lr.held.erase e) := fun f hf => hname ▸ hno f hf
    exact hkey.of_bare (s.releaseEntry_held e 64)
  · next hnone =>
    intro e he hname
    exact List.find?_eq_none.1 hnone e he ((HeldEntry.isFor_iff_name e i c k).2 hname)

/-- What `steal` does: with the table full, one of its entries is released. -/
theorem State.steal_cases (s : State) : (s.lr.held.length < 128 ∧ s.steal = s) ∨
    ∃ e ∈ s.lr.held, ∃ k, s.steal = (s.releaseEntry e 64).report k (some (.input e.input)) := by
  unfold State.steal
  split
  · next h => exact .inl ⟨h, rfl⟩
  · next hfull =>
    right
    split
    · next e he => exact ⟨e, List.mem_of_find?_eq_some he, _, rfl⟩
    · split
      · next e r hr => exact ⟨e, by rw [hr]; exact List.mem_cons_self, _, rfl⟩
      · next hr => exact absurd (by rw [hr]; decide) hfull

theorem State.steal_noted (s : State) : Noted s s.steal := by
  rcases s.steal_cases with ⟨-, h⟩ | ⟨e, he, k, h⟩
  · rw [h]; exact Noted.refl s
  · rw [h]; exact (State.releaseEntry_noted he 64).trans (State.report_noted _ _ _)

/-- R87: after it there is a free place. -/
theorem State.steal_length {s : State} (h : s.lr.held.length ≤ 128) : s.steal.lr.held.length ≤ 127 := by
  rcases s.steal_cases with ⟨hl, hs⟩ | ⟨e, he, k, hs⟩
  · rw [hs]; omega
  · have := State.releaseEntry_length he 64
    rw [hs, (State.report_linksOnly _ _ _).lr]
    omega

theorem State.steal_noEntry {s : State} {i : InPort} {c : Chan} {k : Nat} (h : NoEntry i c k s.lr.held) :
    NoEntry i c k s.steal.lr.held := by
  rcases s.steal_cases with ⟨-, hs⟩ | ⟨e, -, f, hs⟩
  · rwa [hs]
  · rw [hs, (State.report_linksOnly _ _ _).lr]
    exact NoEntry.of_bare (s.releaseEntry_held e 64) (fun f hf => h f (List.mem_of_mem_erase hf))

/-- The offers of a note-on before any was made. -/
def State.noOffers (s : State) : NoteOffers := { state := s, targets := [], pend := ⟨false, false⟩ }

theorem State.sound_eq (s : State) (i : InPort) (c : Chan) (k : Nat) (ts : List Target) :
    (s.sound i c k ts = (ts.foldl offerCandidate s.noOffers).state ∧ (ts.foldl offerCandidate s.noOffers).targets = []) ∨
    ((ts.foldl offerCandidate s.noOffers).targets ≠ [] ∧ s.sound i c k ts =
      { (ts.foldl offerCandidate s.noOffers).state with
        lr := { (ts.foldl offerCandidate s.noOffers).state.lr with
          held := (ts.foldl offerCandidate s.noOffers).state.lr.held ++
            [{ input := i, chan := c, key := k, state := .held, targets := (ts.foldl offerCandidate s.noOffers).targets,
               pend := (ts.foldl offerCandidate s.noOffers).pend }] } }) := by
  unfold State.sound State.noOffers
  simp only
  split
  · next h => exact .inl ⟨rfl, List.isEmpty_iff.1 h⟩
  · next h => exact .inr ⟨fun he => h (List.isEmpty_iff.2 he), rfl⟩

/-- The lists `sound` does not put an entry into, and the one place it may take. -/
theorem State.sound_limits (s : State) (i : InPort) (c : Chan) (k : Nat) (ts : List Target) :
    Fits s (s.sound i c k ts) ∧ (s.sound i c k ts).lr.slots = s.lr.slots ∧
      (s.sound i c k ts).lr.held.length ≤ s.lr.held.length + 1 ∧
      ((∀ o, (s.midiOut o).realTime.length ≤ 8) → ∀ o, ((s.sound i c k ts).midiOut o).realTime.length ≤ 8) := by
  have hk : TableKept s _ := offers_tableKept ts s.noOffers
  have hlen := hk.length
  rcases s.sound_eq i c k ts with ⟨h, -⟩ | ⟨-, h⟩
  · rw [h]
    exact ⟨hk.fits, hk.slots, by omega, hk.realTime⟩
  · rw [h]
    exact ⟨hk.fits, hk.slots, by simp only [List.length_append, List.length_cons, List.length_nil]; omega, hk.realTime⟩

theorem State.sound_sounding {s : State} {i : InPort} {c : Chan} {k : Nat} {ts : List Target} (h : s.Sounding)
    (hn : NoEntry i c k s.lr.held) (hl : ts.length ≤ 4) : (s.sound i c k ts).Sounding := by
  have hk : TableKept s _ := offers_tableKept ts s.noOffers
  have hc := offers_carries ts s.noOffers h.2
  have hlen : (ts.foldl offerCandidate s.noOffers).targets.length ≤ 0 + ts.length := offers_targets_length ts s.noOffers
  have hok : heldOk (ts.foldl offerCandidate s.noOffers).state.lr.held = true := by rw [heldOk_of_bare hk.held]; exact h.1
  rcases s.sound_eq i c k ts with ⟨e, h0⟩ | ⟨h0, e⟩
  · rw [h0] at hc
    rw [e]
    exact ⟨hok, hc⟩
  · rw [e]
    refine ⟨heldOk_append hok (hn.of_bare hk.held) ⟨List.length_pos_iff.2 h0, by simp only; omega⟩, fun o => ?_⟩
    have := hc o
    simp only [targetsOn_append, targetsOn_cons, targetsOn_nil]
    exact this

theorem State.noteOnEvent_noted (s : State) (i : InPort) (c : Chan) (k v : Nat) : Noted s (s.noteOnEvent i c k v) := by
  have hre := s.retrigger_noted i c k
  unfold State.noteOnEvent
  simp only
  split
  · exact hre
  · have hst := hre.trans (State.steal_noted _)
    obtain ⟨hfits, hslots, hheld, hrt⟩ := State.sound_limits (s.retrigger i c k).steal i c k
      ((s.retrigger i c k).candidates i c k v)
    refine ⟨hst.fits.trans hfits, fun h => hslots ▸ hst.slots h, fun h => ?_, fun h => hrt (hst.realTime h), fun h => ?_⟩
    · have := State.steal_length (hre.held h)
      omega
    · exact State.sound_sounding (hst.sounding h) (State.steal_noEntry (State.retrigger_noEntry i c k h.1))
        (candidatesFrom_length i c k v _ [] (by decide))

/-! ## Note-off under a pedal -/

/-- The targets of an entry are those that follow the pedal and those that ignore it (R93). -/
theorem onOut_sustain (o : OutPort) (ts : List Target) :
    onOut o ts = onOut o (ts.filter (fun t => decide (t.sustain = .follow)))
      + onOut o (ts.filter (fun t => decide (t.sustain = .ignore))) := by
  have hnot : ∀ t : Target, decide (t.sustain = .ignore) = !decide (t.sustain = .follow) := fun t => by
    cases t.sustain <;> rfl
  simp only [hnot]
  rw [← onOut_append]
  exact ((List.filter_append_perm _ ts).countP_eq _).symm

/-- Of one input, channel and key there is one entry, so replacing it in its place changes it alone. -/
theorem replaceEntry_perm {held : List HeldEntry} {e f : HeldEntry} (h : heldOk held = true) (he : e ∈ held) :
    (held.map (fun x => if x = e then f else x)).Perm (f :: held.erase e) := by
  have hno := noEntry_erase h he
  refine ((List.perm_cons_erase he).map _).trans ?_
  rw [List.map_cons, if_pos rfl]
  refine List.Perm.cons _ (List.Perm.of_eq ?_)
  refine (List.map_congr_left (fun x hx => if_neg (fun hxe => hno x hx (by rw [hxe]; rfl)))).trans (List.map_id _)

theorem heldOk_replaceEntry {held : List HeldEntry} {e f : HeldEntry} (h : heldOk held = true) (hname : f.name = e.name)
    (ht : 1 ≤ f.targets.length ∧ f.targets.length ≤ 4) : heldOk (held.map (fun x => if x = e then f else x)) = true := by
  have hn : ∀ x : HeldEntry, (if x = e then f else x).name = x.name := fun x => by
    split
    · next hx => rw [hx, hname]
    · rfl
  rw [heldOk_iff] at h ⊢
  refine ⟨fun x hx => ?_, ?_⟩
  · obtain ⟨y, hy, rfl⟩ := List.mem_map.1 hx
    split
    · exact ht
    · exact h.1 y hy
  · simp only [List.pairwise_map, hn]
    exact h.2

theorem State.sustainEntry_noted {s : State} {e : HeldEntry} (he : e ∈ s.lr.held) (r : Nat) : Noted s (s.sustainEntry e r) := by
  have hk : ∀ held : List HeldEntry, held.length ≤ s.lr.held.length →
      (s.Sounding → heldOk held = true ∧ ∀ o, targetsOn o s.lr.held =
        targetsOn o held + onOut o (e.targets.filter (fun t => decide (t.sustain = .ignore)))) →
      Noted s (State.releaseTargets { s with lr := { s.lr with held := held } } e.pend r
        (e.targets.filter (fun t => decide (t.sustain = .ignore)))) := fun held hlen hs => by
    have ht := State.releaseTargets_tableKept { s with lr := { s.lr with held := held } } e.pend r
      (e.targets.filter (fun t => decide (t.sustain = .ignore)))
    have htl := ht.length.trans_le hlen
    refine ⟨ht.fits, fun k => ht.slots ▸ k, htl.trans, ht.realTime, fun k => ?_⟩
    exact State.releaseTargets_sounding _ _ k (hs k).1 (hs k).2
  have hcount : ∀ o, targetsOn o s.lr.held = onOut o e.targets + targetsOn o (s.lr.held.erase e) := fun o => by
    rw [targetsOn_perm o (List.perm_cons_erase he), targetsOn_cons]
  unfold State.sustainEntry
  simp only
  split
  · next hempty =>
    refine hk _ List.length_erase_le (fun hs => ⟨heldOk_sublist List.erase_sublist hs.1, fun o => ?_⟩)
    have h0 : onOut o (e.targets.filter (fun t => decide (t.sustain = .follow))) = 0 := by rw [List.isEmpty_iff.1 hempty]; rfl
    have := onOut_sustain o e.targets
    have := hcount o
    omega
  · next hkeep =>
    refine hk _ (by rw [List.length_map]) (fun hs => ?_)
    have hmem := ((heldOk_iff _).1 hs.1).1 e he
    have hfl := List.length_filter_le (fun t : Target => decide (t.sustain = .follow)) e.targets
    refine ⟨heldOk_replaceEntry hs.1 rfl ⟨?_, ?_⟩, fun o => ?_⟩
    · exact List.length_pos_iff.2 (fun h => hkeep (List.isEmpty_iff.2 h))
    · exact hfl.trans hmem.2
    · rw [targetsOn_perm o (replaceEntry_perm hs.1 he), targetsOn_cons]
      have := onOut_sustain o e.targets
      have := hcount o
      simp only
      omega

theorem State.noteOffEvent_noted (s : State) (i : InPort) (c : Chan) (k r : Nat) (b : Bool) : Noted s (s.noteOffEvent i c k r b) := by
  unfold State.noteOffEvent
  split
  · exact Noted.refl s
  · next e he =>
    have hmem := List.mem_of_find?_eq_some he
    split
    · exact Noted.refl s
    · split
      · exact State.sustainEntry_noted hmem r
      · exact State.releaseEntry_noted hmem r

/-! ## Group releases, PANIC and RESTART -/

theorem State.sustainEvent_noted (s : State) (i : InPort) (c : Chan) (b : Bool) : Noted s (s.sustainEvent i c b) := by
  unfold State.sustainEvent
  split
  · exact Noted.refl s
  · exact s.releaseAll_noted _ _

theorem State.allNotesOffEvent_noted (s : State) (i : InPort) (c : Chan) : Noted s (s.allNotesOffEvent i c) :=
  s.releaseAll_noted _ _

theorem State.restartNotes_noted (s : State) : Noted s s.restartNotes := s.releaseAll_noted _ _

/-- A change of the filter slots that leaves no more of them. -/
theorem State.slots_noted {s : State} {q : List Slot} (h : s.lr.slots.length ≤ 32 → q.length ≤ 32) :
    Noted s { s with lr := { s.lr with slots := q } } := ⟨Fits.of_sl rfl, h, id, id, id⟩

theorem State.inputLostEvent_noted (s : State) (i : InPort) : Noted s (s.inputLostEvent i) :=
  (s.releaseAll_noted _ _).trans (State.slots_noted (fun h => (List.length_filter_le _ _).trans h))

/-- PANIC: nothing is held and nothing sounds (R57, R101). -/
theorem State.panic_noted (s : State) : Noted s s.panic := by
  have hout : ∀ o, s.panic.midiOut o = (s.midiOut o).panic s.now := fun o => by
    have h := (State.panicStations_watchOnly { s with op := s.op.map (MidiOut.panic · s.now) }).midiOut o
    refine h.trans ?_
    cases o <;> rfl
  have hfits : Fits s { s with op := s.op.map (MidiOut.panic · s.now) } := Fits.of_sl rfl
  refine ⟨(hfits.trans (State.panicStations_fits _)).trans (Fits.of_sl rfl), fun _ => Nat.zero_le _,
    fun _ => Nat.zero_le _, fun k o => ?_, fun k => ⟨rfl, fun o => ?_⟩⟩
  · rw [hout]; exact (MidiOut.panic_realTime _).trans (k o)
  · rw [hout]; exact MidiOut.panic_inRange _ (k.2 o)

end Sys2Proof.Machine
end

section
/-! PROOFS. Program messages, staging and swaps, controllers and the inputs keep the limits of the held-note table, the slots,
the outputs and the link queues. -/

namespace Sys2Proof.Machine

/-! ## Outputs -/

/-- An output's record is replaced by one that has not outgrown its limits. -/
theorem State.setOut_noted {s : State} {o : OutPort} {x : MidiOut} (h : OutKept (s.midiOut o) x) : Noted s (s.setOut o x) := by
  refine ⟨Fits.of_sl rfl, id, id, fun k p => ?_, fun k => ⟨k.1, fun p => ?_⟩⟩
  · by_cases e : p = o
    · subst e; rw [State.midiOut_setOut_same]; exact h.realTime (k p)
    · rw [State.midiOut_setOut_of_ne s x e]; exact k p
  · by_cases e : p = o
    · subst e; rw [State.midiOut_setOut_same]; exact h.range _ (k.2 p)
    · rw [State.midiOut_setOut_of_ne s x e]; exact k.2 p

theorem State.offerGroup_noted (s : State) (o : OutPort) (ms : List OutMsg) : Noted s (s.offerGroup o ms).1 := by
  unfold State.offerGroup
  simp only
  split
  · next hm =>
    split
    · next hw =>
      refine State.setOut_noted (MidiOut.append_outKept _ (by rw [hm]; decide) ?_)
      rw [List.length_map]
      exact hw
    · exact s.report_noted _ _
  · exact Noted.refl s

theorem State.offerCoalescible_noted (s : State) (o : OutPort) (m : OutMsg) : Noted s (s.offerCoalescible o m).1 := by
  unfold State.offerCoalescible
  simp only
  split
  · next hm =>
    have hmode : (s.midiOut o).mode ≠ .disabled := by rw [hm]; decide
    split
    · exact State.setOut_noted (MidiOut.coalesce_outKept _ hmode)
    · split
      · next hw => exact State.setOut_noted (MidiOut.append_outKept _ hmode hw)
      · exact s.report_noted _ _
  · exact Noted.refl s

theorem State.mirrorLive_noted (s : State) (e : Event) : Noted s (s.mirrorLive e).1 :=
  (s.mirrorLive_watchOnly e).noted (s.mirror_fits _ e)

theorem State.sendProgram_noted (s : State) (e : ProgEntry) : Noted s (s.sendProgram e).1 := by
  unfold State.sendProgram
  split
  · exact s.offerGroup_noted _ _
  · exact s.mirrorLive_noted _

theorem State.sendPrograms_noted (s : State) (es : List ProgEntry) : Noted s (s.sendPrograms es).1 := by
  unfold State.sendPrograms
  refine foldl_rel (fun a b : State × Bool => Noted a.1 b.1) (fun a => Noted.refl a.1) (fun h k => Noted.trans h k) ?_ es (s, false)
  exact fun a e => a.1.sendProgram_noted e

theorem State.handRealTime_noted (s : State) (b : Byte) : Noted s (s.handRealTime b) := by
  have hout : ∀ o, (s.handRealTime b).midiOut o = (s.midiOut o).handRealTime s.now b := fun o => by cases o <;> rfl
  have hkept : ∀ o, OutKept (s.midiOut o) ((s.handRealTime b).midiOut o) := fun o => by
    rw [hout]; exact MidiOut.handRealTime_outKept _ _ _
  exact ⟨Fits.of_sl rfl, id, id, fun k o => (hkept o).realTime (k o), fun k => ⟨k.1, fun o => (hkept o).range _ (k.2 o)⟩⟩

/-! ## Staging and swaps -/

/-- A change of the maps, the claim and the lock alone. -/
theorem State.maps_noted (s : State) (m : LiveMap) (g : Option Staging) (c : Option CueClaim) (l : Option Link) :
    Noted s { s with lr := { s.lr with live := m, staged := g, claim := c, lock := l } } := Noted.of_eq rfl rfl rfl rfl

theorem State.stage_noted (s : State) (n : Nat) (p : SwapPoint) (o : Origin) : Noted s (s.stage n p o) := s.maps_noted _ _ _ _

theorem State.settleClaim_noted (s : State) : Noted s s.settleClaim := by
  unfold State.settleClaim
  split
  · exact (s.stage_noted _ _ _).trans (State.maps_noted _ _ _ _ _)
  · exact Noted.refl s

theorem State.unstage_noted (s : State) : Noted s s.unstage := (s.maps_noted _ _ _ _).trans (State.settleClaim_noted _)

theorem State.stageCommand_noted (s : State) (c n : Nat) : Noted s (s.stageCommand c n) := by
  have hclear : Noted s { s with lr := { s.lr with claim := none } } := s.maps_noted _ _ _ _
  unfold State.stageCommand
  simp only
  split
  · split
    · exact s.maps_noted _ _ _ _
    · exact hclear.trans (State.stage_noted _ _ _ _)
  · exact hclear.trans (State.stage_noted _ _ _ _)

theorem State.withdraw_noted (s : State) (c : Nat) : Noted s (s.withdraw c) := by
  have hun : ∀ u, Noted s u → Noted s (if u.lr.staged.map Staging.origin = some (.cue c) then u.unstage else u) := fun u h => by
    split
    · exact h.trans u.unstage_noted
    · exact h
  refine hun _ ?_
  split
  · exact s.maps_noted _ _ _ _
  · exact Noted.refl s

theorem State.sceneNotice_noted (s : State) (c : SceneCause) (d : Option Nat) (o : Option Origin) :
    Noted s (s.sceneNotice c d o) := (s.sceneNotice_linksOnly c d o).watchOnly.noted (s.broadcast_fits _ _)

theorem State.releaseLock_noted (s : State) : Noted s s.releaseLock := s.releaseLock_watchOnly.noted s.releaseLock_fits

theorem State.swap_noted (s : State) (g : Staging) : Noted s (s.swap g) := by
  have hlive : Noted s (s.makeLive g) := s.maps_noted _ _ _ _
  exact ((hlive.trans (State.sendPrograms_noted _ _)).trans (State.sceneNotice_noted _ _ _ _)).trans (State.unstage_noted _)

theorem State.skip_noted (s : State) (g : Staging) : Noted s (s.skip g) :=
  ((s.maps_noted _ _ _ _).trans (State.sceneNotice_noted _ _ _ _)).trans (State.settleClaim_noted _)

theorem State.reachPoint_noted (s : State) (g : Staging) : Noted s (s.reachPoint g) := by
  unfold State.reachPoint
  split
  · exact s.swap_noted g
  · exact s.skip_noted g

theorem State.routerBeat_noted (s : State) (b : Bool) : Noted s (s.routerBeat b) := by
  unfold State.routerBeat
  split
  · exact Noted.refl s
  · split
    · exact s.reachPoint_noted _
    · split
      · exact s.reachPoint_noted _
      · exact Noted.refl s
    · exact Noted.refl s
    · exact Noted.refl s

theorem State.swapCommand_noted (s : State) (c n : Nat) : Noted s (s.swapCommand c n).1 := by
  have hstaged : ∀ g : Staging,
      Noted s (State.swap { s with lr := { s.lr with claim := none, staged := some g } } g) := fun g =>
    (s.maps_noted _ _ _ _).trans (State.swap_noted _ g)
  unfold State.swapCommand
  split
  · split
    · split
      · exact s.swap_noted _
      · exact hstaged _
    · exact hstaged _
  · exact (s.maps_noted _ _ _ _).trans (State.sceneNotice_noted _ _ _ _)

theorem State.restartMap_noted (s : State) : Noted s s.restartMap := by
  have hclear : Noted s { s with lr := { s.lr with staged := none, claim := none } } := s.maps_noted _ _ _ _
  unfold State.restartMap
  simp only
  split
  · exact hclear
  · exact hclear.trans (State.releaseLock_noted _)

/-! ## Controllers -/

theorem State.sendCoalescible_noted (s : State) (d : Dest) (m : OutMsg) (e : Event) : Noted s (s.sendCoalescible d m e) := by
  unfold State.sendCoalescible
  split
  · exact s.offerCoalescible_noted _ _
  · exact s.mirrorLive_noted _

theorem State.sendSlot_noted (s : State) (k : SlotKey) (f : Nat) : Noted s (s.sendSlot k f) :=
  foldl_rel Noted Noted.refl Noted.trans (fun s _ => s.sendCoalescible_noted _ _ _) _ s

theorem State.bendEvent_noted (s : State) (i : InPort) (c : Chan) (v : Nat) : Noted s (s.bendEvent i c v) :=
  foldl_rel Noted Noted.refl Noted.trans (fun s _ => s.sendCoalescible_noted _ _ _) _ s

theorem State.programEvent_noted (s : State) (i : InPort) (c : Chan) (p : Nat) : Noted s (s.programEvent i c p) :=
  foldl_rel Noted Noted.refl Noted.trans (fun s _ => s.sendProgram_noted _) _ s

/-- A slot is taken from the list, so there is a place for it (R106, R107). -/
theorem takeSlot_length (slots : List Slot) (k : SlotKey) (h : slots.length ≤ 32) : (takeSlot slots k).2.length ≤ 31 := by
  unfold takeSlot
  split
  · next q hq =>
    have hkey : q.key = k := of_decide_eq_true (List.find?_some (p := fun q : Slot => decide (q.key = k)) hq)
    have hlt : (slots.filter (fun q => decide (q.key ≠ k))).length < slots.length :=
      List.length_filter_lt_length_iff_exists.2 ⟨q, List.mem_of_find?_eq_some hq, by simp [hkey]⟩
    exact Nat.le_of_lt_succ (Nat.lt_of_lt_of_le hlt h)
  · by_cases hroom : slots.length < Config.slotRoom
    · simp only [if_pos hroom]
      exact Nat.le_of_lt_succ hroom
    · simp only [if_neg hroom, List.length_tail]
      omega

theorem State.slotTakes_noted (s : State) (k : SlotKey) (v a d m : Nat) : Noted s (s.slotTakes k v a d m) := by
  have hput : ∀ q : Slot, Noted s { s with lr := { s.lr with slots := (takeSlot s.lr.slots k).2 ++ [q] } } := fun q =>
    State.slots_noted (fun h => by
      have := takeSlot_length s.lr.slots k h
      simp only [List.length_append, List.length_cons, List.length_nil]
      omega)
  unfold State.slotTakes
  simp only
  split
  · exact hput _
  · split
    · split
      · exact (hput _).trans (State.sendSlot_noted _ _ _)
      · exact hput _
    · exact hput _

/-- A slot replaced in its place leaves as many slots. -/
theorem State.replaceSlot_noted (s : State) (q : Slot) :
    Noted s { s with lr := { s.lr with slots := replaceSlot s.lr.slots q } } :=
  State.slots_noted (fun h => by rw [replaceSlot, List.length_map]; exact h)

theorem State.slotExpiry_noted (s : State) (k : SlotKey) : Noted s (s.slotExpiry k) := by
  unfold State.slotExpiry
  split
  · exact Noted.refl s
  · split
    · exact Noted.refl s
    · simp only
      split
      · exact s.replaceSlot_noted _
      · exact (s.replaceSlot_noted _).trans (State.sendSlot_noted _ _ _)

theorem State.forwardTimeExpiry_noted (s : State) (k : SlotKey) : Noted s (s.forwardTimeExpiry k) := by
  unfold State.forwardTimeExpiry
  split
  · exact Noted.refl s
  · exact s.replaceSlot_noted _

/-! ## Inputs -/

theorem State.setIn_noted (s : State) (i : InPort) (x : MidiIn) : Noted s (s.setIn i x) := Noted.of_eq rfl rfl rfl rfl

theorem State.sustainMessage_noted (s : State) (i : InPort) (c : Chan) (v : Nat) : Noted s (s.sustainMessage i c v) := by
  unfold State.sustainMessage
  simp only
  split
  · exact Noted.refl s
  · exact (s.setIn_noted _ _).trans (State.sustainEvent_noted _ _ _ _)

theorem State.handleMessage_noted (s : State) (i : InPort) (c : Chan) (m : ChanMsg) : Noted s (s.handleMessage i c m) := by
  cases m with
  | noteOn k v =>
    simp only [State.handleMessage]
    split
    · exact s.noteOffEvent_noted _ _ _ _ _
    · exact s.noteOnEvent_noted _ _ _ _
  | noteOff k v => exact s.noteOffEvent_noted _ _ _ _ _
  | polyPressure k v => exact Noted.refl s
  | control n v =>
    simp only [State.handleMessage]
    split
    · exact s.sustainMessage_noted _ _ _
    · split
      · exact s.allNotesOffEvent_noted _ _
      · split
        · exact Noted.refl s
        · exact s.slotTakes_noted _ _ _ _ _
  | program p => exact s.programEvent_noted _ _ _
  | pressure v => exact s.slotTakes_noted _ _ _ _ _
  | bend a b => exact s.bendEvent_noted _ _ _

theorem State.completeMessage_noted (s : State) (i : InPort) (c : Chan) (m : ChanMsg) : Noted s (s.completeMessage i c m) := by
  unfold State.completeMessage
  split
  · exact s.handleMessage_noted i c m
  · split
    · exact s.handleMessage_noted i c m
    · exact Noted.refl s

theorem State.byteSeen_noted (s : State) (i : InPort) (b : Bool) : Noted s (s.byteSeen i b) := s.setIn_noted _ _

theorem State.midiByte_noted (s : State) (i : InPort) (b : Byte) : Noted s (s.midiByte i b) := by
  have hset : ∀ x, Noted s ((s.byteSeen i (decide (b = 0xFE#8))).setIn i x) := fun x =>
    (s.byteSeen_noted i _).trans (State.setIn_noted _ _ _)
  unfold State.midiByte
  split
  · simp only
    split
    · exact s.byteSeen_noted i _
    · split
      · exact hset _
      · split
        · exact hset _
        · exact (hset _).trans (State.completeMessage_noted _ _ _ _)
  · exact Noted.refl s

theorem State.midiBytes_noted (s : State) (i : InPort) (bs : List Byte) : Noted s (s.midiBytes i bs) :=
  foldl_rel Noted Noted.refl Noted.trans (fun s b => s.midiByte_noted i b) bs s

theorem State.messageArrives_noted (s : State) (i : InPort) (c : Chan) (m : ChanMsg) : Noted s (s.messageArrives i c m) := by
  unfold State.messageArrives
  split
  · exact ((s.byteSeen_noted i _).trans (State.setIn_noted _ _ _)).trans (State.completeMessage_noted _ _ _ _)
  · exact Noted.refl s

theorem State.framingError_noted (s : State) (i : InPort) : Noted s (s.framingError i) := by
  unfold State.framingError
  split
  · exact ((s.byteSeen_noted i _).trans (State.setIn_noted _ _ _)).trans (State.report_noted _ _ _)
  · exact Noted.refl s

theorem State.sensingLoss_noted (s : State) (i : InPort) : Noted s (s.sensingLoss i) := by
  unfold State.sensingLoss
  simp only
  split
  · exact ((s.setIn_noted _ _).trans (State.inputLostEvent_noted _ _)).trans (State.report_noted _ _ _)
  · exact Noted.refl s

theorem State.dropChannel_noted (s : State) (i : InPort) (c : Chan) : Noted s (s.dropChannel i c) :=
  (s.setIn_noted _ _).trans (State.allNotesOffEvent_noted _ _ _)

theorem State.applyInput_noted (s : State) (i : InPort) (t : InSettings) : Noted s (s.applyInput i t) := by
  unfold State.applyInput
  simp only
  split
  · exact (s.setIn_noted _ _).trans (State.inputLostEvent_noted _ _)
  · exact s.setIn_noted _ _
  · exact (s.setIn_noted _ _).trans (foldl_rel Noted Noted.refl Noted.trans (fun s c => s.dropChannel_noted i c) _ _)
  · exact s.setIn_noted _ _

end Sys2Proof.Machine
end

section
/-! PROOFS. The ranges of the engine's and the sequencer's items (R1, R118, R121), and what the Tempo Engine's own operations
do to them: `Within`, the relation every operation inside a step keeps. -/

namespace Sys2Proof.Machine

/-! ## The ranges, item by item -/

/-- A bar of a song, or a count-in bar while COUNTING (R1). -/
abbrev BarRange (bar : Int) (tr : Transport) : Prop := (1 ≤ bar ∧ bar ≤ 9999) ∨ (-4 ≤ bar ∧ bar ≤ -1 ∧ tr = .counting)

/-- Every item of the engine within R1, and beat 1 while STOPPED. -/
structure TempoEngine.Ranged (te : TempoEngine) : Prop where
  tempo : tempoOk te.tempo = true
  acc : te.acc < 12500000
  meter : meterOk te.meter = true
  pendingMeter : te.pendingMeter.all meterOk = true
  beat : 1 ≤ te.pos.beat ∧ te.pos.beat ≤ te.meter
  bar : BarRange te.pos.bar te.transport
  countIn : te.countIn ≤ 4
  clockCount : te.clockCount ≤ 24
  ramp : te.ramp.all Ramp.ok = true
  segue : te.segue.all PendingSegue.ok = true
  history : ∀ d ∈ te.history, 200000 ≤ d ∧ d ≤ 2000000
  rest : te.transport.ticking = false → te.pos.beat = 1

theorem TempoEngine.ranged_iff {te : TempoEngine} (h : te.ok = true) : te.Ranged ↔ te.inRange = true := by
  have hrest : te.transport.ticking = false → te.pos.beat = 1 := fun ht => by
    simp only [TempoEngine.ok, ht, Bool.false_or, Bool.and_eq_true, decide_eq_true_eq] at h
    exact h.2.1.1.1
  simp only [TempoEngine.inRange, Bool.and_eq_true, decide_eq_true_eq, List.all_eq_true]
  constructor
  · intro k
    exact ⟨⟨⟨⟨⟨⟨⟨⟨⟨k.tempo, k.acc⟩, k.meter⟩, k.pendingMeter⟩, k.beat⟩, k.bar⟩, k.countIn, k.clockCount⟩, k.ramp⟩, k.segue⟩,
      k.history⟩
  · rintro ⟨⟨⟨⟨⟨⟨⟨⟨⟨h1, h2⟩, h3⟩, h4⟩, h5⟩, h6⟩, h7, h8⟩, h9⟩, h10⟩, h11⟩
    exact ⟨h1, h2, h3, h4, h5, h6, h7, h8, h9, h10, h11, hrest⟩

/-- The songs and cues of the tables and of the latched cues within R118 and R121. -/
structure CueSeq.Ranged (c : CueSeq) : Prop where
  songs : ∀ e ∈ c.songs, e.2.ok = true
  cues : ∀ e ∈ c.cues, e.2.record.ok = true
  current : c.current.all (fun x => x.record.ok) = true
  latchedNext : c.latchedNext.all (fun x => x.record.ok) = true

theorem CueSeq.ranged_iff (c : CueSeq) : c.Ranged ↔ c.inRange = true := by
  simp only [CueSeq.inRange, Bool.and_eq_true, List.all_eq_true]
  exact ⟨fun h => ⟨⟨⟨h.songs, h.cues⟩, h.current⟩, h.latchedNext⟩, fun ⟨⟨⟨h1, h2⟩, h3⟩, h4⟩ => ⟨h1, h2, h3, h4⟩⟩

theorem Table.mem_of_look {α : Type} {t : Table α} {k : Nat} {x : α} (h : Table.look t k = some x) : (k, x) ∈ t := by
  induction t with
  | nil => simp [Table.look] at h
  | cons e r ih =>
    simp only [Table.look] at h
    split at h
    · next hk => rw [← hk, ← Option.some.inj h]; exact List.mem_cons_self
    · exact List.mem_cons_of_mem _ (ih h)

theorem Table.mem_put {α : Type} {t : Table α} {k : Nat} {x : α} {e : Nat × α} (h : e ∈ Table.put t k x) :
    e = (k, x) ∨ e ∈ t := by
  induction t with
  | nil => exact .inl (List.mem_singleton.1 h)
  | cons d r ih =>
    unfold Table.put at h
    split at h
    · exact (List.mem_cons.1 h)
    · split at h
      · exact (List.mem_cons.1 h).imp id (List.mem_cons_of_mem _)
      · rcases List.mem_cons.1 h with h | h
        · exact .inr (h ▸ List.mem_cons_self)
        · exact (ih h).imp id (List.mem_cons_of_mem _)

theorem CueSeq.Ranged.song {c : CueSeq} (h : c.Ranged) {n : Nat} {g : Song} (k : Table.look c.songs n = some g) : g.ok = true :=
  h.songs _ (Table.mem_of_look k)

theorem CueSeq.Ranged.cue {c : CueSeq} (h : c.Ranged) {n : Nat} {x : CueSlot} (k : Table.look c.cues n = some x) :
    x.record.ok = true := h.cues _ (Table.mem_of_look k)

/-- A slot of the cue table is replaced by one with a record in range. -/
theorem CueSeq.Ranged.put {c : CueSeq} (h : c.Ranged) (n : Nat) {x : CueSlot} (k : x.record.ok = true) :
    ∀ e ∈ Table.put c.cues n x, e.2.record.ok = true := fun e he => by
  rcases Table.mem_put he with he | he
  · rw [he]; exact k
  · exact h.cues e he

/-- The engine, the sequencer and the store within their ranges. -/
structure State.Ranged (s : State) : Prop where
  te : s.te.Ranged
  cs : s.cs.Ranged
  st : s.st.inRange = true

/-! ## What every operation inside a step keeps -/

/-- No list has outgrown its limit, the outputs' counts are those of the held-note table, and, when the operands are as `p`
says, no item has left its range. -/
structure Within (p : Prop) (s t : State) : Prop extends Noted s t where
  history : s.te.history.length ≤ 4 → t.te.history.length ≤ 4
  ranged : p → s.Ranged → t.Ranged

theorem Within.refl {p : Prop} (s : State) : Within p s s := ⟨Noted.refl s, id, fun _ => id⟩

theorem Within.trans {p : Prop} {s t u : State} (h : Within p s t) (k : Within p t u) : Within p s u :=
  ⟨h.toNoted.trans k.toNoted, fun x => k.history (h.history x), fun hp x => k.ranged hp (h.ranged hp x)⟩

/-- The operands are as they must be where the state is within its ranges. -/
theorem Within.of_ranged {p q : Prop} {s t : State} (h : Within p s t) (hp : q → s.Ranged → p) : Within q s t :=
  ⟨h.toNoted, h.history, fun hq x => h.ranged (hp hq x) x⟩

theorem Within.mono {p q : Prop} {s t : State} (h : Within p s t) (hp : q → p) : Within q s t :=
  h.of_ranged (fun hq _ => hp hq)

/-- A change of the ports alone. -/
theorem Noted.within {p : Prop} {s t : State} (h : Noted s t) (hte : t.te = s.te) (hcs : t.cs = s.cs) (hst : t.st = s.st) :
    Within p s t := ⟨h, fun k => hte ▸ k, fun _ k => ⟨hte ▸ k.te, hcs ▸ k.cs, hst ▸ k.st⟩⟩

theorem PortsOnly.within {p : Prop} {s t : State} (h : PortsOnly s t) (k : Noted s t) : Within p s t := k.within h.te h.cs h.st

theorem RouterOnly.within {p : Prop} {s t : State} (h : RouterOnly s t) (k : Noted s t) : Within p s t := h.portsOnly.within k

theorem WatchOnly.within {p : Prop} {s t : State} (h : WatchOnly s t) (f : Fits s t) : Within p s t :=
  h.routerOnly.within (h.noted f)

theorem LinksOnly.within {p : Prop} {s t : State} (h : LinksOnly s t) (f : Fits s t) : Within p s t := h.watchOnly.within f

theorem State.withTe_within {p : Prop} {s : State} {te : TempoEngine} (hh : s.te.history.length ≤ 4 → te.history.length ≤ 4)
    (hr : p → s.te.Ranged → te.Ranged) : Within p s (s.withTe te) :=
  ⟨Noted.of_eq rfl rfl rfl rfl, hh, fun hp k => ⟨hr hp k.te, k.cs, k.st⟩⟩

theorem State.withCs_within {p : Prop} {s : State} {q : CueSeq} (hr : p → s.cs.Ranged → q.Ranged) : Within p s (s.withCs q) :=
  ⟨Noted.of_eq rfl rfl rfl rfl, id, fun hp k => ⟨k.te, hr hp k.cs, k.st⟩⟩

/-- A change of the Click Generator alone. -/
theorem State.click_within {p : Prop} (s : State) (c : ClickGen) : Within p s { s with ck := c } :=
  Noted.within (Noted.of_eq rfl rfl rfl rfl) rfl rfl rfl

theorem State.choose_within {p : Prop} (s : State) : Within p s s.choose := Noted.within (Noted.of_eq rfl rfl rfl rfl) rfl rfl rfl

theorem State.report_within {p : Prop} (s : State) (k : FaultKind) (f : Option FaultPort) : Within p s (s.report k f) :=
  (s.report_linksOnly k f).within (s.report_fits k f)

theorem State.reportCue_within {p : Prop} (s : State) (k : FaultKind) (q : Option BarBeat) : Within p s (s.reportCue k q) :=
  (s.reportCue_linksOnly k q).within (s.reportAt_fits _ _ _)

theorem State.tempoNotice_within {p : Prop} (s : State) : Within p s s.tempoNotice :=
  s.tempoNotice_linksOnly.within (s.broadcastQuiet_fits _ _)

theorem State.transportNotice_within {p : Prop} (s : State) : Within p s s.transportNotice :=
  s.transportNotice_linksOnly.within (s.broadcast_fits _ _)

theorem State.cueNotice_within {p : Prop} (s : State) (n : Notice) : Within p s (s.cueNotice n) :=
  (s.cueNotice_linksOnly n).within (s.broadcast_fits _ _)

theorem State.handRealTime_within {p : Prop} (s : State) (b : Byte) : Within p s (s.handRealTime b) :=
  (s.handRealTime_routerOnly b).within (s.handRealTime_noted b)

/-- A step that may be left out. -/
theorem Within.ite {p c : Prop} [Decidable c] {s t : State} (h : Within p s t) : Within p s (if c then t else s) := by
  split
  · exact h
  · exact Within.refl s

theorem State.askClick_within {p : Prop} (s : State) (b : Bus) (c : ClickChange) : Within p s (s.askClick b c) := s.click_within _

theorem State.askPatterns_within {p : Prop} (s : State) (a b : Option Nat) : Within p s (s.askPatterns a b) :=
  (s.askClick_within _ _).trans (State.askClick_within _ _ _)

/-! ## Tempo and ramps -/

theorem tempoOk_iff (t : Nat) : tempoOk t = true ↔ 3000 ≤ t ∧ t ≤ 30000 := by simp [tempoOk]

theorem meterOk_iff (b : Nat) : meterOk b = true ↔ 1 ≤ b ∧ b ≤ 16 := by simp [meterOk]

theorem clampTempo_tempoOk (t : Nat) : tempoOk (clampTempo t) = true := by
  rw [tempoOk_iff]
  simp only [clampTempo, Config.tempoMin, Config.tempoMax]
  omega

theorem Ramp.ok_iff (r : Ramp) : r.ok = true ↔
    tempoOk r.t0 = true ∧ tempoOk r.t1 = true ∧ 480 ≤ r.len ∧ r.len ≤ 30720 ∧ r.prog ≤ r.len := by
  simp [Ramp.ok, and_assoc]

/-- R7: the tempo at a tick of a ramp lies between its ends. -/
theorem Ramp.tempoAt_tempoOk {r : Ramp} (h : r.ok = true) {k : Nat} (hk : k ≤ r.len) : tempoOk (r.tempoAt k) = true := by
  obtain ⟨h0, h1, hl, -, -⟩ := (r.ok_iff).1 h
  rw [tempoOk_iff] at h0 h1 ⊢
  have hlen : 0 < r.len := by omega
  rcases Nat.le_total r.t0 r.t1 with hd | hd
  · obtain ⟨hway, -, -⟩ := way_bounds (r.t1 - r.t0) hlen hk
    rw [Ramp.tempoAt_up hd]
    generalize (r.t1 - r.t0) * k / r.len = way at hway ⊢
    omega
  · obtain ⟨hway, -, -⟩ := way_bounds (r.t0 - r.t1) hlen hk
    rw [Ramp.tempoAt_down hd]
    generalize (r.t0 - r.t1) * k / r.len = way at hway ⊢
    omega

theorem State.setTempo_within (s : State) (t : Nat) : Within (tempoOk t = true) s (s.setTempo t) := by
  have h : Within (tempoOk t = true) s (s.withTe { s.te with tempo := t, ramp := none }) :=
    State.withTe_within id (fun ht k => { k with tempo := ht, ramp := rfl })
  unfold State.setTempo
  simp only
  split
  · exact h.trans (State.tempoNotice_within _)
  · exact h

/-- The operands of a ramp within R6. -/
def RampOperands (t b : Nat) : Prop := tempoOk t = true ∧ 1 ≤ b ∧ b ≤ 64

theorem State.rampTempo_within (s : State) (t b : Nat) : Within (RampOperands t b) s (s.rampTempo t b) := by
  unfold State.rampTempo
  split
  · refine Within.trans ?_ (State.tempoNotice_within _)
    refine State.withTe_within id (fun ht k => ?_)
    obtain ⟨htempo, hb⟩ := ht
    refine { k with ramp := (Ramp.ok_iff _).2 ⟨k.tempo, htempo, ?_, ?_, Nat.zero_le _⟩ }
    · simp only; omega
    · simp only; omega
  · refine Within.trans ?_ (State.tempoNotice_within _)
    exact State.withTe_within id (fun ht k => { k with tempo := ht.1 })

theorem State.rampStep_within {p : Prop} (s : State) : Within p s s.rampStep := by
  unfold State.rampStep
  split
  · exact Within.refl s
  · next r hr =>
    have hok : s.te.Ranged → r.ok = true := fun k => by have := k.ramp; rwa [hr] at this
    simp only
    split
    · refine Within.trans ?_ (State.tempoNotice_within _)
      refine State.withTe_within id (fun _ k => ?_)
      exact { k with tempo := ((Ramp.ok_iff r).1 (hok k)).2.1, ramp := rfl }
    · next hk =>
      refine State.withTe_within id (fun _ k => ?_)
      obtain ⟨h0, h1, hlo, hhi, -⟩ := (Ramp.ok_iff r).1 (hok k)
      exact { k with
        tempo := Ramp.tempoAt_tempoOk (hok k) (by omega)
        ramp := (Ramp.ok_iff _).2 ⟨h0, h1, hlo, hhi, by simp only; omega⟩ }

/-! ## Meter, stops and song changes -/

theorem meterOk_getD {m : Option Nat} {b : Nat} (h : m.all meterOk = true) (k : meterOk b = true) : meterOk (m.getD b) = true := by
  cases m with
  | none => exact k
  | some c => exact h

theorem one_le_of_meterOk {b : Nat} (h : meterOk b = true) : 1 ≤ b := ((meterOk_iff b).1 h).1

theorem State.setMeter_within (s : State) (b : Nat) : Within (meterOk b = true) s (s.setMeter b) := by
  unfold State.setMeter
  split
  · exact State.withTe_within id (fun hb k => { k with pendingMeter := hb })
  · next ht =>
    refine State.withTe_within id (fun hb k => ?_)
    have hbeat := k.rest (by simpa [State.ticking] using ht)
    exact { k with meter := hb, pendingMeter := rfl, beat := by simp only [hbeat]; exact ⟨Nat.le_refl _, one_le_of_meterOk hb⟩ }

/-- A ramp that ends leaves its target as the tempo (R7). -/
theorem TempoEngine.Ranged.rampTarget {te : TempoEngine} (h : te.Ranged) : tempoOk ((te.ramp.map Ramp.t1).getD te.tempo) = true := by
  cases hr : te.ramp with
  | none => exact h.tempo
  | some r =>
    have := h.ramp
    rw [hr] at this
    exact ((Ramp.ok_iff r).1 this).2.1

/-- The engine stops at a bar of a song (R12, R13). -/
theorem TempoEngine.Ranged.stopAt {te : TempoEngine} (h : te.Ranged) {bar : Int} (hb : 1 ≤ bar ∧ bar ≤ 9999) :
    (te.stopAt bar).Ranged :=
  { h with
    tempo := h.rampTarget
    acc := by simp [TempoEngine.stopAt]
    beat := ⟨Nat.le_refl _, one_le_of_meterOk h.meter⟩
    bar := .inl hb
    clockCount := Nat.zero_le _
    ramp := rfl
    segue := rfl
    rest := fun _ => rfl }

theorem State.stopNotices_within {p : Prop} (s : State) (b : Bool) : Within p s (s.stopNotices b) := by
  have hn : ∀ u : State, Within p u ((if b then u.tempoNotice else u).transportNotice) := fun u =>
    u.tempoNotice_within.ite.trans (State.transportNotice_within _)
  exact (s.handRealTime_within _).trans (hn _)

/-- A change of the engine and the sequencer alone. -/
theorem State.engine_within {p : Prop} {s : State} {te : TempoEngine} {q : CueSeq}
    (hh : s.te.history.length ≤ 4 → te.history.length ≤ 4) (hr : p → s.te.Ranged → te.Ranged)
    (hq : p → s.cs.Ranged → q.Ranged) :
    Within p s { s with te := te, cs := q } :=
  (State.withTe_within (te := te) hh hr).trans (State.withCs_within (s := s.withTe te) (q := q) hq)

theorem State.stopNow_within {p : Prop} (s : State) : Within p s s.stopNow := by
  unfold State.stopNow
  split
  · refine Within.trans ?_ (State.stopNotices_within _ _)
    refine State.engine_within id (fun _ k => ?_) (fun _ k => ⟨k.songs, k.cues, k.current, k.latchedNext⟩)
    have hbar : 1 ≤ (if s.te.transport = .counting then 1 else s.te.pos.bar) ∧
        (if s.te.transport = .counting then 1 else s.te.pos.bar) ≤ 9999 := by
      have := k.bar
      split
      · omega
      · next hc => exact this.resolve_right (fun h => hc h.2.2)
    have hm := meterOk_getD k.pendingMeter k.meter
    exact { k.stopAt hbar with
      meter := hm
      pendingMeter := rfl
      beat := ⟨Nat.le_refl _, one_le_of_meterOk hm⟩ }
  · exact Within.refl s

theorem State.stopAtBar_within {p : Prop} (s : State) : Within p s s.stopAtBar := by
  unfold State.stopAtBar
  split
  · next hrun =>
    refine Within.trans ?_ (State.transportNotice_within _)
    refine State.withTe_within id (fun _ k => ?_)
    refine { k with bar := .inl (k.bar.resolve_right (fun h => ?_)), rest := fun h => nomatch h }
    rw [hrun] at h
    exact nomatch h.2.2
  · exact s.stopNow_within
  · exact Within.refl s
  · exact Within.refl s

/-- What a song hands to the engine is within R118. -/
theorem Song.engine_ok {g : Song} (h : g.ok = true) : tempoOk g.tempo = true ∧ meterOk g.meter = true ∧ g.countIn ≤ 4 := by
  simp only [Song.ok, Bool.and_eq_true, decide_eq_true_eq] at h
  obtain ⟨-, h1, h2, h3, h4, h5, -⟩ := h
  exact ⟨(tempoOk_iff _).2 ⟨h1, h2⟩, (meterOk_iff _).2 ⟨h3, h4⟩, h5⟩

theorem State.engineSong_within (s : State) (g : Song) : Within (g.ok = true) s (s.engineSong g) := by
  have hn : ∀ (u : State) (c : Prop) [Decidable c],
      Within (g.ok = true) u ((if c then u.tempoNotice else u).transportNotice) := fun u c _ =>
    u.tempoNotice_within.ite.trans (State.transportNotice_within _)
  refine Within.trans ?_ (hn _ _)
  refine State.withTe_within id (fun hg k => ?_)
  obtain ⟨ht, hm, hc⟩ := Song.engine_ok hg
  exact { k with
    tempo := by split; exacts [k.tempo, ht]
    meter := hm
    pendingMeter := rfl
    countIn := hc
    beat := ⟨Nat.le_refl _, one_le_of_meterOk hm⟩
    bar := .inl (by simp)
    rest := fun _ => rfl }

theorem PendingSegue.ok_iff (g : PendingSegue) : g.ok = true ↔
    g.tempo.all tempoOk = true ∧ meterOk g.meter = true ∧ g.countIn ≤ 4 := by simp [PendingSegue.ok, and_assoc]

theorem State.engineSegue_within (s : State) (g : Song) : Within (g.ok = true) s (s.engineSegue g) := by
  refine State.withTe_within id (fun hg k => { k with segue := (PendingSegue.ok_iff _).2 ?_ })
  obtain ⟨ht, hm, hc⟩ := Song.engine_ok hg
  exact ⟨by simp only; split; exacts [rfl, ht], hm, hc⟩

theorem State.restartTempo_within {p : Prop} (s : State) : Within p s s.restartTempo := by
  have hnotices : ∀ (u : State) (a b c : Prop) [Decidable a] [Decidable b] [Decidable c],
      Within p u (let u2 := if a then u.handRealTime stopByte else u
        let u3 := if b then u2.transportNotice else u2
        if c then u3.tempoNotice else u3) := fun u a b c _ _ _ =>
    ((u.handRealTime_within _).ite.trans (State.transportNotice_within _).ite).trans (State.tempoNotice_within _).ite
  refine Within.trans ?_ (hnotices _ _ _ _)
  refine State.withTe_within (fun _ => Nat.zero_le _) (fun _ k => ?_)
  exact { k with
    acc := by simp
    pendingMeter := rfl
    beat := ⟨Nat.le_refl _, one_le_of_meterOk k.meter⟩
    bar := .inl (by simp)
    clockCount := Nat.zero_le _
    ramp := rfl
    segue := rfl
    history := fun _ h => absurd h List.not_mem_nil
    rest := fun _ => rfl }

end Sys2Proof.Machine
end

section
/-! PROOFS. The Cue Sequencer keeps every limit and range: the cues and songs it acts on come from its tables and its latched
cues. -/

namespace Sys2Proof.Machine

/-! ## Becoming current, ending and dropping -/

theorem State.leadCheck_within {p : Prop} (s : State) : Within p s s.leadCheck := by
  unfold State.leadCheck
  split
  · exact Within.refl s
  · split
    · simp only
      split
      · refine Within.trans ?_ (State.cueNotice_within _ _)
        exact State.withCs_within (fun _ k => { k with })
      · exact Within.refl s
    · exact Within.refl s
    · exact Within.refl s

theorem State.endSong_within {p : Prop} (s : State) : Within p s s.endSong :=
  State.withCs_within (fun _ k => { k with current := rfl })

theorem State.becomeCurrent_within {p : Prop} (s : State) (n : Nat) (b : Bool) (q : Option BarBeat) :
    Within p s (s.becomeCurrent n b q) := by
  unfold State.becomeCurrent
  split
  · exact s.endSong_within.trans (State.reportCue_within _ _ _)
  · next slot hslot =>
    have hrec : s.cs.Ranged → slot.record.ok = true := fun k => k.cue hslot
    have hcs : Within p s (s.withCs { s.cs with
        state := .waiting, current := some { cue := n, record := slot.record }, chained := b, leadSent := false,
        cues := Table.put s.cs.cues n { slot with done := false, result := .none } }) :=
      State.withCs_within (fun _ k => { k with current := hrec k, cues := k.put n (hrec k) })
    simp only
    refine Within.trans ?_ (State.leadCheck_within _)
    split
    · exact hcs.trans ((State.stageCommand_routerOnly _ _ _).within (State.stageCommand_noted _ _ _))
    · exact hcs

theorem State.dropCurrent_within {p : Prop} (s : State) : Within p s s.dropCurrent := by
  unfold State.dropCurrent
  refine Within.trans ?_ (State.withCs_within (fun _ k => { k with current := rfl, latchedNext := rfl }))
  split
  · split
    · exact (s.withdraw_routerOnly _).within (s.withdraw_noted _)
    · exact Within.refl s
  · exact Within.refl s

/-! ## Songs -/

theorem State.songSelect_within (s : State) (n m : Nat) (g : Song) (q : Option BarBeat) :
    Within (g.ok = true) s (s.songSelect n m g q) := by
  have hset : Within (g.ok = true) s (s.dropCurrent.withCs { s.dropCurrent.cs with setPos := some n, song := some m }) :=
    s.dropCurrent_within.trans (State.withCs_within (fun _ k => { k with }))
  have h := (hset.trans (State.engineSong_within _ g)).trans (State.askPatterns_within _ (some g.band) (some g.keys))
  unfold State.songSelect
  simp only
  split
  · exact h.trans (State.endSong_within _)
  · exact h.trans (State.becomeCurrent_within _ _ _ _)

theorem State.nextSong_within {p : Prop} (s : State) (c : Bool) (q : Option BarBeat) : Within p s (s.nextSong c q).1 := by
  unfold State.nextSong
  simp only
  split
  · exact s.endSong_within
  · split
    · exact (s.reportCue_within _ _).trans (State.endSong_within _)
    · next g hg =>
      have hok : p → s.Ranged → g.ok = true := fun _ k => k.cs.song hg
      split
      · exact (s.songSelect_within _ _ _ _).of_ranged hok
      · split
        · refine Within.trans ?_ (State.endSong_within _)
          exact State.withCs_within (fun _ k => { k with })
        · refine Within.trans (Within.trans ((s.engineSegue_within g).of_ranged hok) ?_) (State.endSong_within _)
          exact State.withCs_within (fun _ k => { k with })

/-! ## Actions and completion -/

/-- The action of a cue within R121. -/
theorem Cue.action_ok {c : Cue} (h : c.ok = true) : c.action.ok = true := by
  simp only [Cue.ok, Bool.and_eq_true] at h
  exact h.1.1.2

theorem State.doAction_within (s : State) (c : Latched) (b : Bool) (q : Option BarBeat) :
    Within (c.record.ok = true) s (s.doAction c b q).1 := by
  have hact : c.record.ok = true → c.record.action.ok = true := Cue.action_ok
  unfold State.doAction
  split
  · exact Within.refl s
  · exact (s.swapCommand_routerOnly _ _).within (s.swapCommand_noted _ _)
  · next t ha =>
    rw [ha] at hact
    split
    · exact Within.refl s
    · exact (s.setTempo_within t).mono hact
  · next t n ha =>
    rw [ha] at hact
    split
    · exact Within.refl s
    · refine (s.rampTempo_within t n).mono (fun hc => ?_)
      obtain ⟨h1, h2, h3, h4⟩ := of_decide_eq_true (hact hc)
      exact ⟨(tempoOk_iff t).2 ⟨h1, h2⟩, h3, h4⟩
  · next n ha =>
    rw [ha] at hact
    exact (s.setMeter_within n).mono hact
  · exact s.askPatterns_within _ _
  · exact (s.sendPrograms_routerOnly _).within (s.sendPrograms_noted _)
  · exact s.cueNotice_within _
  · exact s.stopNow_within
  · exact s.stopAtBar_within
  · exact s.nextSong_within _ _

theorem State.writeStatus_within {p : Prop} (s : State) (n : Nat) (r : CueResult) : Within p s (s.writeStatus n r) := by
  unfold State.writeStatus
  split
  · exact Within.refl s
  · next slot hslot =>
    have hrec : s.cs.Ranged → slot.record.ok = true := fun k => k.cue hslot
    exact State.withCs_within (fun _ k => { k with cues := k.put n (hrec k) })

theorem State.moveOn_within {p : Prop} (s : State) (c : Cue) (q : Option BarBeat) : Within p s (s.moveOn c q) := by
  have hcount : Within p s (s.withCs { s.cs with boundary := s.cs.boundary + 1 }) :=
    State.withCs_within (fun _ k => { k with })
  unfold State.moveOn
  simp only
  split
  · exact hcount.trans (State.endSong_within _)
  · split
    · split
      · exact (hcount.trans (State.endSong_within _)).trans (State.reportCue_within _ _ _)
      · next slot hslot =>
        refine hcount.trans (State.withCs_within (fun _ k => { k with current := rfl, latchedNext := k.cue hslot }))
    · exact hcount.trans (State.becomeCurrent_within _ _ _ _)

theorem State.completeCue_within (s : State) (c : Latched) (late closing : Bool) (q : Option BarBeat) :
    Within (c.record.ok = true) s (s.completeCue c late closing q) := by
  have hnext : ∀ u : State, Within (c.record.ok = true) u (match c.record.action with | .nextSong => u | _ => u.moveOn c.record q) :=
    fun u => by
      split
      · exact Within.refl u
      · exact u.moveOn_within _ _
  exact ((((s.doAction_within c closing q).trans (State.writeStatus_within _ _ _)).trans (State.reportCue_within _ _ _).ite).trans
    (State.cueNotice_within _ _).ite).trans (hnext _)

theorem CueSeq.current_of_chainDue {c : CueSeq} {x : Latched} (h : c.chainDue = some x) : c.current = some x := by
  unfold CueSeq.chainDue at h
  split at h
  · next hc =>
    split at h
    · rw [hc, h]
    · exact nomatch h
  · exact nomatch h

theorem CueSeq.Ranged.current_ok {c : CueSeq} (h : c.Ranged) {x : Latched} (k : c.current = some x) : x.record.ok = true := by
  have := h.current
  rwa [k] at this

theorem State.chain_within {p : Prop} (closing : Bool) (q : Option BarBeat) :
    ∀ (n : Nat) (s : State), Within p s (State.chain closing q n s)
  | 0, s => Within.refl s
  | n + 1, s => by
    unfold State.chain
    split
    · exact Within.refl s
    · next c hc =>
      split
      · refine Within.trans ?_ (State.chain_within closing q n _)
        exact (s.completeCue_within c _ _ _).of_ranged (fun _ k => k.cs.current_ok (CueSeq.current_of_chainDue hc))
      · exact s.reportCue_within _ _

theorem State.fire_within (s : State) (c : Latched) (late closing : Bool) (q : Option BarBeat) :
    Within (c.record.ok = true) s (s.fire c late closing q) := by
  have hgo : Within (c.record.ok = true) s (s.withCs { s.cs with goPending := false }) := State.withCs_within (fun _ k => { k with })
  exact (hgo.trans (State.completeCue_within _ _ _ _ _)).trans (State.chain_within _ _ _ _)

/-! ## Beat events and GO -/

theorem State.applySegueRecord_within {p : Prop} (s : State) (q : Option BarBeat) : Within p s (s.applySegueRecord q) := by
  unfold State.applySegueRecord
  split
  · exact Within.refl s
  · next g hg =>
    have hset : Within p s (s.withCs { s.cs with setPos := some g.pos, song := some g.song, segue := none }) :=
      State.withCs_within (fun _ k => { k with })
    simp only
    split
    · exact hset.trans (State.askPatterns_within _ _ _)
    · exact (hset.trans (State.askPatterns_within _ _ _)).trans (State.becomeCurrent_within _ _ _ _)

theorem State.sequencerBeat_within {p : Prop} (s : State) (ev : BeatEvent) : Within p s (s.sequencerBeat ev) := by
  have hclear : Within p s (s.withCs { s.cs with boundary := 0, chained := false }) := State.withCs_within (fun _ k => { k with })
  have hfire : ∀ u : State, Within p s u → Within p s
      (if u.cs.state = .waiting ∧ (ev.transport = .running ∨ ev.transport = .stopping) then
        match u.cs.current with
        | none => u
        | some c =>
          match firing u.cs c.record ev.bar ev.beat with
          | some late => u.fire c late ev.closing (some ⟨ev.bar, ev.beat⟩)
          | none => u
      else u) := fun u hu => by
    split
    · split
      · exact hu
      · next c hc =>
        split
        · exact hu.trans ((u.fire_within c _ _ _).of_ranged (fun _ k => k.cs.current_ok hc))
        · exact hu
    · exact hu
  exact hfire _ ((hclear.trans (State.applySegueRecord_within _ _).ite).trans (State.leadCheck_within _).ite)

theorem State.sequencerClosed_within {p : Prop} (s : State) : Within p s s.sequencerClosed := by
  have hclear : Within p s (s.withCs { s.cs with goPending := false, deferred := none }) := State.withCs_within (fun _ k => { k with })
  unfold State.sequencerClosed
  simp only
  split
  · exact hclear
  · split
    · exact hclear
    · split
      · exact hclear
      · next g hg => exact hclear.trans ((State.songSelect_within _ _ _ g _).of_ranged (fun _ k => k.cs.song hg))

theorem State.goStopped_within (s : State) (c : Latched) : Within (c.record.ok = true) s (s.goStopped c) := by
  have hzero : Within (c.record.ok = true) s (s.withCs { s.cs with boundary := 0 }) := State.withCs_within (fun _ k => { k with })
  exact hzero.trans (State.fire_within _ _ _ _ _)

/-! ## The chase -/

theorem State.chaseCue_within (s : State) (c : Latched) (b : Bool) : Within (c.record.ok = true) s (s.chaseCue c b) := by
  unfold State.chaseCue
  simp only
  refine Within.trans ?_ (State.writeStatus_within _ _ _)
  split
  · split
    · exact Within.refl s
    · exact s.doAction_within _ _ _
  · exact Within.refl s
  · exact Within.refl s
  · exact Within.refl s
  · exact Within.refl s
  · exact s.doAction_within _ _ _
  · exact s.doAction_within _ _ _
  · exact s.doAction_within _ _ _
  · exact s.doAction_within _ _ _
  · exact s.doAction_within _ _ _

theorem State.chaseCues_within : ∀ (cs : List Latched) (s : State), Within (∀ c ∈ cs, c.record.ok = true) s (s.chaseCues cs)
  | [], s => Within.refl s
  | c :: r, s =>
    ((s.chaseCue_within c _).mono (fun h => h c List.mem_cons_self)).trans
      ((State.chaseCues_within r _).mono (fun h d hd => h d (List.mem_cons_of_mem c hd)))

/-- The cues a walk chooses come from the cue table (R139). -/
theorem walk_chosen_ok {cues : Table CueSlot} (h : ∀ e ∈ cues, e.2.record.ok = true) (bar : Nat) :
    ∀ (room n : Nat) (first : Bool) (chosen : List Latched), (∀ c ∈ chosen, c.record.ok = true) →
      ∀ c ∈ (walk cues bar room n first chosen).chosen, c.record.ok = true
  | 0, _, _, _, hc => hc
  | room + 1, n, first, chosen, hc => by
    unfold walk
    split
    · exact hc
    · next slot hslot =>
      have happend : ∀ c ∈ chosen ++ [⟨n, slot.record⟩], c.record.ok = true := fun c hm => by
        rcases List.mem_append.1 hm with hm | hm
        · exact hc c hm
        · rw [List.mem_singleton.1 hm]; exact h _ (Table.mem_of_look hslot)
      simp only
      split
      · exact hc
      · split
        · exact happend
        · exact walk_chosen_ok h bar room _ _ _ happend

theorem State.chase_within {p : Prop} (s : State) (bar : Nat) : Within p s (s.chase bar) := by
  have hfault : ∀ (q : Prop) (u : State) (f : Option FaultKind),
      Within q u (match f with | some k => u.report k none | none => u) := fun q u f => by
    split
    · exact u.report_within _ _
    · exact Within.refl u
  unfold State.chase
  split
  · exact Within.refl s
  · simp only
    split
    · exact s.dropCurrent_within.trans (State.endSong_within _)
    · next n _ =>
      have hcues := ((hfault _ s.dropCurrent (walk s.dropCurrent.cs.cues bar 64 n true []).fault).trans
        (State.chaseCues_within (walk s.dropCurrent.cs.cues bar 64 n true []).chosen _)).of_ranged
          (q := p) (fun _ k => walk_chosen_ok k.cs.cues bar 64 n true [] (fun _ h => absurd h List.not_mem_nil))
      split
      · exact (s.dropCurrent_within.trans hcues).trans (State.endSong_within _)
      · exact (s.dropCurrent_within.trans hcues).trans (State.becomeCurrent_within _ _ _ _)

theorem State.restartSequencer_within {p : Prop} (s : State) : Within p s s.restartSequencer :=
  State.withCs_within (fun _ k => { k with current := rfl, latchedNext := rfl })

end Sys2Proof.Machine
end

section
/-! PROOFS. Beats, ticks, START and the follower keep every limit and range of R1. -/

namespace Sys2Proof.Machine

/-! ## Handing on -/

theorem State.beatNotice_fits (s : State) (bar : Int) (beat meter : Nat) (tr : Transport) :
    Fits s (s.beatNotice bar beat meter tr) := by
  unfold State.beatNotice
  exact s.broadcastQuiet_fits _ _

theorem State.takeBeat_within {p : Prop} (s : State) (ev : BeatEvent) (t : Taker) : Within p s (s.takeBeat ev t) := by
  cases t with
  | click => exact s.click_within _
  | router => exact (s.routerBeat_routerOnly _).within (s.routerBeat_noted _)
  | sequencer => exact s.sequencerBeat_within ev
  | notice => exact (s.beatNotice_linksOnly _ _ _ _).within (s.beatNotice_fits _ _ _ _)

theorem State.takeBeatAll_within {p : Prop} (s : State) (ev : BeatEvent) (o : List Taker) : Within p s (s.takeBeatAll ev o) :=
  foldl_rel (Within p) Within.refl Within.trans (fun s t => s.takeBeat_within ev t) o s

theorem State.handOn_within {p : Prop} (s : State) (ev : BeatEvent) : Within p s (s.handOn ev) := by
  unfold State.handOn
  split
  · exact s.choose_within.trans (State.takeBeatAll_within _ _ _)
  · exact s.takeBeatAll_within _ _

/-! ## Timing bytes -/

/-- A timing byte goes out and q moves on (R22). -/
theorem State.clock_within {p : Prop} (s : State) {n : Nat} (h : p → n ≤ 24) :
    Within p s ((s.handRealTime clockByte).withTe { s.te with clockCount := n }) := by
  refine (s.handRealTime_within clockByte).trans ?_
  exact State.withTe_within id (fun hp (k : s.te.Ranged) => { k with clockCount := h hp })

theorem State.beatBytes_within {p : Prop} (s : State) (b : Bool) : Within p s (s.beatBytes b) := by
  have hstart : Within p s ((s.handRealTime startByte).handRealTime clockByte) :=
    (s.handRealTime_within _).trans (State.handRealTime_within _ _)
  unfold State.beatBytes
  simp only
  split
  · refine hstart.trans ?_
    exact State.withTe_within id (fun _ (k : s.te.Ranged) => { k with clockCount := Nat.le_add_left 1 23 })
  · exact s.clock_within (fun _ => by decide)

theorem State.tickBytes_within (s : State) (t : Nat) : Within (t < 480) s (s.tickBytes t) := by
  unfold State.tickBytes
  simp only
  split
  · exact s.clock_within (fun ht => by omega)
  · exact Within.refl s

/-! ## Beat and bar events -/

/-- R3: the bar after a bar of a song or of a count-in, and the count-in that goes on. -/
theorem nextBar_range {bar : Int} {tr : Transport} (h : BarRange bar tr) : BarRange (nextBar bar) tr := by
  unfold nextBar
  rcases h with h | ⟨h1, h2, h3⟩
  · left
    split
    · omega
    · split <;> omega
  · split
    · left; omega
    · rw [if_neg (by omega)]
      right
      exact ⟨by omega, by omega, h3⟩

/-- A count-in ends at bar 1 alone (R11). -/
theorem transport_after_bar {bar : Int} {tr : Transport} (h : BarRange bar tr) :
    BarRange bar (if tr = .counting ∧ bar = 1 then .running else tr) := by
  refine h.imp id (fun ⟨h1, h2, h3⟩ => ⟨h1, h2, ?_⟩)
  rw [if_neg (by omega)]
  exact h3

theorem TempoEngine.Ranged.barStep {te : TempoEngine} (h : te.Ranged) : te.barStep.Ranged := by
  have hm := meterOk_getD h.pendingMeter h.meter
  cases hs : te.segue with
  | none =>
    rw [barStep_of_no_segue hs]
    exact { h with
      meter := hm
      pendingMeter := rfl
      beat := ⟨Nat.le_refl _, one_le_of_meterOk hm⟩
      bar := transport_after_bar (nextBar_range h.bar)
      rest := fun _ => rfl }
  | some g =>
    have hg := h.segue
    rw [hs] at hg
    obtain ⟨ht, hgm, hc⟩ := (PendingSegue.ok_iff g).1 hg
    rw [barStep_of_segue hs]
    exact { h with
      tempo := by cases hgt : g.tempo with
        | none => exact h.tempo
        | some t => rw [hgt] at ht; exact ht
      meter := hgm
      pendingMeter := rfl
      beat := ⟨Nat.le_refl _, one_le_of_meterOk hgm⟩
      bar := .inl (by simp)
      countIn := hc
      ramp := by cases hgt : g.tempo.isSome; exacts [h.ramp, rfl]
      segue := rfl
      rest := fun _ => rfl }

theorem TempoEngine.barStep_history (te : TempoEngine) : te.barStep.history = te.history := by
  cases hs : te.segue with
  | none => rw [barStep_of_no_segue hs]
  | some g => rw [barStep_of_segue hs]

theorem State.barNotices_within {p : Prop} (s : State) : Within p s s.barNotices := by
  have hbar : Within p s (s.withTe s.te.barStep) :=
    State.withTe_within (fun h => by rw [TempoEngine.barStep_history]; exact h) (fun _ k => k.barStep)
  exact (hbar.trans (State.tempoNotice_within _).ite).trans (State.transportNotice_within _).ite

/-- A stop at a bar of a song, where the transport is STOPPING (R13). -/
theorem State.close_within {p : Prop} (s : State) : Within p s s.close := by
  unfold State.close
  split
  · next hst =>
    refine Within.trans (Within.trans ?_ (State.stopNotices_within _ _)) (State.sequencerClosed_within _)
    refine State.withTe_within id (fun _ k => k.stopAt (k.bar.resolve_right (fun h => ?_)))
    rw [hst] at h
    exact nomatch h.2.2
  · exact Within.refl s

theorem State.beatOccurs_within (s : State) : Within (s.ticking = true) s s.beatOccurs := by
  by_cases hb : s.te.meter ≤ s.te.pos.beat
  · by_cases hst : s.te.transport = .stopping
    · rw [State.beatOccurs_closing hb hst]
      exact (s.barNotices_within.trans (State.handOn_within _ _)).trans (State.close_within _)
    · rw [State.beatOccurs_bar hb hst]
      exact (s.barNotices_within.trans (State.beatBytes_within _ _)).trans (State.handOn_within _ _)
  · have hlt := Nat.lt_of_not_le hb
    rw [State.beatOccurs_beat hlt]
    refine Within.trans (Within.trans ?_ (State.beatBytes_within _ _)) (State.handOn_within _ _)
    refine State.withTe_within id (fun ht k => ?_)
    exact { k with
      beat := ⟨Nat.le_add_left 1 _, hlt⟩
      rest := fun h => by rw [State.ticking] at ht; exact absurd (ht.symm.trans h) (by decide) }

/-! ## Ticks and START -/

theorem State.tickOccurs_within (s : State) : Within (s.ticking = true) s s.tickOccurs := by
  have hr : s.rampStep.ticking = s.ticking := by unfold State.ticking; rw [State.rampStep_transport]
  unfold State.tickOccurs
  simp only
  split
  · exact s.rampStep_within.trans ((State.beatOccurs_within _).mono (fun h => hr.trans h))
  · next ht =>
    refine Within.trans (Within.trans (Within.trans s.rampStep_within ?_) (State.click_within _ _))
      ((State.tickBytes_within _ _).mono (fun _ => Nat.lt_of_not_le ht))
    exact State.withTe_within id (fun _ k => ⟨k.tempo, k.acc, k.meter, k.pendingMeter, k.beat, k.bar, k.countIn, k.clockCount,
      k.ramp, k.segue, k.history, k.rest⟩)

theorem State.tick_within {p : Prop} (s : State) : Within p s s.tick := by
  unfold State.tick
  split
  · next ht =>
    refine Within.trans ?_ ((State.tickOccurs_within _).mono (fun _ => ht))
    refine State.withTe_within id (fun _ k => { k with acc := ?_ })
    simp only
    split
    · exact k.acc
    · obtain ⟨hlo, hhi⟩ := (tempoOk_iff _).1 k.tempo
      obtain ⟨n, hn, hacc, hleast⟩ := accAtTick_least k.acc (tempo := s.te.tempo) (by omega)
      have hstep : n * s.te.tempo = (n - 1) * s.te.tempo + s.te.tempo := by
        rw [← Nat.succ_mul, Nat.succ_eq_add_one, Nat.sub_add_cancel hn]
      omega
  · exact State.withTe_within id (fun _ k => { k with })

/-- START from a stopped position (R10). -/
theorem TempoEngine.Ranged.started {te : TempoEngine} (h : te.Ranged) (hs : te.transport = .stopped) : te.started.Ranged := by
  have hm := meterOk_getD h.pendingMeter h.meter
  have hbar : 1 ≤ te.pos.bar ∧ te.pos.bar ≤ 9999 := h.bar.resolve_right (fun k => by rw [hs] at k; exact nomatch k.2.2)
  have hc := h.countIn
  unfold TempoEngine.started
  exact { h with
    acc := by simp
    pendingMeter := rfl
    meter := hm
    beat := ⟨Nat.le_refl _, one_le_of_meterOk hm⟩
    bar := by
      by_cases hcounts : 0 < te.countIn ∧ te.pos.bar = 1
      · simp only [hcounts, decide_true, Bool.and_self, if_true]
        right
        exact ⟨by omega, by omega, rfl⟩
      · left
        have hf : (decide (0 < te.countIn) && decide (te.pos.bar = 1)) = false := by simpa using hcounts
        simp only [hf]
        exact hbar
    clockCount := Nat.zero_le _
    rest := fun _ => rfl }

theorem State.startTransport_within (s : State) : Within (s.te.transport = .stopped) s s.startTransport := by
  unfold State.startTransport
  simp only
  refine Within.trans (Within.trans (Within.trans ?_ (State.transportNotice_within _)) (State.beatBytes_within _ _))
    (State.handOn_within _ _)
  exact State.withTe_within id (fun hs k => k.started hs)

/-! ## The follower -/

theorem State.setFollow_within {p : Prop} (s : State) (src : FollowSource) : Within p s (s.setFollow src) := by
  have hfree : s.te.Ranged → TempoEngine.Ranged
      { s.te with source := src, history := [], lastMark := none, lostDeadline := none, follow := .free } := fun k =>
    { k with history := fun _ h => absurd h List.not_mem_nil }
  have hseek : s.te.Ranged → TempoEngine.Ranged
      { s.te with source := src, history := [], lastMark := none, lostDeadline := none, follow := .seeking, ramp := none } := fun k =>
    { k with ramp := rfl, history := fun _ h => absurd h List.not_mem_nil }
  unfold State.setFollow
  split
  · refine Within.trans ?_ (State.tempoNotice_within _)
    exact State.withTe_within (fun _ => Nat.zero_le _) (fun _ => hfree)
  · refine Within.trans ?_ (State.tempoNotice_within _)
    exact State.withTe_within (fun _ => Nat.zero_le _) (fun _ => hseek)
  · refine Within.trans ?_ (State.tempoNotice_within _)
    exact State.withTe_within (fun _ => Nat.zero_le _) (fun _ => hseek)

theorem State.phaseCorrect_within {p : Prop} (s : State) : Within p s s.phaseCorrect := by
  unfold State.phaseCorrect
  split
  · next ht =>
    split
    · exact Within.refl s
    · split
      · exact State.withTe_within id (fun _ k => { k with acc := by simp })
      · refine Within.trans ?_ ((State.beatOccurs_within _).mono (fun _ => ht))
        exact State.withTe_within id (fun _ k => { k with acc := by simp })
  · exact Within.refl s

/-- A mean lies between the bounds of its values. -/
theorem mean_bounds {l : List Nat} {lo hi : Nat} (hl : 0 < l.length) (h : ∀ d ∈ l, lo ≤ d ∧ d ≤ hi) :
    lo ≤ l.sum / l.length ∧ l.sum / l.length ≤ hi := by
  have hlow := List.card_nsmul_le_sum l lo (fun d hd => (h d hd).1)
  have hhigh := List.sum_le_card_nsmul l hi (fun d hd => (h d hd).2)
  rw [smul_eq_mul] at hlow hhigh
  exact ⟨(Nat.le_div_iff_mul_le hl).2 (by rwa [Nat.mul_comm]), Nat.div_le_of_le_mul hhigh⟩

/-- R19: intervals of 200,000 to 2,000,000 us give a tempo of R1. -/
theorem tempoOk_of_interval {avg : Nat} (h : 200000 ≤ avg ∧ avg ≤ 2000000) : tempoOk ((6000000000 + avg / 2) / avg) = true := by
  rw [tempoOk_iff]
  constructor
  · rw [Nat.le_div_iff_mul_le (by omega)]
    omega
  · rw [← Nat.lt_succ_iff, Nat.div_lt_iff_lt_mul (by omega)]
    omega

theorem State.estimate_within (s : State) : Within (s.te.history ≠ []) s s.estimate := by
  have hn : ∀ (q : Prop) (u : State) (c : Prop) [Decidable c], Within q u ((if c then u.tempoNotice else u).phaseCorrect) :=
    fun q u c _ => u.tempoNotice_within.ite.trans (State.phaseCorrect_within _)
  refine Within.trans ?_ (hn _ _ _)
  refine State.withTe_within id (fun hne k => { k with tempo := tempoOk_of_interval ?_ })
  have hlen := List.length_pos_iff.2 hne
  have hdrop : (s.te.history.drop (s.te.history.length - min s.te.history.length 4)).length = min s.te.history.length 4 := by
    rw [List.length_drop]; omega
  have hmean := mean_bounds (l := s.te.history.drop (s.te.history.length - min s.te.history.length 4)) (by rw [hdrop]; omega)
    (fun d hd => k.history d (List.mem_of_mem_drop hd))
  rwa [hdrop] at hmean

theorem mem_marksPush {history : List Nat} {d x : Nat} (h : x ∈ marksPush history d) : x ∈ history ∨ x = d := by
  have := List.mem_of_mem_drop h
  simpa using this

theorem State.takeMark_within {p : Prop} (s : State) : Within p s s.takeMark := by
  unfold State.takeMark
  split
  · split
    · refine Within.trans ?_ (State.tempoNotice_within _)
      exact State.withTe_within id (fun _ k => { k with })
    · exact State.withTe_within id (fun _ k => { k with })
  · next t _ =>
    simp only
    split
    · next hd =>
      have hpush : Within p s (s.withTe
          { s.te with lastMark := some s.now, history := marksPush s.te.history (stampSince s.now t) }) := by
        refine State.withTe_within (fun _ => (marksPush_length _ _).trans_le (Nat.min_le_left _ _)) (fun _ k => ?_)
        refine { k with history := fun x hx => ?_ }
        rcases mem_marksPush hx with hx | hx
        · exact k.history x hx
        · rw [hx]; exact hd
      split
      · next hlen =>
        have hne := List.length_pos_iff.1 (Nat.lt_of_lt_of_le Nat.two_pos hlen)
        exact hpush.trans ((State.estimate_within _).mono (fun _ => hne))
      · exact hpush
    · have hclear : Within p s (s.withTe { s.te with lastMark := some s.now, history := [], lostDeadline := none }) :=
        State.withTe_within (fun _ => Nat.zero_le _) (fun _ k => { k with history := fun _ h => absurd h List.not_mem_nil })
      split
      · refine Within.trans (hclear.trans ?_) (State.tempoNotice_within _)
        exact State.withTe_within id (fun _ k => { k with })
      · exact hclear

theorem State.markFrom_within {p : Prop} (s : State) (src : FollowSource) : Within p s (s.markFrom src) := by
  unfold State.markFrom
  split
  · exact s.takeMark_within
  · exact Within.refl s

theorem State.lastMarkExpiry_within {p : Prop} (s : State) : Within p s s.lastMarkExpiry :=
  State.withTe_within id (fun _ k => { k with })

theorem State.lostDeadline_within {p : Prop} (s : State) : Within p s s.lostDeadline := by
  unfold State.lostDeadline
  split
  · exact Within.refl s
  · have hfree : Within p s (s.withTe { s.te with follow := .freewheel, history := [], lastMark := none, lostDeadline := none }) :=
      State.withTe_within (fun _ => Nat.zero_le _) (fun _ k => { k with history := fun _ h => absurd h List.not_mem_nil })
    simp only
    split
    · exact (hfree.trans (State.tempoNotice_within _)).trans (State.report_within _ _ _)
    · exact hfree.trans (State.tempoNotice_within _)

end Sys2Proof.Machine
end

section
/-! PROOFS. A song or cue that a payload is parsed into lies within the ranges of its record (R118, R121). -/

namespace Sys2Proof.Machine

/-! ## The steps of a parse -/

theorem Parse.of_bind {α β : Type} {x : Parse α} {f : α → Parse β} {r : β} (h : x >>= f = .ok r) :
    ∃ a, x = .ok a ∧ f a = .ok r := by
  cases x with
  | error e => exact nomatch h
  | ok a => exact ⟨a, rfl, h⟩

theorem field_eq_ok {α : Type} {v : Option α} {o : Nat} {k : Option Nat} {x : α} (h : field v o k = .ok x) : v = some x := by
  cases v with
  | none => exact nomatch h
  | some y => exact congrArg some (Except.ok.inj h)

theorem within_eq_ok {lo hi n o : Nat} {k : Option Nat} {v : Nat} (h : within lo hi n o k = .ok v) : lo ≤ v ∧ v ≤ hi := by
  have hv := field_eq_ok h
  split at hv
  · next hn => rw [← Option.some.inj hv]; exact hn
  · exact nomatch hv

theorem optUpTo_ok {hi n : Nat} {v : Option Nat} (h : optUpTo hi n = some v) : optLe v hi = true := by
  unfold optUpTo at h
  split at h
  · rw [← Option.some.inj h]; exact decide_eq_true (Nat.zero_le _)
  · split at h
    · next hn => rw [← Option.some.inj h]; exact decide_eq_true hn
    · exact nomatch h

/-- What every item of a list is parsed into. -/
theorem parseMany_ok {α : Type} {f : Nat → Parse α} {ok : α → Bool} (hf : ∀ k x, f k = .ok x → ok x = true) :
    ∀ (n k : Nat) (xs : List α), parseMany f n k = .ok xs → xs.length = n ∧ xs.all ok = true
  | 0, k, xs, h => by rw [← Except.ok.inj h]; exact ⟨rfl, rfl⟩
  | n + 1, k, xs, h => by
    obtain ⟨x, hx, h⟩ := Parse.of_bind h
    obtain ⟨r, hr, h⟩ := Parse.of_bind h
    obtain ⟨hlen, hall⟩ := parseMany_ok hf n (k + 1) r hr
    rw [← Except.ok.inj h]
    exact ⟨congrArg (· + 1) hlen, by rw [List.all_cons, hf k x hx, hall]; rfl⟩

/-! ## Names and program entries -/

theorem parseName_ok {p : List Byte} {o : Nat} {name : List Byte} (h : parseName p o = .ok name) : nameOk name = true := by
  obtain ⟨n, hn, h⟩ := Parse.of_bind h
  obtain ⟨hlen, hall⟩ := parseMany_ok (ok := charOk) (fun k x hx => by
    have hv := field_eq_ok hx
    split at hv
    · next hc => rw [← Option.some.inj hv]; exact decide_eq_true hc
    · exact nomatch hv) n 0 name h
  simp only [nameOk, hlen, hall, (within_eq_ok hn).2, decide_true, Bool.and_self]

theorem parseProg_ok {p : List Byte} {b k : Nat} {e : ProgEntry} (h : parseProg p b k = .ok e) : e.ok = true := by
  obtain ⟨dest, -, h⟩ := Parse.of_bind h
  obtain ⟨chan, -, h⟩ := Parse.of_bind h
  obtain ⟨msb, hmsb, h⟩ := Parse.of_bind h
  obtain ⟨lsb, hlsb, h⟩ := Parse.of_bind h
  obtain ⟨prog, hprog, h⟩ := Parse.of_bind h
  rw [← Except.ok.inj h]
  simp only [ProgEntry.ok, optUpTo_ok (field_eq_ok hmsb), optUpTo_ok (field_eq_ok hlsb), (within_eq_ok hprog).2, decide_true,
    Bool.and_self]

/-! ## Songs -/

theorem parseSong_ok {p : List Byte} {g : Song} (h : parseSong p = .ok g) : g.ok = true := by
  obtain ⟨name, hname, h⟩ := Parse.of_bind h
  obtain ⟨cue, hcue, h⟩ := Parse.of_bind h
  obtain ⟨tempo, htempo, h⟩ := Parse.of_bind h
  obtain ⟨meter, hmeter, h⟩ := Parse.of_bind h
  obtain ⟨count, hcount, h⟩ := Parse.of_bind h
  obtain ⟨band, hband, h⟩ := Parse.of_bind h
  obtain ⟨keys, hkeys, h⟩ := Parse.of_bind h
  have hopt : optLe cue 255 = true := by
    have hv := field_eq_ok hcue
    split at hv
    · rw [← Option.some.inj hv]; rfl
    · split at hv
      · next hc => rw [← Option.some.inj hv]; exact decide_eq_true hc
      · exact nomatch hv
  rw [← Except.ok.inj h]
  simp only [Song.ok, parseName_ok hname, hopt, within_eq_ok htempo, within_eq_ok hmeter, (within_eq_ok hcount).2,
    (within_eq_ok hband).2, (within_eq_ok hkeys).2, true_and, decide_true, Bool.and_self]

/-! ## Cues -/

theorem parseTrigger_ok {p : List Byte} {t : Trigger} (h : parseTrigger p = .ok t) : t.ok = true := by
  unfold parseTrigger at h
  split at h
  · obtain ⟨bar, hbar, h⟩ := Parse.of_bind h
    obtain ⟨beat, hbeat, h⟩ := Parse.of_bind h
    rw [← Except.ok.inj h]
    simp only [Trigger.ok, within_eq_ok hbar, within_eq_ok hbeat, true_and, decide_true]
  · rw [← Except.ok.inj h]; rfl
  · rw [← Except.ok.inj h]; rfl
  · exact nomatch h

theorem parseAction_ok {p : List Byte} {a : CueAction} (h : parseAction p = .ok a) : a.ok = true := by
  unfold parseAction at h
  split at h
  · rw [← Except.ok.inj h]; rfl
  · obtain ⟨n, hn, h⟩ := Parse.of_bind h
    rw [← Except.ok.inj h]
    exact decide_eq_true (within_eq_ok hn).2
  · obtain ⟨t, ht, h⟩ := Parse.of_bind h
    rw [← Except.ok.inj h]
    exact decide_eq_true (within_eq_ok ht)
  · obtain ⟨t, ht, h⟩ := Parse.of_bind h
    obtain ⟨b, hb, h⟩ := Parse.of_bind h
    rw [← Except.ok.inj h]
    exact decide_eq_true ⟨(within_eq_ok ht).1, (within_eq_ok ht).2, within_eq_ok hb⟩
  · obtain ⟨b, hb, h⟩ := Parse.of_bind h
    rw [← Except.ok.inj h]
    exact decide_eq_true (within_eq_ok hb)
  · obtain ⟨band, hband, h⟩ := Parse.of_bind h
    obtain ⟨keys, hkeys, h⟩ := Parse.of_bind h
    rw [← Except.ok.inj h]
    simp only [CueAction.ok, optUpTo_ok (field_eq_ok hband), optUpTo_ok (field_eq_ok hkeys), Bool.and_self]
  · obtain ⟨n, hn, h⟩ := Parse.of_bind h
    obtain ⟨es, hes, h⟩ := Parse.of_bind h
    obtain ⟨hlen, hall⟩ := parseMany_ok (ok := ProgEntry.ok) (fun _ _ he => parseProg_ok he) n 0 es hes
    rw [← Except.ok.inj h]
    simp only [CueAction.ok, hlen, hall, (within_eq_ok hn).2, decide_true, Bool.and_self]
  · obtain ⟨text, htext, h⟩ := Parse.of_bind h
    rw [← Except.ok.inj h]
    exact parseName_ok htext
  · obtain ⟨m, -, h⟩ := Parse.of_bind h
    rw [← Except.ok.inj h]; rfl
  · rw [← Except.ok.inj h]; rfl
  · exact nomatch h

theorem byteAt_le (p : List Byte) (i : Nat) : byteAt p i ≤ 255 := Nat.le_of_lt_succ (BitVec.isLt _)

theorem parseCue_ok {p : List Byte} {c : Cue} (h : parseCue p = .ok c) : c.ok = true := by
  obtain ⟨trigger, htrigger, h⟩ := Parse.of_bind h
  obtain ⟨action, haction, h⟩ := Parse.of_bind h
  obtain ⟨flags, hflags, h⟩ := Parse.of_bind h
  obtain ⟨lead, hlead, h⟩ := Parse.of_bind h
  have hboth : (bitAt p 6 0 && bitAt p 6 1) = false := by
    have hv := field_eq_ok hflags
    split at hv
    · exact nomatch hv
    · next hb => exact Bool.eq_false_iff.2 hb
  rw [← Except.ok.inj h]
  simp only [Cue.ok, parseTrigger_ok htrigger, parseAction_ok haction, hboth, (within_eq_ok hlead).2, byteAt_le, Bool.not_false,
    and_self, decide_true, Bool.and_self]

end Sys2Proof.Machine
end

section
/-! PROOFS. The Sound Station Watch keeps the limits and ranges: pulses, echoes, changes of station and the walk of a resync
(R163 to R173). -/

namespace Sys2Proof.Machine

/-! ## Pulses and echoes -/

/-- A change of the watch, and of the count of free choices, alone. -/
theorem State.watch_within {p : Prop} (s : State) (w : Watch) (n : Nat) : Within p s { s with sw := w, choices := n } :=
  Noted.within (Noted.of_eq rfl rfl rfl rfl) rfl rfl rfl

theorem State.changeStation_within {p : Prop} (s : State) (x : Station) (new : StationState) (f : Option FaultKind) :
    Within p s (s.changeStation x new f) := (s.changeStation_watchOnly x new f).within (s.changeStation_fits x new f)

theorem State.offerNotice_within {p : Prop} (s : State) (l : Link) (n : Notice) : Within p s (s.offerNotice l n) :=
  (s.offerNotice_linksOnly l n).within (s.offerNotice_fits l n)

theorem State.setStation_within {p : Prop} (s : State) (x : Station) (r : StationRec) : Within p s (s.setStation x r) :=
  s.watch_within _ _

theorem State.limitStation_within {p : Prop} (s : State) (x : Station) : Within p s (s.limitStation x) := by
  unfold State.limitStation
  split
  · split
    · exact s.changeStation_within _ _ _
    · exact Within.refl s
  · split
    · exact s.changeStation_within _ _ _
    · exact Within.refl s
  · exact Within.refl s
  · exact Within.refl s
  · exact Within.refl s

theorem State.setLimit_within {p : Prop} (s : State) (n : Nat) : Within p s (s.setLimit n) := by
  have hset : Within p s { s with sw := { s.sw with limit := n } } := s.watch_within _ _
  have hchoose : Within p s (State.choose { s with sw := { s.sw with limit := n } }) := s.watch_within _ _
  unfold State.setLimit
  simp only
  split
  · split
    · exact (hchoose.trans (State.limitStation_within _ .a)).trans (State.limitStation_within _ .b)
    · exact (hchoose.trans (State.limitStation_within _ .b)).trans (State.limitStation_within _ .a)
  · exact (hset.trans (State.limitStation_within _ .a)).trans (State.limitStation_within _ .b)

theorem State.missCheck_within {p : Prop} (s : State) (x : Station) : Within p s (s.missCheck x) := by
  unfold State.missCheck
  simp only
  split
  · exact Within.refl s
  · have hset : ∀ r, Within p s (s.setStation x r) := s.setStation_within x
    split
    · split
      · exact (hset _).trans (State.changeStation_within _ _ _ _)
      · split
        · exact (hset _).trans (State.changeStation_within _ _ _ _)
        · exact hset _
    · split
      · exact (hset _).trans (State.changeStation_within _ _ _ _)
      · exact hset _
    · split
      · exact (hset _).trans (State.changeStation_within _ _ _ _)
      · exact hset _
    · exact hset _
    · exact hset _

theorem State.pulseStation_within {p : Prop} (s : State) (x : Station) : Within p s (s.pulseStation x) := by
  unfold State.pulseStation
  split
  · exact Within.refl s
  · exact ((s.missCheck_within x).trans (State.offerNotice_within _ _ _)).trans (State.setStation_within _ _ _)

theorem State.pulse_within {p : Prop} (s : State) : Within p s s.pulse := by
  have hset : ∀ (d : Stamp) (n : Nat), Within p s { s with sw := { s.sw with deadline := d, pulse := n } } :=
    fun _ _ => s.watch_within _ _
  have hchoose : ∀ (d : Stamp) (n : Nat), Within p s (State.choose { s with sw := { s.sw with deadline := d, pulse := n } }) :=
    fun _ _ => s.watch_within _ _
  unfold State.pulse
  simp only
  split
  · exact ((hset _ _).trans (State.pulseStation_within _ .a)).trans (State.pulseStation_within _ .b)
  · split
    · exact ((hchoose _ _).trans (State.pulseStation_within _ .a)).trans (State.pulseStation_within _ .b)
    · exact ((hchoose _ _).trans (State.pulseStation_within _ .b)).trans (State.pulseStation_within _ .a)

theorem State.echoed_within {p : Prop} (s : State) (x : Station) (n : Nat) : Within p s (s.echoed x n) := by
  unfold State.echoed
  split
  · simp only
    split
    · exact (s.setStation_within x _).trans (State.changeStation_within _ _ _ _)
    · exact (s.setStation_within x _).trans (State.changeStation_within _ _ _ _)
    · exact s.setStation_within x _
    · exact s.setStation_within x _
    · exact s.setStation_within x _
  · exact Within.refl s

theorem State.stationRise_within {p : Prop} (s : State) (x : Station) : Within p s (s.stationRise x) :=
  (s.setStation_within x _).trans (State.changeStation_within _ _ _ _)

theorem State.stationFall_within {p : Prop} (s : State) (x : Station) : Within p s (s.stationFall x) :=
  (s.setStation_within x _).trans (State.changeStation_within _ _ _ _)

/-! ## The walk of a resync -/

/-- A change of the replay-pending sets alone. -/
theorem State.pend_within {p : Prop} (s : State) {held : List HeldEntry}
    (h : held.map HeldEntry.bare = s.lr.held.map HeldEntry.bare) : Within p s { s with lr := { s.lr with held := held } } := by
  have hlen : held.length = s.lr.held.length := by simpa using congrArg List.length h
  refine Noted.within ⟨Fits.of_sl rfl, id, fun k => hlen.trans_le k, id, fun k => ⟨by rw [heldOk_of_bare h]; exact k.1,
    fun o => ?_⟩⟩ rfl rfl rfl
  rw [targetsOn_of_bare h]
  exact k.2 o

theorem unmarkFirst_bare (x : Station) : ∀ held : List HeldEntry,
    (unmarkFirst x held).map HeldEntry.bare = held.map HeldEntry.bare
  | [] => rfl
  | e :: r => by
    unfold unmarkFirst
    split
    · rfl
    · rw [List.map_cons, unmarkFirst_bare x r, List.map_cons]

theorem State.resyncReplay_within {p : Prop} (s : State) (x : Station) : Within p s (s.resyncReplay x) := by
  unfold State.resyncReplay
  split
  · next hr =>
    split
    · exact Within.refl s
    · next e he =>
      have hroom : e.soundTargets.length = 0 ∨ (s.link x.link).queue.length + e.soundTargets.length ≤ 128 := by
        simp only [State.replayReady, he, Bool.and_eq_true, Bool.or_eq_true, decide_eq_true_eq] at hr
        refine hr.2.imp id (fun h => ?_)
        have := h.2
        simp only [LinkState.free, Config.linkQueue] at this
        omega
      have hposts : Within p s (e.soundTargets.foldl (fun s t => s.post x.link (.notice (.event t.replayOn))) s) := by
        refine (State.postEach_linksOnly x.link (fun t => .event t.replayOn) _ s).within ?_
        rcases hroom with h0 | hk
        · rw [List.length_eq_zero_iff.1 h0]
          exact Fits.refl s
        · exact State.postEach_fits x.link (fun t => .event t.replayOn) _ s hk
      exact hposts.trans (State.pend_within _ (unmarkFirst_bare x _))
  · exact Within.refl s

theorem State.resyncJoined_within {p : Prop} (s : State) (x : Station) : Within p s (s.resyncJoined x) := by
  unfold State.resyncJoined
  split
  · next h =>
    simp only [State.joinedReady, Bool.and_eq_true, decide_eq_true_eq] at h
    exact ((s.postNotice_linksOnly _ _).within (State.post_fits (LinkState.queue_le_of_room h.2) _)).trans
      (State.changeStation_within _ _ _ _)
  · exact Within.refl s

end Sys2Proof.Machine
end

section
/-! PROOFS. Every request taken keeps the limits and ranges: its answer has a place in its link's queue, and its effect is that
of an operation that keeps them. -/

namespace Sys2Proof.Machine

/-! ## Answers and store records -/

/-- A change of links, watch, store and Fault Log alone. -/
theorem Noted.of_links {s t : State} (f : Fits s t) (hop : t.op = s.op) (hlr : t.lr = s.lr) : Noted s t := by
  have hout : ∀ o, t.midiOut o = s.midiOut o := fun o => by simp [State.midiOut, hop]
  exact ⟨f, fun k => hlr ▸ k, fun k => hlr ▸ k, fun k o => hout o ▸ k o, fun k => ⟨hlr ▸ k.1, fun o => by
    rw [hout, hlr]; exact k.2 o⟩⟩

theorem State.answer_within {p : Prop} {s : State} {l : Link} (h : 1 ≤ (s.link l).free) (code : Nat) (r : ResultCode)
    (d : List Byte) : Within p s (s.answer l code r d) :=
  (Noted.of_links (State.post_fits ((LinkState.one_le_free_iff _).1 h) _) rfl rfl).within rfl rfl rfl

theorem State.withStore_within {p : Prop} {s : State} {x : ShowStore} (h : p → s.Ranged → x.inRange = true) :
    Within p s (s.withStore x) :=
  ⟨Noted.of_eq rfl rfl rfl rfl, id, fun hp k => ⟨k.te, k.cs, h hp k⟩⟩

/-- A change of the Fault Log's records, modes or line alone. -/
theorem State.log_within {p : Prop} (s : State) (f : FaultLog) : Within p s { s with fl := f } :=
  Noted.within (Noted.of_eq rfl rfl rfl rfl) rfl rfl rfl

/-- A link's record changes, and no more telegrams wait in it. -/
theorem State.setLink_within {p : Prop} {s : State} {l : Link} {x : LinkState} (h : x.queue.length ≤ (s.link l).queue.length) :
    Within p s (s.setLink l x) :=
  (Noted.of_links (State.setLink_fits h.trans) rfl rfl).within rfl rfl rfl

/-- The copy that a save takes is within the ranges of the tables (R180, R181). -/
theorem State.Ranged.image {s : State} (h : s.Ranged) : s.image.inRange = true := by
  simp only [ShowImage.inRange, State.image, Bool.and_eq_true, List.all_eq_true, List.all_map, Function.comp_def]
  exact ⟨h.cs.songs, h.cs.cues⟩

theorem ShowStore.inRange_iff (x : ShowStore) : x.inRange = true ↔
    (∀ g c, x.flash = .image g c → g.inRange = true) ∧ ∀ g, x.op = .saving g → g.inRange = true := by
  obtain ⟨status, op, flash⟩ := x
  cases flash <;> cases op <;> simp [ShowStore.inRange]

/-! ## Effects of requests -/

theorem State.locate_within (s : State) (bar : Nat) :
    Within (s.te.transport = .stopped ∧ 1 ≤ bar ∧ bar ≤ 9999) s (s.locate bar) := by
  refine Within.trans (Within.trans ?_ (State.transportNotice_within _)) (State.chase_within _ _)
  refine State.withTe_within id (fun hp k => ?_)
  obtain ⟨-, hlo, hhi⟩ := hp
  exact { k with
    beat := ⟨Nat.le_refl _, one_le_of_meterOk k.meter⟩
    bar := .inl ⟨by simp only; omega, by simp only; omega⟩
    rest := fun _ => rfl }

theorem State.loadScene_within {p : Prop} {s : State} (h : s.lr.lock = none) (l : Link) (n : Nat) (q : SwapPoint) :
    Within p s (s.loadScene l n q) := by
  have hstage : Within p s (s.stage n q (.link l)) := (s.stage_routerOnly _ _ _).within (s.stage_noted _ _ _)
  unfold State.loadScene
  cases q with
  | now => exact hstage.trans ((State.swap_routerOnly (s.stage n .now (.link l)) _ h).within (State.swap_noted _ _))
  | nextBeat => exact hstage
  | nextBar => exact hstage
  | cue => exact hstage

theorem State.takeLock_within {p : Prop} (s : State) (l : Link) : Within p s (s.takeLock l) := by
  have hlock : Within p s { s with lr := { s.lr with lock := some l } } := (s.maps_noted _ _ _ _).within rfl rfl rfl
  exact hlock.trans ((State.sceneNotice_linksOnly _ _ _ _).routerOnly.within (State.sceneNotice_noted _ _ _ _))

theorem State.releaseLock_within {p : Prop} (s : State) : Within p s s.releaseLock :=
  s.releaseLock_watchOnly.within s.releaseLock_fits

theorem State.restartClick_within {p : Prop} (s : State) : Within p s s.restartClick := s.click_within _

theorem State.restart_within {p : Prop} (s : State) : Within p s s.restart :=
  (((s.restartTempo_within.trans (State.restartSequencer_within _)).trans
    ((State.restartMap_routerOnly _).within (State.restartMap_noted _))).trans
    ((State.restartNotes_routerOnly _).within (State.restartNotes_noted _))).trans (State.restartClick_within _)

theorem State.goHeld_within {p : Prop} (s : State) (n : Nat) : Within p s (s.goHeld n) := by
  have hclear : Within p s (s.withCs { s.cs with latchedNext := none }) :=
    State.withCs_within (fun _ k => { k with latchedNext := rfl })
  exact hclear.trans (State.becomeCurrent_within _ _ _ _)

theorem State.applyInput_within {p : Prop} (s : State) (i : InPort) (t : InSettings) : Within p s (s.applyInput i t) :=
  (s.applyInput_portsOnly i t).within (s.applyInput_noted i t)

theorem State.applyOutput_within {p : Prop} (s : State) (o : OutPort) (t : OutSettings) :
    Within p s (s.setOut o ((s.midiOut o).applySettings t)) :=
  (s.setOut_routerOnly _ _).within (State.setOut_noted (MidiOut.applySettings_outKept _ t))

theorem State.makeActive_within {p : Prop} (s : State) (x : Station) (c : ActiveCause) : Within p s (s.makeActive x c) :=
  (s.makeActive_watchOnly x c).within (s.makeActive_fits x c)

theorem State.panic_within {p : Prop} (s : State) : Within p s s.panic := s.panic_portsOnly.within s.panic_noted

/-! ## Every request -/

theorem State.reply_within {s : State} {l : Link} (h : 1 ≤ (s.link l).free) (k : ReqKind) (r : ResultCode) :
    Within True s (s.reply l k r) := State.answer_within h _ _ _

theorem State.replyRange_within {s : State} {l : Link} (h : 1 ≤ (s.link l).free) (k : ReqKind) (e : BadField) :
    Within True s (s.replyRange l k e) := State.answer_within h _ _ _

/-- Every request that is handed to its block, with a place free for its answer (R148). -/
theorem State.perform_within {s : State} {l : Link} (h : 1 ≤ (s.link l).free) (k : ReqKind) (p : List Byte) :
    Within True s (s.perform l k p) := by
  have rep := fun r => State.reply_within h k r
  have rng := fun e => State.replyRange_within h k e
  cases k
  case start =>
    simp only [State.perform, State.reqStart]
    split
    · exact rep _
    · split
      · next hs => exact (rep _).trans ((State.startTransport_within _).mono (fun _ => hs))
      · exact rep _
  case stop =>
    simp only [State.perform, State.reqStop]
    split
    · unfold State.reqStopNow
      split
      · exact (rep _).trans (State.stopNow_within _)
      · exact rep _
    · split
      · unfold State.reqStopAtBar
        split
        · exact (rep _).trans (State.stopAtBar_within _)
        · exact (rep _).trans (State.stopAtBar_within _)
        · exact rep _
        · exact rep _
      · exact rng _
  case locate =>
    simp only [State.perform, State.reqLocate]
    split
    · exact rng _
    · next bar hbar =>
      split
      · next hs => exact (rep _).trans ((State.locate_within _ bar).mono (fun _ => ⟨hs, within_eq_ok hbar⟩))
      · exact rep _
  case setTempo =>
    simp only [State.perform, State.reqSetTempo]
    split
    · exact rep _
    · exact (rep _).trans ((State.setTempo_within _ _).mono (fun _ => clampTempo_tempoOk _))
  case rampTempo =>
    simp only [State.perform, State.reqRampTempo]
    split
    · exact rep _
    · split
      · exact rng _
      · next beats hb =>
        exact (rep _).trans ((State.rampTempo_within _ _ beats).mono (fun _ => ⟨clampTempo_tempoOk _, within_eq_ok hb⟩))
  case setMeter =>
    simp only [State.perform, State.reqSetMeter]
    split
    · exact rng _
    · next b hb => exact (rep _).trans ((State.setMeter_within _ b).mono (fun _ => (meterOk_iff b).2 (within_eq_ok hb)))
  case setFollow =>
    simp only [State.perform, State.reqSetFollow]
    split
    · exact rng _
    · split
      · exact rep _
      · exact (rep _).trans (State.setFollow_within _ _)
  case writePattern =>
    simp only [State.perform, State.reqWritePattern]
    split
    · exact rep _
    · split
      · exact rng _
      · exact (rep _).trans (State.click_within _ _)
  case setClick =>
    simp only [State.perform, State.reqSetClick]
    split
    · exact rep _
    · split
      · exact rng _
      · exact (rep _).trans (State.askClick_within _ _ _)
  case muteClick =>
    simp only [State.perform, State.reqMuteClick]
    split
    · exact rng _
    · split
      · exact rep _
      · exact (rep _).trans (State.click_within _ _)
  case writeScene =>
    simp only [State.perform, State.reqWriteScene]
    split
    · exact rep _
    · split
      · exact rng _
      · split
        · exact rep _
        · split
          · exact rng _
          · exact (rep _).trans (State.withCs_within (fun _ c => ⟨c.songs, c.cues, c.current, c.latchedNext⟩))
  case readScene =>
    simp only [State.perform, State.reqReadScene]
    split
    · exact rng _
    · split
      · exact rep _
      · split
        · exact State.answer_within h _ _ _
        · exact State.answer_within h _ _ _
  case loadSceneNow =>
    simp only [State.perform, State.reqLoadScene]
    split
    · exact rng _
    · split
      · exact rep _
      · split
        · exact rep _
        · next hl =>
          split
          · exact rep _
          · exact (rep _).trans (State.loadScene_within (s := s.reply l .loadSceneNow .done) (not_not.mp hl) _ _ _)
  case lock =>
    simp only [State.perform, State.reqLock]
    split
    · split
      · exact (rep _).trans (State.takeLock_within _ _)
      · exact rep _
    · split
      · exact rep _
      · exact rep _
  case unlock =>
    simp only [State.perform, State.reqUnlock]
    split
    · split
      · exact rep _
      · exact (rep _).trans (State.releaseLock_within _)
    · split
      · exact (rep _).trans (State.releaseLock_within _)
      · exact rep _
  case writeCue =>
    simp only [State.perform, State.reqWriteCue]
    split
    · exact rep _
    · split
      · exact rep _
      · split
        · exact rng _
        · next c hc =>
          have hok : c.ok = true := parseCue_ok hc
          exact (rep _).trans (State.withCs_within (fun _ k => ⟨k.songs, k.put _ hok, k.current, k.latchedNext⟩))
  case readCue =>
    simp only [State.perform, State.reqReadCue]
    split
    · exact rep _
    · split
      · exact State.answer_within h _ _ _
      · exact State.answer_within h _ _ _
  case writeSong =>
    simp only [State.perform, State.reqWriteSong]
    split
    · exact rep _
    · split
      · exact rng _
      · split
        · exact rng _
        · next g hg =>
          have hok : g.ok = true := parseSong_ok hg
          refine (rep _).trans (State.withCs_within (fun _ k => ⟨fun e he => ?_, k.cues, k.current, k.latchedNext⟩))
          rcases Table.mem_put he with he | he
          · rw [he]; exact hok
          · exact k.songs e he
  case readSong =>
    simp only [State.perform, State.reqReadSong]
    split
    · exact rng _
    · split
      · exact rep _
      · split
        · exact State.answer_within h _ _ _
        · exact State.answer_within h _ _ _
  case writeSetlist =>
    simp only [State.perform, State.reqWriteSetlist]
    split
    · exact rep _
    · split
      · exact rep _
      · split
        · exact rng _
        · exact (rep _).trans (State.withCs_within (fun _ c => ⟨c.songs, c.cues, c.current, c.latchedNext⟩))
  case readSetlist =>
    simp only [State.perform, State.reqReadSetlist]
    split
    · exact rep _
    · exact State.answer_within h _ _ _
  case selectSong =>
    simp only [State.perform, State.reqSelectSong]
    split
    · exact rep _
    · split
      · exact rng _
      · split
        · exact rep _
        · split
          · exact rep _
          · next g hg => exact (rep _).trans ((State.songSelect_within _ _ _ g _).of_ranged (fun _ k => k.cs.song hg))
  case go =>
    simp only [State.perform, State.reqGo]
    split
    · next c _ hc =>
      split
      · split
        · exact rep _
        · exact (rep _).trans (State.withCs_within (fun _ c => ⟨c.songs, c.cues, c.current, c.latchedNext⟩))
      · exact (rep _).trans ((State.goStopped_within _ c).of_ranged (fun _ k => k.cs.current_ok hc))
    · exact (rep _).trans (State.goHeld_within _ _)
    · exact rep _
  case setInput =>
    simp only [State.perform, State.reqSetInput]
    split
    · exact rep _
    · split
      · exact rng _
      · exact (rep _).trans (State.applyInput_within _ _ _)
  case setOutput =>
    simp only [State.perform, State.reqSetOutput]
    split
    · exact rep _
    · split
      · exact rng _
      · exact (rep _).trans (State.applyOutput_within _ _ _)
  case setWatch =>
    simp only [State.perform, State.reqSetWatch]
    split
    · exact rep _
    · exact (rep _).trans (State.setLimit_within _ _)
  case setActive =>
    simp only [State.perform, State.reqSetActive]
    split
    · exact rng _
    · split
      · split
        · exact rep _
        · exact (rep _).trans (State.makeActive_within _ _ _)
      · exact rep _
  case resync =>
    simp only [State.perform, State.reqResync]
    split
    · exact rng _
    · split
      · exact (rep _).trans (State.changeStation_within _ _ _ _)
      · exact rep _
  case restart => exact (rep _).trans (State.restart_within _)
  case panic => exact (rep _).trans (State.panic_within _)
  case saveShow =>
    simp only [State.perform, State.reqSaveShow]
    split
    · exact rep _
    · refine Within.of_ranged (p := s.Ranged) ?_ (fun _ k => k)
      refine ((rep _).mono (fun _ => trivial)).trans (State.withStore_within (fun hs k => ?_))
      obtain ⟨hflash, -⟩ := (ShowStore.inRange_iff _).1 k.st
      refine (ShowStore.inRange_iff _).2 ⟨hflash, fun g hg => ?_⟩
      rw [← StoreOp.saving.inj hg]
      exact hs.image
  case loadShow =>
    simp only [State.perform, State.reqLoadShow]
    split
    · exact rep _
    · split
      · exact rep _
      · refine (rep _).trans (State.withStore_within (fun _ k => ?_))
        obtain ⟨hflash, -⟩ := (ShowStore.inRange_iff _).1 k.st
        exact (ShowStore.inRange_iff _).2 ⟨hflash, fun _ hg => nomatch hg⟩
  case setFaultMode =>
    simp only [State.perform, State.reqSetFaultMode]
    split
    · exact rep _
    · split
      · exact rng _
      · split
        · exact rep _
        · exact (rep _).trans (State.log_within _ _)
  case ackFaults => exact (rep _).trans (State.log_within _ _)
  case readStatus => exact State.answer_within h _ _ _
  case readFaults =>
    simp only [State.perform, State.reqReadFaults]
    split
    · exact rng _
    · exact State.answer_within h _ _ _
  case subscribe => exact (State.answer_within h _ _ _).trans (State.setLink_within (Nat.le_refl _))

end Sys2Proof.Machine
end

section
/-! PROOFS. Telegrams and their receiver, reports, the transmitter, DETECT, the Show Store and the passing of time keep every
limit and range. -/

namespace Sys2Proof.Machine

/-! ## Requests, reports, telegrams -/

theorem State.checkRequest_within {s : State} {l : Link} (h : 1 ≤ (s.link l).free) (k : ReqKind) (p : List Byte) :
    Within True s (s.checkRequest l k p) := by
  unfold State.checkRequest
  split
  · exact State.reply_within h _ _
  · split
    · exact State.reply_within h _ _
    · split
      · exact State.reply_within h _ _
      · split
        · exact State.reply_within h _ _
        · exact State.perform_within h k p

theorem State.takeRequest_within (s : State) (l : Link) (n : Nat) (p : List Byte) : Within True s (s.takeRequest l n p) := by
  unfold State.takeRequest
  split
  · exact s.report_within _ _
  · next h =>
    split
    · exact State.answer_within (Nat.one_le_iff_ne_zero.2 h) _ _ _
    · exact State.checkRequest_within (Nat.one_le_iff_ne_zero.2 h) _ _

theorem State.resumeLink_within {p : Prop} (s : State) (l : Link) : Within p s (s.resumeLink l) :=
  State.setLink_within (LinkState.startTx_queue_le { s.link l with hold := none } s.now)

theorem State.holdLink_within {p : Prop} (s : State) (l : Link) (ms : Nat) : Within p s (s.holdLink l ms) := by
  unfold State.holdLink
  split
  · exact s.resumeLink_within l
  · exact State.setLink_within (Nat.le_refl _)

theorem State.performReport_within (s : State) (l : Link) (k : RepKind) (p : List Byte) :
    Within True s (s.performReport l k p) := by
  unfold State.performReport
  split
  · exact s.markFrom_within _
  · split
    · exact s.echoed_within _ _
    · exact Within.refl s
  · exact s.holdLink_within _ _
  · exact s.resumeLink_within _

theorem State.takeReport_within (s : State) (l : Link) (n : Nat) (p : List Byte) : Within True s (s.takeReport l n p) := by
  unfold State.takeReport
  split
  · exact s.report_within _ _
  · split
    · exact s.report_within _ _
    · split
      · exact s.report_within _ _
      · exact s.performReport_within _ _ _

theorem State.takeTelegram_within (s : State) (l : Link) (k : Byte) (p : List Byte) : Within True s (s.takeTelegram l k p) := by
  unfold State.takeTelegram
  split
  · exact s.takeRequest_within _ _ _
  · split
    · exact s.takeReport_within _ _ _
    · exact s.report_within _ _

/-- The receiver's own moves leave the queue alone. -/
theorem State.receiver_within {p : Prop} {s : State} {l : Link} {x : LinkState} (h : x.queue = (s.link l).queue) :
    Within p s (s.setLink l x) := State.setLink_within (by rw [h])

theorem State.telegram_within (s : State) (l : Link) (k : Byte) (p : List Byte) : Within True s (s.telegram l k p) := by
  unfold State.telegram
  split
  · exact (State.receiver_within (by rfl)).trans (State.takeTelegram_within _ _ _ _)
  · exact Within.refl s

/-! ## The receiver -/

theorem State.discard_within {p : Prop} (s : State) (l : Link) (k : FaultKind) : Within p s (s.discard l k) :=
  (s.report_within _ _).trans (State.receiver_within (by rfl))

theorem State.complete_within (s : State) (l : Link) : Within True s (s.complete l) := by
  unfold State.complete
  simp only
  split
  · exact (State.receiver_within (by rfl)).trans (State.takeTelegram_within _ _ _ _)
  · exact s.discard_within _ _

theorem State.takeByte_within (s : State) (l : Link) (b : Byte) : Within True s (s.takeByte l b) := by
  unfold State.takeByte
  simp only
  split
  · split
    · exact (State.receiver_within (by rfl)).trans (State.discard_within _ _ _)
    · split
      · exact (State.receiver_within (by rfl)).trans (State.complete_within _ _)
      · exact State.receiver_within rfl
  · split
    · exact State.receiver_within rfl
    · exact Within.refl s

theorem State.rescan_within : ∀ (n : Nat) (s : State) (l : Link), Within True s (State.rescan n s l)
  | 0, s, _ => Within.refl s
  | n + 1, s, l => by
    unfold State.rescan
    split
    · exact Within.refl s
    · exact ((State.receiver_within (by rfl)).trans (State.takeByte_within _ _ _)).trans (State.rescan_within n _ l)

theorem State.lineByte_within (s : State) (l : Link) (b : Byte) : Within True s (s.lineByte l b) :=
  ((s.takeByte_within _ _).trans (State.rescan_within _ _ _)).ite

theorem State.badStop_within (s : State) (l : Link) : Within True s (s.badStop l) :=
  ((s.discard_within _ _).trans (State.rescan_within _ _ _)).ite

theorem State.gapDeadline_within (s : State) (l : Link) : Within True s (s.gapDeadline l) :=
  ((s.discard_within _ _).trans (State.rescan_within _ _ _)).ite

/-! ## Transmission, hold, DETECT -/

theorem State.telegramSent_within {p : Prop} (s : State) (l : Link) : Within p s (s.telegramSent l) := by
  unfold State.telegramSent
  split
  · exact Within.refl s
  · exact State.setLink_within (LinkState.startTx_queue_le { s.link l with tx := none } s.now)

theorem State.holdExpiry_within {p : Prop} (s : State) (l : Link) : Within p s (s.holdExpiry l) := by
  unfold State.holdExpiry
  split
  · exact Within.refl s
  · exact s.resumeLink_within l

theorem State.detectRises_within {p : Prop} (s : State) (l : Link) : Within p s (s.detectRises l) := by
  unfold State.detectRises
  split
  · exact Within.refl s
  · simp only
    split
    · exact (State.receiver_within (by rfl)).trans (State.stationRise_within _ _)
    · exact State.receiver_within (by rfl)

theorem State.detectFalls_within {p : Prop} (s : State) (l : Link) : Within p s (s.detectFalls l) := by
  have hfallen : ∀ j, Within p s (s.setLink j LinkState.fallen) := fun _ => State.setLink_within (Nat.zero_le _)
  unfold State.detectFalls
  split
  · simp only
    split
    · exact (hfallen _).trans (State.stationFall_within _ _)
    · exact (hfallen _).trans (State.stationFall_within _ _)
    · exact hfallen _
    · exact (hfallen _).trans (State.releaseLock_within _).ite
  · exact Within.refl s

/-! ## Show Store -/

theorem State.storeNotice_within {p : Prop} (s : State) (o : StoreOccasion) (b : Bool) : Within p s (s.storeNotice o b) :=
  (s.storeNotice_linksOnly o b).within (s.broadcast_fits _ _)

theorem State.reportStore_within {p : Prop} (s : State) (k : Option FaultKind) : Within p s (s.reportStore k) := by
  unfold State.reportStore
  split
  · exact s.report_within _ _
  · exact Within.refl s

theorem State.loadTables_within (s : State) (g : ShowImage) : Within (g.inRange = true) s (s.loadTables g) := by
  refine ⟨Noted.of_eq rfl rfl rfl rfl, id, fun hg k => ⟨k.te, ?_, k.st⟩⟩
  simp only [ShowImage.inRange, Bool.and_eq_true, List.all_eq_true] at hg
  refine ⟨hg.1, fun e he => ?_, k.cs.current, k.cs.latchedNext⟩
  obtain ⟨d, hd, rfl⟩ := List.mem_map.1 he
  exact hg.2 d hd

theorem State.loadSettings_within {p : Prop} (s : State) (g : ShowImage) : Within p s (s.loadSettings g) := by
  have hin : Within p s (allIns.foldl (fun s i => s.applyInput i (g.inputs.get i)) s) :=
    foldl_rel (Within p) Within.refl Within.trans (fun s i => s.applyInput_within i _) _ s
  have hout : ∀ u : State, Within p u (allOuts.foldl (fun s o => s.setOut o ((s.midiOut o).applySettings (g.outputs.get o))) u) :=
    fun u => foldl_rel (Within p) Within.refl Within.trans (fun s o => s.applyOutput_within o _) _ u
  exact (hin.trans (hout _)).trans (State.setLimit_within _ _)

/-- What a save leaves in the flash is its copy, or no image (R181). -/
theorem saveOutcome_inRange {e : SaveEnd} {copy g : ShowImage} {c : BitVec 16} (h : copy.inRange = true)
    (hf : (saveOutcome e copy).2.2 = .image g c) : g.inRange = true := by
  unfold saveOutcome at hf
  split at hf
  · obtain ⟨rfl, -⟩ := Flash.image.inj hf
    exact h
  · exact nomatch hf
  · exact nomatch hf
  · exact nomatch hf

theorem State.saveEnds_within (s : State) (e : SaveEnd) : Within True s (s.saveEnds e) := by
  unfold State.saveEnds
  split
  · next copy hcopy =>
    refine Within.trans (Within.trans ?_ (State.storeNotice_within _ _ _)) (State.reportStore_within _ _)
    refine State.withStore_within (fun _ k => ?_)
    have hok := ((ShowStore.inRange_iff _).1 k.st).2 copy hcopy
    exact (ShowStore.inRange_iff _).2 ⟨fun g c hg => saveOutcome_inRange hok hg, fun _ hg => nomatch hg⟩
  · exact Within.refl s
  · exact Within.refl s

/-- An image that a read finds VALID is the one in the flash. -/
theorem Flash.read_inRange {x : ShowStore} {g : ShowImage} (h : x.inRange = true) (k : x.flash.read.2 = some g) :
    g.inRange = true := by
  unfold Flash.read at k
  split at k
  · exact nomatch k
  · exact nomatch k
  · next g' c hf =>
    split at k
    · rw [← Option.some.inj k]
      exact ((ShowStore.inRange_iff _).1 h).1 g' c hf
    · exact nomatch k

/-- The store's status, and the end of a load, leave its flash. -/
theorem ShowStore.inRange_of_flash {x y : ShowStore} (h : x.inRange = true) (hf : y.flash = x.flash)
    (ho : y.op = x.op ∨ y.op = .none) : y.inRange = true := by
  obtain ⟨hflash, hop⟩ := (ShowStore.inRange_iff _).1 h
  refine (ShowStore.inRange_iff _).2 ⟨fun g c hg => hflash g c (hf ▸ hg), fun g hg => ?_⟩
  rcases ho with ho | ho
  · exact hop g (ho ▸ hg)
  · rw [ho] at hg; exact nomatch hg

theorem State.loadEnds_within (s : State) : Within True s s.loadEnds := by
  unfold State.loadEnds
  split
  · have hst : ∀ q, Within q s (s.withStore { s.st with status := s.st.flash.read.1, op := .none }) := fun q =>
      State.withStore_within (fun _ k => ShowStore.inRange_of_flash k.st rfl (.inr rfl))
    simp only
    split
    · next g hg =>
      have hload : Within True s ((s.withStore { s.st with status := s.st.flash.read.1, op := .none }).loadTables g) :=
        ((hst _).trans (State.loadTables_within _ g)).of_ranged (fun _ k => Flash.read_inRange k.st hg)
      exact ((hload.trans (State.loadSettings_within _ _)).trans (State.log_within _ _)).trans (State.storeNotice_within _ _ _)
    · exact ((hst _).trans (State.storeNotice_within _ _ _)).trans (State.reportStore_within _ _)
  · exact Within.refl s
  · exact Within.refl s

theorem State.startupLoad_within (s : State) (g : Option ShowImage) :
    Within (∀ x, g = some x → x.inRange = true) s (s.startupLoad g) := by
  unfold State.startupLoad
  split
  · next g =>
    exact ((s.log_within _).trans ((State.loadTables_within _ g).mono (fun h => h g rfl))).trans (State.loadSettings_within _ _)
  · exact Within.refl s

theorem State.startupEnds_within (s : State) : Within True s s.startupEnds := by
  unfold State.startupEnds
  split
  · exact Within.refl s
  · have hst : ∀ q, Within q s (s.withStore { s.st with status := s.st.flash.read.1 }) := fun q =>
      State.withStore_within (fun _ k => ShowStore.inRange_of_flash k.st rfl (.inl rfl))
    have hload := ((hst _).trans (State.startupLoad_within _ s.st.flash.read.2)).of_ranged
      (q := True) (fun _ k x hx => Flash.read_inRange k.st hx)
    refine Within.trans (Within.trans ?_ (State.storeNotice_within _ .startup _))
      (Noted.within (Noted.of_eq rfl rfl rfl rfl) rfl rfl rfl)
    exact (hload.trans (State.report_within _ _ _)).trans (State.reportStore_within _ _)

/-! ## Outputs and time -/

theorem State.outputByteSent_within {p : Prop} (s : State) (o : OutPort) : Within p s (s.outputByteSent o) :=
  (s.setOut_routerOnly _ _).within (State.setOut_noted (MidiOut.byteSent_sentOn _ _).outKept)

theorem State.outputDrained_within {p : Prop} (s : State) (o : OutPort) : Within p s (s.outputDrained o) := by
  unfold State.outputDrained
  split
  · next h =>
    exact (s.setOut_routerOnly _ _).within (State.setOut_noted (MidiOut.disable_outKept h.2))
  · exact Within.refl s

theorem LinkState.shiftByte_queue (x : LinkState) (now : Stamp) : (x.shiftByte now).queue = x.queue := by
  unfold LinkState.shiftByte
  split
  · rfl
  · split
    · split <;> rfl
    · rfl
    · rfl

theorem State.shiftBytes_within {p : Prop} (s : State) : Within p s s.shiftBytes :=
  foldl_rel (Within p) Within.refl Within.trans (fun _ _ => State.receiver_within (LinkState.shiftByte_queue _ _)) allLinks s

theorem TempoEngine.addTempo_history (te : TempoEngine) : te.addTempo.history = te.history := by
  unfold TempoEngine.addTempo
  split
  · simp only
    split <;> rfl
  · rfl

theorem TempoEngine.Ranged.addTempo {te : TempoEngine} (h : te.Ranged) : te.addTempo.Ranged := by
  have hacc := h.acc
  obtain ⟨-, hhi⟩ := (tempoOk_iff _).1 h.tempo
  cases ht : te.transport.ticking with
  | false => rw [addTempo_of_stopped ht]; exact h
  | true =>
    rcases Nat.lt_or_ge (te.acc + te.tempo) 12500000 with hm | hm
    · rw [addTempo_of_below ht hm]
      exact { h with acc := hm }
    · rw [addTempo_of_reached ht hm]
      have hleft : te.acc + te.tempo - 12500000 < 12500000 := by omega
      generalize te.acc + te.tempo - 12500000 = left at hleft ⊢
      exact { h with acc := hleft }

theorem State.advance_within (s : State) : Within True s s.advance := by
  have hbytes : Within True s (State.shiftBytes (if sampleBoundary s.micros then s.sampleBuses else s)) :=
    (s.click_within _).ite.trans (State.shiftBytes_within _)
  have hadd : ∀ u : State, Within True u (u.withTe u.te.addTempo) := fun u =>
    State.withTe_within (fun h => by rw [TempoEngine.addTempo_history]; exact h) (fun _ k => k.addTempo)
  have hclock : ∀ (u : State) (n : Nat), Within True u { u with micros := n } := fun u n =>
    Noted.within (Noted.of_eq rfl rfl rfl rfl) rfl rfl rfl
  exact (hbytes.trans (hadd _)).trans (hclock _ _)

end Sys2Proof.Machine
end

section
/-! PROOFS. No step outgrows a limit or leaves a range (O7): what every deed keeps, and what a reset brings about. -/

namespace Sys2Proof.Machine

theorem State.bounded_iff (s : State) : s.bounded = true ↔
    (s.lr.held.length ≤ 128 ∧ s.lr.slots.length ≤ 32 ∧ s.te.history.length ≤ 4) ∧
      (∀ o, (s.midiOut o).realTime.length ≤ 8) ∧ ∀ l, (s.link l).queue.length ≤ 128 := by
  simp only [State.bounded, Bool.and_eq_true, List.all_eq_true, decide_eq_true_eq, mem_allOuts, mem_allLinks, true_implies,
    and_assoc]

theorem State.inRange_iff {s : State} (h : s.te.ok = true) : s.inRange = true ↔ s.Ranged ∧ s.Sounding := by
  simp only [State.inRange, Bool.and_eq_true, List.all_eq_true, mem_allOuts, true_implies, ← TempoEngine.ranged_iff h,
    ← CueSeq.ranged_iff]
  exact ⟨fun ⟨⟨⟨⟨hte, hout⟩, hheld⟩, hcs⟩, hst⟩ => ⟨⟨hte, hcs, hst⟩, hheld, hout⟩,
    fun ⟨⟨hte, hcs, hst⟩, hheld, hout⟩ => ⟨⟨⟨⟨hte, hout⟩, hheld⟩, hcs⟩, hst⟩⟩

theorem Within.bounded {p : Prop} {s t : State} (h : Within p s t) (k : s.bounded = true) : t.bounded = true := by
  obtain ⟨⟨hheld, hslots, hhist⟩, hrt, hq⟩ := s.bounded_iff.1 k
  exact t.bounded_iff.2 ⟨⟨h.held hheld, h.slots hslots, h.history hhist⟩, h.realTime hrt, h.fits hq⟩

theorem State.te_ok_of_safe {s : State} (h : s.safe = true) : s.te.ok = true := by
  simp only [State.safe, Bool.and_eq_true] at h
  exact h.1.1

theorem Within.inRange {p : Prop} {s t : State} (h : Within p s t) (hp : p) (hs : s.safe = true) (ht : t.safe = true)
    (k : s.inRange = true) : t.inRange = true := by
  obtain ⟨hranged, hsound⟩ := (State.inRange_iff (State.te_ok_of_safe hs)).1 k
  exact (State.inRange_iff (State.te_ok_of_safe ht)).2 ⟨h.ranged hp hranged, h.sounding hsound⟩

/-- The flash outlives a reset, with the image it held or none (R181, R183). -/
theorem State.flashAfterReset_inRange {s : State} (h : s.st.inRange = true) :
    ShowStore.inRange { State.reset.st with flash := s.flashAfterReset } = true := by
  have hflash := ((ShowStore.inRange_iff _).1 h).1
  refine (ShowStore.inRange_iff _).2 ⟨fun g c hg => ?_, fun _ hg => nomatch hg⟩
  have hg : s.flashAfterReset = .image g c := hg
  unfold State.flashAfterReset at hg
  split at hg
  · split at hg <;> exact nomatch hg
  · exact hflash g c hg
  · exact hflash g c hg

/-- A reset is the state of the reset tables with the flash as it is left, and then the rises of the links found high. -/
theorem State.resets_within (s : State) (c : ResetCause) (d : PerLink Bool) :
    Within (s.st.inRange = true) State.reset (s.resets c d) := by
  have hbase : Within (s.st.inRange = true) State.reset { State.reset with
      st := { State.reset.st with flash := s.flashAfterReset }, cause := c, choices := s.choices + 1, pending := s.pending } :=
    ⟨Noted.of_eq rfl rfl rfl rfl, id, fun hst k => ⟨k.te, k.cs, State.flashAfterReset_inRange hst⟩⟩
  have hrises : ∀ u : State, Within (s.st.inRange = true) u
      (allLinks.foldl (fun u l => if d.get l then u.detectRises l else u) u) := fun u =>
    foldl_rel (Within (s.st.inRange = true)) Within.refl Within.trans (fun u l => (u.detectRises_within l).ite) allLinks u
  exact hbase.trans (hrises _)

/-- Every deed but a reset keeps the limits and ranges of the state it meets; a reset keeps those of the reset tables. -/
theorem Deed.within {s t : State} (d : Deed s t) : Within True s t ∨ Within (s.st.inRange = true) State.reset t := by
  cases d with
  | resets c d => exact .inr (s.resets_within c d)
  | startupEnds => exact .inl s.startupEnds_within
  | tick => exact .inl s.tick_within
  | sampleBuses => exact .inl (s.click_within _)
  | beatEdge => exact .inl (s.markFrom_within .line)
  | lastMarkExpiry => exact .inl s.lastMarkExpiry_within
  | lostDeadline => exact .inl s.lostDeadline_within
  | telegram l k p => exact .inl (s.telegram_within l k p)
  | saveEnds e => exact .inl (s.saveEnds_within e)
  | loadEnds => exact .inl s.loadEnds_within
  | holdExpiry l => exact .inl (s.holdExpiry_within l)
  | lineByte l b => exact .inl (s.lineByte_within l b)
  | badStop l => exact .inl (s.badStop_within l)
  | gapDeadline l => exact .inl (s.gapDeadline_within l)
  | telegramSent l => exact .inl (s.telegramSent_within l)
  | detectFalls l => exact .inl (s.detectFalls_within l)
  | detectRises l => exact .inl (s.detectRises_within l)
  | pulse => exact .inl s.pulse_within
  | resyncAllOff x => exact .inl ((s.resyncAllOff_watchOnly x).within (s.resyncAllOff_fits x))
  | resyncReplay x => exact .inl (s.resyncReplay_within x)
  | resyncJoined x => exact .inl (s.resyncJoined_within x)
  | message i c m => exact .inl ((s.messageArrives_portsOnly i c m).within (s.messageArrives_noted i c m))
  | midiByte i b => exact .inl ((s.midiByte_portsOnly i b).within (s.midiByte_noted i b))
  | midiBytes i bs => exact .inl ((s.midiBytes_portsOnly i bs).within (s.midiBytes_noted i bs))
  | sensingLoss i => exact .inl ((s.sensingLoss_portsOnly i).within (s.sensingLoss_noted i))
  | framingError i => exact .inl ((s.framingError_portsOnly i).within (s.framingError_noted i))
  | slotExpiry k => exact .inl ((s.slotExpiry_routerOnly k).within (s.slotExpiry_noted k))
  | forwardTimeExpiry k => exact .inl ((s.forwardTimeExpiry_routerOnly k).within (s.forwardTimeExpiry_noted k))
  | outputByteSent o => exact .inl (s.outputByteSent_within o)
  | outputDrained o => exact .inl (s.outputDrained_within o)

theorem Deed.bounded {s t : State} (d : Deed s t) (k : s.bounded = true) : t.bounded = true := by
  obtain ⟨-, hreset, -⟩ := resetMeetsTheInvariants
  exact d.within.elim (fun h => h.bounded k) (fun h => h.bounded hreset)

theorem Deed.inRange {s t : State} (d : Deed s t) (hs : s.safe = true) (k : s.inRange = true) : t.inRange = true := by
  obtain ⟨hsafe, -, hreset, -⟩ := resetMeetsTheInvariants
  have hst := ((State.inRange_iff (State.te_ok_of_safe hs)).1 k).1.st
  exact d.within.elim (fun h => h.inRange trivial hs (d.safe hs) k) (fun h => h.inRange hst hsafe (d.safe hs) hreset)

/-- Settles O7: a step is a deed or the passing of a microsecond, and each keeps the limits, and the ranges of a safe state. -/
theorem everyStepKeepsTheLimits : Obligations.EveryStepKeepsTheLimits := by
  refine ⟨fun s t hs h => ?_, fun s t hsafe hs h => ?_⟩
  · exact step_keeps (P := fun u => u.bounded = true) (fun _ _ k => k) (fun _ k => k) (fun u => u.advance_within.bounded)
      (fun _ _ d => d.bounded) hs h
  · have hboth := step_keeps (P := fun u => u.safe = true ∧ u.inRange = true) (fun _ _ k => k) (fun _ k => k)
      (fun u k => ⟨u.advance_keeps.safe k.1, u.advance_within.inRange trivial k.1 (u.advance_keeps.safe k.1) k.2⟩)
      (fun _ _ d k => ⟨d.safe k.1, d.inRange k.1 k.2⟩) ⟨hsafe, hs⟩ h
    exact hboth.2

end Sys2Proof.Machine
end

section
/-! PROOFS. The Click Generator's own operations: sample periods, beats and subdivisions (R29 to R36). -/

namespace Sys2Proof.Machine

/-! ## Sample periods -/

theorem ClickBus.samplePeriod_silent {x : ClickBus} (h : x.burst = none) : x.samplePeriod = { x with sample := 0 } := by
  simp only [ClickBus.samplePeriod, h]

theorem ClickBus.samplePeriod_burst {x : ClickBus} {b : Burst} (h : x.burst = some b) :
    x.samplePeriod =
      { x with sample := b.value, burst := if 479 ≤ b.n then none else some { b with n := b.n + 1 } } := by
  simp only [ClickBus.samplePeriod, h]

/-- A sample is no larger than its burst's peak. -/
theorem Burst.value_bounds (b : Burst) : -(b.peak : Int) ≤ b.value ∧ b.value ≤ b.peak := by
  have hmag : b.peak * (480 - b.n) / 480 ≤ b.peak :=
    Nat.div_le_of_le_mul (by rw [Nat.mul_comm 480]; exact Nat.mul_le_mul_left _ (Nat.sub_le _ _))
  unfold Burst.value
  dsimp only
  split <;> omega

/-- Settles O36: by the burst record, and its class for the period. -/
theorem samplePeriodSendsTheBurst : Obligations.SamplePeriodSendsTheBurst := by
  intro s
  refine ⟨rfl, fun x h => ClickBus.samplePeriod_silent h, fun x b h hn => ?_⟩
  intro mag half
  have hend : 479 ≤ b.n ↔ b.n = 479 := by omega
  have hvalue : b.value = if b.n % (2 * half) < half then (mag : Int) else -(mag : Int) := by
    unfold Burst.value
    cases hc : b.cls <;> simp only [half, hc, ClickClass.period] <;> rfl
  refine ⟨?_, fun hp => ?_⟩
  · rw [ClickBus.samplePeriod_burst h, hvalue]
    simp only [hend]
  · have hb := b.value_bounds
    rw [ClickBus.samplePeriod_burst h]
    dsimp only
    omega

/-! ## Beats -/

/-- The pending change applied, whether or not there is one: an absent change is the change of no field. -/
theorem ClickBus.applyChange_eq (x : ClickBus) :
    let ch := x.change.getD ClickChange.none_
    x.applyChange = { x with
      pattern := ch.pattern.getD x.pattern
      level := ch.level.getD x.level
      accent := ch.accent.getD x.accent
      normal := ch.normal.getD x.normal
      sub := ch.sub.getD x.sub
      change := none } := by
  cases x with
  | mk pattern level accent normal sub mute change subdiv subCount burst sample => cases change <;> rfl

theorem ClickBus.applyChange_burst (x : ClickBus) : x.applyChange.burst = x.burst := by rw [x.applyChange_eq]

/-- The burst of a bus after a click is due on it (R34, R36). -/
def ClickBus.burstOf (x : ClickBus) (c : ClickClass) : Option Burst :=
  if x.mute then x.burst else some { cls := c, peak := x.peak c, n := 0 }

theorem ClickBus.click_eq (x : ClickBus) (c : ClickClass) : x.click c = { x with burst := x.burstOf c } := by
  unfold ClickBus.click ClickBus.burstOf
  split <;> rfl

theorem beatClick_closing {ev : BeatEvent} (h : ev.closing = true) (p : Pattern) : beatClick p ev = (none, 1) := by
  simp [beatClick, h]

theorem beatClick_counting {ev : BeatEvent} (h : ev.closing = false) (ht : ev.transport = .counting) (p : Pattern) :
    beatClick p ev = (some (if ev.beat = 1 then .accent else .normal), 1) := by
  simp [beatClick, h, ht]

/-- The click of a pattern's class. -/
def PatClass.click : PatClass → Option ClickClass
  | .accent => some .accent
  | .normal => some .normal
  | .silent => none

theorem beatClick_running {ev : BeatEvent} (h : ev.closing = false) (ht : ev.transport = .running ∨ ev.transport = .stopping)
    (p : Pattern) : beatClick p ev = ((p.position ev.beat).cls.click, (p.position ev.beat).sub) := by
  rcases ht with ht | ht <;> cases hc : (p.position ev.beat).cls <;> simp [beatClick, h, ht, hc, PatClass.click]

/-- What a beat event leaves of a bus, by the click and the subdivision it brings. -/
theorem ClickBus.beat_eq {x : ClickBus} {table : Table Pattern} {ev : BeatEvent} {c : Option ClickClass} {n : Nat}
    (h : beatClick (patternAt table x.applyChange.pattern) ev = (c, n)) :
    x.beat table ev = { x.applyChange with
      subdiv := n, subCount := 0, burst := (c.map x.applyChange.burstOf).getD x.burst } := by
  cases c with
  | none => rw [← x.applyChange_burst]; simp only [ClickBus.beat, h]; rfl
  | some c => simp only [ClickBus.beat, h, ClickBus.click_eq]; rfl

/-! ## Peaks -/

theorem multiplier_bounds {db : Nat} (h : db ≤ 12) : 64 ≤ Config.multiplier db ∧ Config.multiplier db ≤ 256 := by
  interval_cases db <;> decide

theorem ClickBus.peak_bounds {x : ClickBus} {c : ClickClass} (hl : x.level ≤ 12) (hc : x.classLevel c ≤ 12) :
    524287 ≤ x.peak c ∧ x.peak c ≤ 8388607 := by
  obtain ⟨hl1, hl2⟩ := multiplier_bounds hl
  obtain ⟨hc1, hc2⟩ := multiplier_bounds hc
  have hlow := Nat.mul_le_mul hc1 hl1
  have hhigh := Nat.mul_le_mul hc2 hl2
  unfold ClickBus.peak
  omega

/-- Settles O35: a beat by the click and subdivision it brings, a tick by its test, a peak by the two multipliers. -/
theorem beatAndSubdivisionClicks : Obligations.BeatAndSubdivisionClicks := by
  intro x table
  refine ⟨fun ev => ?_, fun t h1 h2 => ⟨fun h => ?_, fun h => ?_⟩, fun c hl ha hn hs => ?_⟩
  · intro ch y q burst
    have hy : x.applyChange = y := x.applyChange_eq
    have hburst : ∀ c, x.applyChange.burstOf c = burst c := by
      intro c
      rw [hy]
      cases c <;> rfl
    refine ⟨fun h => ?_, fun h ht => ?_, fun h ht => ?_⟩
    · rw [ClickBus.beat_eq (beatClick_closing h _), hy]; rfl
    · rw [ClickBus.beat_eq (beatClick_counting h ht _), Option.map_some, Option.getD_some, hburst, hy]
    · rw [ClickBus.beat_eq (beatClick_running h ht _), hy, Pattern.position]
      change { y with subdiv := q.sub, subCount := 0, burst := (q.cls.click.map y.burstOf).getD x.burst } = _
      cases q.cls with
      | accent | normal => simp only [PatClass.click, Option.map_some, Option.getD_some, ← hy, hburst]
      | silent => rfl
  · rw [ClickBus.tick, if_pos h, ClickBus.click_eq]; rfl
  · rw [ClickBus.tick, if_neg h]
  · exact ClickBus.peak_bounds hl (by cases c <;> assumption)

end Sys2Proof.Machine
end

section
/-! PROOFS. Payloads read back (R188, R189): the bytes that stand at an offset, and the one field that each of them is
read as. -/

namespace Sys2Proof.Machine

/-! ## The bytes at an offset -/

/-- The bytes `bs` stand in the payload `p` from the offset `o` on. -/
def Reads (p : List Byte) (o : Nat) : List Byte → Prop
  | [] => True
  | b :: bs => p.getD o 0 = b ∧ Reads p (o + 1) bs

@[simp] theorem reads_nil (p : List Byte) (o : Nat) : Reads p o [] := trivial

@[simp] theorem reads_cons (p : List Byte) (o : Nat) (b : Byte) (bs : List Byte) :
    Reads p o (b :: bs) ↔ p.getD o 0 = b ∧ Reads p (o + 1) bs := Iff.rfl

theorem reads_append {p : List Byte} {o : Nat} {as bs : List Byte} :
    Reads p o (as ++ bs) ↔ Reads p o as ∧ Reads p (o + as.length) bs := by
  induction as generalizing o with
  | nil => simp
  | cons a as ih =>
    rw [List.cons_append, reads_cons, reads_cons, ih, and_assoc, List.length_cons, Nat.add_assoc o 1, Nat.add_comm 1]

/-- The rest of a payload stands behind its first bytes. -/
theorem reads_behind (as bs : List Byte) : Reads (as ++ bs) as.length bs := by
  induction bs generalizing as with
  | nil => trivial
  | cons b bs ih =>
    have h := ih (as ++ [b])
    rw [List.append_assoc, List.length_append] at h
    exact ⟨by simp, h⟩

theorem reads_tail (b : Byte) (p : List Byte) : Reads (b :: p) 1 p := reads_behind [b] p

theorem Reads.shift {p : List Byte} {o o' : Nat} {bs : List Byte} (h : Reads p o bs) (ho : o = o' := by omega) :
    Reads p o' bs := ho ▸ h

/-- Items of one length in a row: each stands at its own offset. -/
theorem Reads.item {α : Type} {p : List Byte} {o m : Nat} {f : α → List Byte} {xs : List α}
    (h : Reads p o (xs.flatMap f)) (hf : ∀ x, (f x).length = m) {k : Nat} (hk : k < xs.length) :
    Reads p (o + m * k) (f xs[k]) := by
  induction xs generalizing o k with
  | nil => exact absurd hk (Nat.not_lt_zero _)
  | cons x xs ih =>
    rw [List.flatMap_cons, reads_append, hf] at h
    cases k with
    | zero => exact h.1
    | succ k => exact (ih h.2 (Nat.lt_of_succ_lt_succ hk)).shift (by rw [Nat.mul_succ]; omega)

/-! ## Numbers -/

theorem byte_toNat {n : Nat} (h : n < 256) : (byte n).toNat = n := by simp [byte, Nat.mod_eq_of_lt h]

theorem byteAt_of_getD {p : List Byte} {o n : Nat} (h : p.getD o 0 = byte n) (hn : n < 256) : byteAt p o = n := by
  rw [byteAt, h, byte_toNat hn]

theorem wordAt_of_reads {p : List Byte} {o n : Nat} (h : Reads p o (be16 n)) (hn : n < 65536) : wordAt p o = n := by
  simp only [be16, reads_cons, reads_nil, and_true] at h
  obtain ⟨hhigh, hlow⟩ := h
  simp only [wordAt, byteAt, hhigh, hlow, byte, BitVec.toNat_ofNat]
  omega

theorem signedByte_of_getD {p : List Byte} {o : Nat} {x : Int} (h : p.getD o 0 = int8 x) (hlow : -128 ≤ x) (hhigh : x < 128) :
    signedByte p o = x := by
  simp only [signedByte, byteAt, h, int8, byte, BitVec.toNat_ofNat]
  omega

/-! ## Sets of flags -/

theorem bits_testBit (bs : List Bool) (k : Nat) : (bits bs).testBit k = bs.getD k false := by
  induction bs generalizing k with
  | nil => simp [bits]
  | cons b bs ih =>
    have hcons : bits (b :: bs) = 2 * bits bs + b.toNat := Nat.add_comm _ _
    cases k with
    | zero => cases b <;> simp [hcons]
    | succ k =>
      rw [Nat.testBit_succ, hcons, List.getD_cons_succ, ← ih]
      congr 1
      cases b <;> grind

theorem bits_lt (bs : List Bool) : bits bs < 2 ^ bs.length := by
  induction bs with
  | nil => exact Nat.one_pos
  | cons b bs ih =>
    have hb : b.toNat ≤ 1 := Bool.toNat_le b
    have hcons : bits (b :: bs) = b.toNat + 2 * bits bs := rfl
    rw [hcons, List.length_cons, Nat.pow_succ]
    omega

theorem bitAt_of_getD {p : List Byte} {o : Nat} {bs : List Bool} (h : p.getD o 0 = byte (bits bs)) {k : Nat} (hk : k < 8) :
    bitAt p o k = bs.getD k false := by
  rw [bitAt, h, byte, BitVec.getLsbD_ofNat, bits_testBit]
  simp [hk]

theorem byteAt_flag {p : List Byte} {o : Nat} {b : Bool} (h : p.getD o 0 = flag b) : byteAt p o ≤ 1 ∧ bitAt p o 0 = b := by
  rw [byteAt, bitAt, h]
  cases b <;> decide

/-! ## Named values -/

theorem inPortOf_code (i : InPort) : inPortOf (byte (InPort.code i)).toNat = some i := by cases i <;> rfl
theorem outPortOf_code (o : OutPort) : outPortOf (byte (OutPort.code o)).toNat = some o := by cases o <;> rfl
theorem busOf_code (b : Bus) : busOf (byte (Bus.code b)).toNat = some b := by cases b <;> rfl

theorem destOf_code (d : Dest) : destOf (byte d.code).toNat = some d := by
  cases d with
  | out o => cases o <;> rfl
  | sound => rfl

theorem chanByte_toNat (c : Chan) : (chanByte c).toNat = c.val + 1 := byte_toNat (by omega)

theorem chanOf1_chanByte (c : Chan) : chanOf1 (chanByte c).toNat = some c := by
  have h : 1 ≤ c.val + 1 ∧ c.val + 1 ≤ 16 := by omega
  rw [chanByte_toNat, chanOf1, dif_pos h]
  rfl

theorem chanOrAny_optChan (c : Option Chan) : chanOrAny (optChan c).toNat = some c := by
  cases c with
  | none => rfl
  | some c =>
    have h : (chanByte c).toNat ≠ 0 := by rw [chanByte_toNat]; omega
    rw [optChan, chanOrAny, if_neg h, chanOf1_chanByte]
    rfl

/-- An optional byte within a range below FFh reads back (R188). -/
theorem optUpTo_optByte {v : Option Nat} {hi : Nat} (h : optLe v hi = true) (hhi : hi < 255) :
    optUpTo hi (optByte v).toNat = some v := by
  cases v with
  | none => rfl
  | some n =>
    have hn : n ≤ hi := of_decide_eq_true h
    rw [optByte, Option.getD_some, byte_toNat (by omega), optUpTo, if_neg (by omega), if_pos hn]

/-! ## The steps of a parse -/

theorem Parse.ok_bind {α β : Type} (x : α) (f : α → Parse β) : ((.ok x : Parse α) >>= f) = f x := rfl

theorem field_some {α : Type} (x : α) (o : Nat) (k : Option Nat) : field (some x) o k = .ok x := rfl

theorem within_ok_place {lo hi n : Nat} (h : lo ≤ n ∧ n ≤ hi) (o : Nat) (k : Option Nat) : within lo hi n o k = .ok n := by
  rw [within, if_pos h, field_some]

/-- A list whose items all parse at their places parses whole. -/
theorem parseMany_of_items {α : Type} {f : Nat → Parse α} {xs : List α} {k : Nat}
    (h : ∀ (i : Nat) (hi : i < xs.length), f (k + i) = .ok xs[i]) : parseMany f xs.length k = .ok xs := by
  induction xs generalizing k with
  | nil => rfl
  | cons x xs ih =>
    have hx : f k = .ok x := h 0 (Nat.succ_pos _)
    have hxs : parseMany f xs.length (k + 1) = .ok xs := by
      refine ih fun i hi => ?_
      rw [Nat.add_right_comm]
      exact h (i + 1) (Nat.succ_lt_succ hi)
    rw [List.length_cons, parseMany, hx, Parse.ok_bind, hxs]
    rfl

end Sys2Proof.Machine
end

section
/-! PROOFS. Every scene, song, cue, set list, pattern and setting that its table may hold reads back from its bytes
(R59 to R61, R118 to R121, R188, R189). -/

namespace Sys2Proof.Machine

/-! ## Names -/

theorem charOk_iff (b : Byte) : charOk b = true ↔ 0x20 ≤ b.toNat ∧ b.toNat ≤ 0x7E := decide_eq_true_iff

theorem nameOk_iff (n : List Byte) : nameOk n = true ↔ n.length ≤ 16 ∧ ∀ b ∈ n, 0x20 ≤ b.toNat ∧ b.toNat ≤ 0x7E := by
  simp only [nameOk, Bool.and_eq_true, decide_eq_true_eq, List.all_eq_true, charOk_iff]

theorem Reads.getElem {p bs : List Byte} {o : Nat} (h : Reads p o bs) {k : Nat} (hk : k < bs.length) :
    p.getD (o + k) 0 = bs[k] := by
  induction bs generalizing o k with
  | nil => exact absurd hk (Nat.not_lt_zero _)
  | cons b bs ih =>
    cases k with
    | zero => exact h.1
    | succ k =>
      rw [← Nat.add_assoc, Nat.add_right_comm]
      exact ih h.2 (Nat.lt_of_succ_lt_succ hk)

theorem parseName_of_reads {p name : List Byte} {o : Nat} (h : Reads p o (byte name.length :: name))
    (hok : nameOk name = true) :
    parseName p o = .ok name := by
  obtain ⟨hlen, hchars⟩ := (nameOk_iff name).1 hok
  obtain ⟨hcount, hname⟩ := h
  rw [parseName, byteAt_of_getD hcount (by omega), within_ok_place ⟨Nat.zero_le _, hlen⟩, Parse.ok_bind, parseChars]
  refine parseMany_of_items fun i hi => ?_
  rw [Nat.zero_add, byteAt, hname.getElem hi, if_pos (hchars _ (List.getElem_mem hi)), field_some]

/-! ## Program entries -/

theorem progBytes_length (e : ProgEntry) : (progBytes e).length = 5 := rfl

theorem parseProg_of_reads {p : List Byte} {o k : Nat} {e : ProgEntry} (h : Reads p o (progBytes e)) (hok : e.ok = true) :
    parseProg p o k = .ok e := by
  simp only [ProgEntry.ok, Bool.and_eq_true, decide_eq_true_eq] at hok
  obtain ⟨⟨hmsb, hlsb⟩, hprog⟩ := hok
  simp only [progBytes, reads_cons, reads_nil, and_true, Nat.add_assoc, Nat.reduceAdd] at h
  obtain ⟨h0, h1, h2, h3, h4⟩ := h
  have hn : (byte e.program).toNat = e.program := byte_toNat (by omega)
  simp only [parseProg, byteAt, h0, h1, h2, h3, h4, hn, destOf_code, chanOf1_chanByte, optUpTo_optByte hmsb (by decide),
    optUpTo_optByte hlsb (by decide), within_ok_place (And.intro (Nat.zero_le _) hprog), field_some, Parse.ok_bind]
  rfl

theorem parseMany_parseProg {p : List Byte} {o : Nat} {es : List ProgEntry} (h : Reads p o (es.flatMap progBytes))
    (hok : es.all ProgEntry.ok = true) : parseMany (fun k => parseProg p (o + 5 * k) k) es.length 0 = .ok es :=
  parseMany_of_items fun i hi => by
    rw [Nat.zero_add]
    exact parseProg_of_reads (h.item progBytes_length hi) (List.all_eq_true.1 hok _ (List.getElem_mem hi))

/-! ## Layers -/

theorem curveBytes_length (c : Curve) : (curveBytes c).length = 2 := by cases c <;> rfl

theorem parseCurve_of_reads {p : List Byte} {o k : Nat} {c : Curve} (h : Reads p o (curveBytes c)) (hok : c.ok = true) :
    parseCurve p o k = .ok c := by
  cases c with
  | linear | soft | hard => simp only [parseCurve, byteAt, h.1]; rfl
  | fixed v =>
    have hv : 1 ≤ v ∧ v ≤ 127 := of_decide_eq_true hok
    have hb : byteAt p (o + 1) = v := byteAt_of_getD h.2.1 (by omega)
    simp only [parseCurve, byteAt_of_getD (n := 3) h.1 (by decide), hb, within_ok_place hv]
    rfl

theorem layerBytes_length (y : Layer) : (layerBytes y).length = 17 := by
  simp [layerBytes, curveBytes_length]

/-- The pass set of a layer as flags. -/
def PassSet.flags (s : PassSet) : List Bool := [s.expression, s.modulation, s.others, s.bend, s.pressure]

/-- The bytes of a layer, each at its offset. -/
structure LayerAt (p : List Byte) (o : Nat) (y : Layer) : Prop where
  input : p.getD o 0 = byte (InPort.code y.input)
  chan : p.getD (o + 1) 0 = optChan y.chan
  zoneLow : p.getD (o + 2) 0 = byte y.zoneLow
  zoneHigh : p.getD (o + 3) 0 = byte y.zoneHigh
  vmin : p.getD (o + 4) 0 = byte y.vmin
  vmax : p.getD (o + 5) 0 = byte y.vmax
  fade : p.getD (o + 6) 0 = byte y.fade
  curve : Reads p (o + 7) (curveBytes y.curve)
  trim : p.getD (o + 9) 0 = byte y.trim
  transpose : p.getD (o + 10) 0 = int8 y.transpose
  dest : p.getD (o + 11) 0 = byte y.dest.code
  outChan : p.getD (o + 12) 0 = chanByte y.outChan
  sustain : p.getD (o + 13) 0 = byte y.sustain.code
  pass : p.getD (o + 14) 0 = byte (bits y.pass.flags)
  lo : p.getD (o + 15) 0 = byte y.lo
  hi : p.getD (o + 16) 0 = byte y.hi

theorem Reads.layerAt {p : List Byte} {o : Nat} {y : Layer} (h : Reads p o (layerBytes y)) : LayerAt p o y := by
  rw [layerBytes, reads_append, reads_append, List.length_append, curveBytes_length] at h
  simp only [reads_cons, reads_nil, and_true, Nat.add_assoc, Nat.reduceAdd, List.length_cons, List.length_nil] at h
  obtain ⟨⟨⟨h0, h1, h2, h3, h4, h5, h6⟩, hcurve⟩, h9, h10, h11, h12, h13, h14, h15, h16⟩ := h
  exact ⟨h0, h1, h2, h3, h4, h5, h6, hcurve, h9, h10, h11, h12, h13, h14, h15, h16⟩

theorem parseLayer_of_reads {p : List Byte} {o k : Nat} {y : Layer} (h : Reads p o (layerBytes y)) (hok : y.ok = true) :
    parseLayer p o k = .ok y := by
  simp only [Layer.ok, Bool.and_eq_true, decide_eq_true_eq] at hok
  obtain ⟨⟨⟨hzone, hhigh, hmin, hv, hmax, hfade⟩, hcurve⟩, htrim, htlow, hthigh, hlo, hhi⟩ := hok
  have f := h.layerAt
  have hpass : ∀ i < 8, bitAt p (o + 14) i = y.pass.flags.getD i false := fun i => bitAt_of_getD f.pass
  have hsustain : byteAt p (o + 13) = y.sustain.code := byteAt_of_getD f.sustain (by cases y.sustain <;> decide)
  have hcode : 0 ≤ y.sustain.code ∧ y.sustain.code ≤ 1 := by cases y.sustain <;> decide
  have hinput : inPortOf (byteAt p o) = some y.input := by rw [byteAt, f.input, inPortOf_code]
  have hchan : chanOrAny (byteAt p (o + 1)) = some y.chan := by rw [byteAt, f.chan, chanOrAny_optChan]
  have hdest : destOf (byteAt p (o + 11)) = some y.dest := by rw [byteAt, f.dest, destOf_code]
  have hout : chanOf1 (byteAt p (o + 12)) = some y.outChan := by rw [byteAt, f.outChan, chanOf1_chanByte]
  simp only [parseLayer, hinput, hchan, hdest, hout, parseCurve_of_reads f.curve hcurve,
    byteAt_of_getD f.zoneLow (by omega), byteAt_of_getD f.zoneHigh (by omega), byteAt_of_getD f.vmin (by omega),
    byteAt_of_getD f.vmax (by omega), byteAt_of_getD f.fade (by omega), byteAt_of_getD f.trim (by omega),
    signedByte_of_getD f.transpose (by omega) (by omega), hsustain, byteAt_of_getD f.lo (by omega),
    byteAt_of_getD f.hi (by omega),
    within_ok_place (lo := 0) (hi := 127) (n := y.zoneLow) (by omega), within_ok_place (And.intro hzone hhigh),
    within_ok_place (lo := 1) (hi := 127) (n := y.vmin) (by omega), within_ok_place (And.intro hv hmax),
    within_ok_place (lo := 0) (hi := 32) (n := y.fade) (by omega), within_ok_place (lo := 0) (hi := 12) (n := y.trim) (by omega),
    within_ok_place hcode, within_ok_place (lo := 0) (hi := 127) (n := y.lo) (by omega),
    within_ok_place (lo := 0) (hi := 127) (n := y.hi) (by omega), htlow, hthigh, and_self, if_true, field_some, Parse.ok_bind,
    hpass 0 (by decide), hpass 1 (by decide), hpass 2 (by decide), hpass 3 (by decide), hpass 4 (by decide)]
  cases y with
  | mk input chan zoneLow zoneHigh vmin vmax fade curve trim transpose dest outChan sustain pass lo hi =>
    cases sustain <;> rfl

theorem layerFits_of_reads {p : List Byte} {o : Nat} {y : Layer} (h : Reads p o (layerBytes y)) : layerFits p o = true := by
  have f := h.layerAt
  have hlt : bits y.pass.flags < 32 := bits_lt _
  have hcurve : byteAt p (o + 7) = 3 ∨ byteAt p (o + 8) = 0 := by
    have hc := f.curve
    cases hy : y.curve with
    | fixed v => rw [hy] at hc; exact .inl (byteAt_of_getD hc.1 (by decide))
    | linear | soft | hard => rw [hy] at hc; exact .inr (byteAt_of_getD hc.2.1 (by decide))
  simp only [layerFits, byteAt_of_getD f.pass (by omega), hlt, decide_true, Bool.true_and, Bool.or_eq_true, decide_eq_true_eq]
  exact hcurve

/-! ## Scenes -/

theorem flatMap_length {α : Type} {f : α → List Byte} {m : Nat} (hf : ∀ x, (f x).length = m) (xs : List α) :
    (xs.flatMap f).length = m * xs.length := by
  simp [List.length_flatMap, hf, Nat.mul_comm]

/-- The parts of a scene's payload, each at its offset. -/
theorem scene_reads (n : Nat) (r : Scene) :
    let p := byte n :: sceneBytes r
    let nl := r.name.length
    let lc := r.layers.length
    Reads p 1 (byte nl :: r.name) ∧ p.getD (2 + nl) 0 = byte lc ∧ Reads p (3 + nl) (r.layers.flatMap layerBytes) ∧
      p.getD (3 + nl + 17 * lc) 0 = byte r.programs.length ∧
      Reads p (4 + nl + 17 * lc) (r.programs.flatMap progBytes) ∧
      p.length = 4 + nl + 17 * lc + 5 * r.programs.length := by
  intro p nl lc
  have h : Reads p 1 (sceneBytes r) := reads_tail _ _
  rw [sceneBytes, reads_append, reads_append, List.length_append, List.length_cons, List.length_cons,
    flatMap_length layerBytes_length] at h
  obtain ⟨⟨hname, hlayers⟩, hprogs⟩ := h
  have hlayers := hlayers.shift (o' := 2 + nl)
  have hprogs := hprogs.shift (o' := 3 + nl + 17 * lc)
  refine ⟨hname, hlayers.1, hlayers.2.shift, hprogs.1, hprogs.2.shift, ?_⟩
  simp only [p, sceneBytes, List.length_cons, List.length_append, flatMap_length layerBytes_length,
    flatMap_length progBytes_length]
  omega

theorem scene_readsBack (n : Nat) {r : Scene} (hok : r.ok = true) :
    ReqKind.fits .writeScene (byte n :: sceneBytes r) = true ∧ parseScene (byte n :: sceneBytes r) = .ok r := by
  simp only [Scene.ok, Bool.and_eq_true, decide_eq_true_eq] at hok
  obtain ⟨⟨⟨⟨hname, hlc⟩, hlayers⟩, hpc⟩, hprogs⟩ := hok
  have hnl := ((nameOk_iff _).1 hname).1
  obtain ⟨rname, rlc, rlayers, rpc, rprogs, rlen⟩ := scene_reads n r
  have blc := byteAt_of_getD rlc (by omega)
  have bpc := byteAt_of_getD rpc (by omega)
  have item : ∀ k (hk : k < r.layers.length),
      Reads (byte n :: sceneBytes r) (3 + r.name.length + 17 * k) (layerBytes r.layers[k]) :=
    fun k hk => rlayers.item layerBytes_length hk
  constructor
  · simp only [ReqKind.fits, sceneFits, byteAt_of_getD rname.1 (by omega), blc, bpc, rlen, decide_true, Bool.true_and,
      List.all_eq_true, List.mem_range]
    exact fun k hk => layerFits_of_reads (item k hk)
  · have players : parseMany (fun k => parseLayer (byte n :: sceneBytes r) (3 + r.name.length + 17 * k) k) r.layers.length 0
        = .ok r.layers := parseMany_of_items fun i hi => by
      rw [Nat.zero_add]
      exact parseLayer_of_reads (item i hi) (List.all_eq_true.1 hlayers _ (List.getElem_mem hi))
    simp only [parseScene, parseName_of_reads rname hname, Parse.ok_bind, blc, within_ok_place (And.intro (Nat.zero_le _) hlc),
      players, bpc, within_ok_place (And.intro (Nat.zero_le _) hpc), parseMany_parseProg rprogs hprogs]
    rfl

end Sys2Proof.Machine
end

section
/-! PROOFS. Songs, cues, set lists, patterns, click changes and port settings read back from their bytes (R27, R28, R49,
R56, R118, R120 to R122, R188, R189). -/

namespace Sys2Proof.Machine

/-! ## Songs -/

/-- The parts of a song's payload, each at its offset. -/
theorem song_reads (n : Nat) (g : Song) :
    let p := byte n :: songBytes g
    let nl := g.name.length
    Reads p 1 (byte nl :: g.name) ∧ Reads p (2 + nl) (optWord g.firstCue) ∧ Reads p (4 + nl) (be16 g.tempo) ∧
      Reads p (6 + nl) [byte g.meter, byte g.countIn, byte g.band, byte g.keys] ∧ p.length = 10 + nl := by
  intro p nl
  have hword : (optWord g.firstCue).length = 2 ∧ (be16 g.tempo).length = 2 := ⟨rfl, rfl⟩
  have h : Reads p 1 (songBytes g) := reads_tail _ _
  simp only [songBytes, reads_append, List.length_append, List.length_cons, hword] at h
  obtain ⟨⟨⟨hname, hcue⟩, htempo⟩, hrest⟩ := h
  refine ⟨hname, hcue.shift, htempo.shift, hrest.shift, ?_⟩
  simp only [p, nl, songBytes, List.length_cons, List.length_append, hword, List.length_nil]
  omega

/-- The first cue of a song, or NONE, as the two bytes that carry it give it. -/
theorem firstCue_of_reads {p : List Byte} {o : Nat} {v : Option Nat} (h : Reads p o (optWord v)) (hok : optLe v 255 = true) :
    (if wordAt p o = 65535 then some none else if wordAt p o ≤ 255 then some (some (wordAt p o)) else none) = some v := by
  cases v with
  | none => rw [wordAt_of_reads h (by decide)]; rfl
  | some n =>
    have hn : n ≤ 255 := of_decide_eq_true hok
    rw [wordAt_of_reads h (by rw [Option.getD_some]; omega), Option.getD_some, if_neg (by omega), if_pos hn]

theorem song_readsBack (n : Nat) {g : Song} (hok : g.ok = true) :
    ReqKind.fits .writeSong (byte n :: songBytes g) = true ∧ parseSong (byte n :: songBytes g) = .ok g := by
  simp only [Song.ok, Bool.and_eq_true, decide_eq_true_eq] at hok
  obtain ⟨⟨hname, hcue⟩, htlow, hthigh, hmlow, hmhigh, hcount, hband, hkeys⟩ := hok
  have hnl := ((nameOk_iff _).1 hname).1
  obtain ⟨rname, rcue, rtempo, rrest, rlen⟩ := song_reads n g
  have rcount := rrest.2.shift (o' := 7 + g.name.length)
  have rband := rcount.2.shift (o' := 8 + g.name.length)
  have rkeys := rband.2.shift (o' := 9 + g.name.length)
  constructor
  · simp only [ReqKind.fits, byteAt_of_getD rname.1 (by omega), rlen, decide_true]
  · simp only [parseSong, parseName_of_reads rname hname, Parse.ok_bind, firstCue_of_reads rcue hcue, field_some,
      wordAt_of_reads rtempo (by omega), byteAt_of_getD rrest.1 (by omega), byteAt_of_getD rcount.1 (by omega),
      byteAt_of_getD rband.1 (by omega), byteAt_of_getD rkeys.1 (by omega), within_ok_place (And.intro htlow hthigh),
      within_ok_place (And.intro hmlow hmhigh), within_ok_place (And.intro (Nat.zero_le _) hcount),
      within_ok_place (And.intro (Nat.zero_le _) hband), within_ok_place (And.intro (Nat.zero_le _) hkeys)]
    rfl

/-! ## Cues -/

theorem triggerBytes_length (t : Trigger) : (triggerBytes t).length = 4 := by cases t <;> rfl

theorem parseTrigger_of_reads {p : List Byte} {t : Trigger} (h : Reads p 1 (triggerBytes t)) (hok : t.ok = true) :
    parseTrigger p = .ok t := by
  match t, h, hok with
  | .at bar beat, h, hok =>
    obtain ⟨h1, h2, h3, h4⟩ : 1 ≤ bar ∧ bar ≤ 9999 ∧ 1 ≤ beat ∧ beat ≤ 16 := of_decide_eq_true hok
    obtain ⟨⟨hkind, hbar⟩, hbeat⟩ := reads_append.1 h
    have bkind : byteAt p 1 = 0 := byteAt_of_getD (n := 0) hkind (by decide)
    have bbeat : byteAt p 4 = beat := byteAt_of_getD hbeat.1 (by omega)
    have wbar : wordAt p 2 = bar := wordAt_of_reads hbar (by omega)
    simp only [parseTrigger, bkind, bbeat, wbar, within_ok_place (And.intro h1 h2), within_ok_place (And.intro h3 h4)]
    rfl
  | .afterPrevious, h, _ => simp only [parseTrigger, byteAt_of_getD (n := 1) h.1 (by decide)]
  | .onGo, h, _ => simp only [parseTrigger, byteAt_of_getD (n := 2) h.1 (by decide)]

/-- The operand bytes of an action are as many as its code says, and its code has a meaning. -/
theorem operandLength_of_reads {p : List Byte} {a : CueAction} (h : Reads p 9 (operandBytes a)) (hok : a.ok = true) :
    operandLength p a.code = some (operandBytes a).length := by
  cases a with
  | program es =>
    simp only [CueAction.ok, Bool.and_eq_true, decide_eq_true_eq] at hok
    have hn : byteAt p 9 = es.length := byteAt_of_getD h.1 (by omega)
    simp only [operandLength, CueAction.code, hn, operandBytes, List.length_cons, flatMap_length progBytes_length, Nat.add_comm]
  | marker t =>
    have hlen := ((nameOk_iff t).1 hok).1
    have hn : byteAt p 9 = t.length := byteAt_of_getD h.1 (by omega)
    simp only [operandLength, CueAction.code, hn, operandBytes, List.length_cons, Nat.add_comm]
  | stop m => cases m <;> rfl
  | nop | scene | tempo | ramp | meter | click | nextSong => rfl

theorem parseAction_of_reads {p : List Byte} {a : CueAction} (hcode : byteAt p 5 = a.code) (h : Reads p 9 (operandBytes a))
    (hok : a.ok = true) : parseAction p = .ok a := by
  cases a with
  | nop | nextSong => simp only [parseAction, hcode, CueAction.code]
  | scene n =>
    have hn : n ≤ 127 := of_decide_eq_true hok
    simp only [parseAction, hcode, CueAction.code, byteAt_of_getD h.1 (show n < 256 by omega),
      within_ok_place (And.intro (Nat.zero_le _) hn)]
    rfl
  | tempo t =>
    have ht : 3000 ≤ t ∧ t ≤ 30000 := of_decide_eq_true hok
    simp only [parseAction, hcode, CueAction.code, wordAt_of_reads h (show t < 65536 by omega), within_ok_place ht]
    rfl
  | ramp t b =>
    obtain ⟨h1, h2, hb⟩ : 3000 ≤ t ∧ t ≤ 30000 ∧ 1 ≤ b ∧ b ≤ 64 := of_decide_eq_true hok
    obtain ⟨rt, rb⟩ := reads_append.1 h
    have bb : byteAt p 11 = b := byteAt_of_getD rb.1 (by omega)
    simp only [parseAction, hcode, CueAction.code, wordAt_of_reads rt (show t < 65536 by omega), bb,
      within_ok_place (And.intro h1 h2), within_ok_place hb]
    rfl
  | meter b =>
    have hb : 1 ≤ b ∧ b ≤ 16 := of_decide_eq_true hok
    simp only [parseAction, hcode, CueAction.code, byteAt_of_getD h.1 (show b < 256 by omega), within_ok_place hb]
    rfl
  | click band keys =>
    simp only [CueAction.ok, Bool.and_eq_true] at hok
    have hband : optUpTo 15 (byteAt p 9) = some band := by rw [byteAt, h.1, optUpTo_optByte hok.1 (by decide)]
    have hkeys : optUpTo 15 (byteAt p 10) = some keys := by rw [byteAt, h.2.1, optUpTo_optByte hok.2 (by decide)]
    simp only [parseAction, hcode, CueAction.code, hband, hkeys, field_some]
    rfl
  | program es =>
    simp only [CueAction.ok, Bool.and_eq_true, decide_eq_true_eq] at hok
    simp only [parseAction, hcode, CueAction.code, byteAt_of_getD h.1 (show es.length < 256 by omega),
      within_ok_place (And.intro (Nat.zero_le _) hok.1), Parse.ok_bind, parseMany_parseProg h.2 hok.2]
    rfl
  | marker t =>
    simp only [parseAction, hcode, CueAction.code, parseName_of_reads h hok]
    rfl
  | stop m =>
    cases m with
    | now => simp only [parseAction, hcode, CueAction.code, byteAt_of_getD (n := 0) h.1 (by decide)]; rfl
    | atBar => simp only [parseAction, hcode, CueAction.code, byteAt_of_getD (n := 1) h.1 (by decide)]; rfl

/-- The flags of a cue. -/
def Cue.flags (c : Cue) : List Bool := [c.isEnd, c.isHold, c.isNotify]

/-- The parts of a cue's payload, each at its offset. -/
theorem cue_reads (n : Nat) (c : Cue) :
    let p := byte n :: cueBytes c
    Reads p 1 (triggerBytes c.trigger) ∧ p.getD 5 0 = byte c.action.code ∧ p.getD 6 0 = byte (bits c.flags) ∧
      p.getD 7 0 = byte c.lead ∧ p.getD 8 0 = byte c.next ∧ Reads p 9 (operandBytes c.action) ∧
      p.length = 9 + (operandBytes c.action).length := by
  intro p
  have h : Reads p 1 (cueBytes c) := reads_tail _ _
  rw [cueBytes, reads_append, reads_append, List.length_append, triggerBytes_length] at h
  obtain ⟨⟨htrigger, hcode, hflags, hlead, hnext, -⟩, hoperands⟩ := h
  refine ⟨htrigger, hcode, hflags, hlead, hnext, hoperands, ?_⟩
  simp only [p, cueBytes, List.length_cons, List.length_append, triggerBytes_length, List.length_nil]
  omega

/-- No bar and no beat without the trigger AT. -/
theorem trigger_fits {p : List Byte} {t : Trigger} (h : Reads p 1 (triggerBytes t)) :
    byteAt p 1 = 0 ∨ (byteAt p 2 = 0 ∧ byteAt p 3 = 0) ∧ byteAt p 4 = 0 := by
  match t, h with
  | .at _ _, h => exact .inl (byteAt_of_getD (n := 0) h.1 (by decide))
  | .afterPrevious, h | .onGo, h =>
    obtain ⟨-, h2, h3, h4, -⟩ := h
    exact .inr ⟨⟨byteAt_of_getD (n := 0) h2 (by decide), byteAt_of_getD (n := 0) h3 (by decide)⟩,
      byteAt_of_getD (n := 0) h4 (by decide)⟩

theorem CueAction.code_le (a : CueAction) : a.code ≤ 9 := by cases a <;> exact of_decide_eq_true rfl

theorem cue_readsBack (n : Nat) {c : Cue} (hok : c.ok = true) :
    ReqKind.fits .writeCue (byte n :: cueBytes c) = true ∧ parseCue (byte n :: cueBytes c) = .ok c := by
  simp only [Cue.ok, Bool.and_eq_true, Bool.not_eq_true', decide_eq_true_eq] at hok
  obtain ⟨⟨⟨htrigger, haction⟩, hboth⟩, hlead, hnext⟩ := hok
  obtain ⟨rtrigger, rcode, rflags, rlead, rnext, roperands, rlen⟩ := cue_reads n c
  have hcode := c.action.code_le
  have bcode := byteAt_of_getD rcode (by omega)
  have hflags : ∀ i < 8, bitAt (byte n :: cueBytes c) 6 i = c.flags.getD i false := fun i => bitAt_of_getD rflags
  have hbits : bits c.flags < 8 := bits_lt _
  constructor
  · simp only [ReqKind.fits, cueFits, bcode, operandLength_of_reads roperands haction, rlen, decide_true, Bool.true_and,
      byteAt_of_getD rflags (by omega), hbits, Bool.or_eq_true, Bool.and_eq_true, decide_eq_true_eq]
    exact trigger_fits rtrigger
  · have hpair : (c.flags.getD 0 false && c.flags.getD 1 false) = false := hboth
    simp only [parseCue, parseTrigger_of_reads rtrigger htrigger, parseAction_of_reads bcode roperands haction, Parse.ok_bind,
      hflags 0 (by decide), hflags 1 (by decide), hflags 2 (by decide), hpair, Bool.false_eq_true, if_false, field_some,
      byteAt_of_getD rlead (by omega), byteAt_of_getD rnext (by omega), within_ok_place (And.intro (Nat.zero_le _) hlead)]
    rfl

/-! ## Set lists and patterns -/

theorem setlist_readsBack {ns : List Nat} (hlen : ns.length ≤ 64) (hns : ∀ n ∈ ns, n ≤ 63) :
    ReqKind.fits .writeSetlist (byte ns.length :: ns.map byte) = true ∧
      parseSetlist (byte ns.length :: ns.map byte) = .ok ns := by
  have bcount : byteAt (byte ns.length :: ns.map byte) 0 = ns.length := byteAt_of_getD rfl (by omega)
  constructor
  · simp only [ReqKind.fits, bcount, List.length_cons, List.length_map, Nat.add_comm, decide_true]
  · rw [parseSetlist, bcount, within_ok_place ⟨Nat.zero_le _, hlen⟩, Parse.ok_bind]
    refine parseMany_of_items fun i hi => ?_
    have hn := hns _ (List.getElem_mem hi)
    have hbyte := (reads_tail (byte ns.length) (ns.map byte)).getElem (k := i) (by rwa [List.length_map])
    rw [List.getElem_map] at hbyte
    rw [Nat.zero_add, byteAt_of_getD hbyte (by omega), within_ok_place ⟨Nat.zero_le _, hn⟩]

/-- The two bytes of a pattern position. -/
def PatPos.bytes (x : PatPos) : List Byte := [byte x.cls.code, byte x.sub]

theorem PatPos.bytes_length (x : PatPos) : x.bytes.length = 2 := rfl

theorem patternPayload_eq (n : Nat) (q : Pattern) : patternPayload n q = byte n :: q.flatMap PatPos.bytes := rfl

theorem patternOk_iff (q : Pattern) : patternOk q = true ↔ q.length = 16 ∧ ∀ x ∈ q, x.sub ∈ [1, 2, 3, 4, 6, 8] := by
  simp [patternOk]

theorem pattern_readsBack {n : Nat} {q : Pattern} (hn : n ≤ 15) (hok : patternOk q = true) :
    ReqKind.fits .writePattern (patternPayload n q) = true ∧ parsePattern (patternPayload n q) = .ok (n, q) := by
  obtain ⟨hlen, hsub⟩ := (patternOk_iff q).1 hok
  have bindex : byteAt (patternPayload n q) 0 = n := byteAt_of_getD rfl (by omega)
  have rows : ∀ i (hi : i < q.length), Reads (patternPayload n q) (1 + 2 * i) q[i].bytes :=
    fun i hi => (reads_tail _ _).item PatPos.bytes_length hi
  constructor
  · simp only [ReqKind.fits, patternPayload_eq, List.length_cons, flatMap_length PatPos.bytes_length, hlen, Nat.reduceMul, Nat.reduceAdd,
      decide_true]
  · rw [parsePattern, bindex, within_ok_place ⟨Nat.zero_le _, hn⟩, Parse.ok_bind, ← hlen, parseMany_of_items (xs := q)]
    · rfl
    · intro i hi
      have hmem := hsub _ (List.getElem_mem hi)
      obtain ⟨hcls, hs⟩ := rows i hi
      have bcls := byteAt_of_getD hcls (by cases q[i].cls <;> decide)
      have bsub : byteAt (patternPayload n q) (2 + 2 * i) = q[i].sub := by
        refine byteAt_of_getD (hs.shift (o' := 2 + 2 * i)).1 ?_
        simp only [List.mem_cons, List.not_mem_nil, or_false] at hmem
        omega
      simp only [Nat.zero_add, bcls, bsub, if_pos hmem, field_some]
      generalize q[i] = x
      cases x with
      | mk cls sub => cases cls <;> rfl

/-! ## Click changes and port settings -/

/-- The fields of a click change by their number. -/
def ClickChange.fields (c : ClickChange) : List (Option Nat) := [c.pattern, c.level, c.accent, c.normal, c.sub]

theorem parseClickValue_of {p : List Byte} {k hi : Nat} {v : Option Nat} (hbit : bitAt p 1 k = v.isSome)
    (hbyte : p.getD (2 + k) 0 = byte (v.getD 0)) (hok : optLe v hi = true) (hhi : hi < 256) :
    parseClickValue p k hi = .ok v := by
  cases v with
  | none => rw [parseClickValue, hbit]; rfl
  | some n =>
    have hn : n ≤ hi := of_decide_eq_true hok
    rw [parseClickValue, hbit, Option.isSome_some, if_pos rfl, byteAt_of_getD hbyte (by rw [Option.getD_some]; omega),
      Option.getD_some, within_ok_place ⟨Nat.zero_le _, hn⟩]
    rfl

theorem click_readsBack {b : Bus} {c : ClickChange} (hok : c.ok = true) :
    ReqKind.fits .setClick (clickPayload b c) = true ∧ parseClick (clickPayload b c) = .ok (b, c) := by
  simp only [ClickChange.ok, Bool.and_eq_true] at hok
  obtain ⟨⟨⟨⟨hpattern, hlevel⟩, haccent⟩, hnormal⟩, hsub⟩ := hok
  have hpresent : (clickPayload b c).getD 1 0 = byte (bits (c.fields.map Option.isSome)) := rfl
  have hbit : ∀ k (hk : k < 5), bitAt (clickPayload b c) 1 k = c.fields[k].isSome := fun k hk => by
    rw [bitAt_of_getD hpresent (by omega), List.getD_eq_getElem _ _ (by simpa [ClickChange.fields] using hk), List.getElem_map]
    rfl
  have hbus : busOf (byteAt (clickPayload b c) 0) = some b := busOf_code b
  constructor
  · have hlt : bits (c.fields.map Option.isSome) < 32 := bits_lt _
    have hzero : ∀ k (hk : k < 5), c.fields[k] = none → byteAt (clickPayload b c) (2 + k) = 0 := fun k hk h => by
      have hbyte : (clickPayload b c).getD (2 + k) 0 = byte (c.fields[k].getD 0) := by interval_cases k <;> rfl
      rw [h] at hbyte
      exact byteAt_of_getD hbyte (by decide)
    simp only [ReqKind.fits, clickFits, byteAt_of_getD hpresent (by omega), hlt, decide_true, Bool.and_true,
      List.all_eq_true, List.mem_range, Bool.or_eq_true, decide_eq_true_eq, Bool.and_eq_true]
    refine ⟨rfl, fun k hk => ?_⟩
    rw [hbit k hk]
    cases h : c.fields[k] with
    | none => exact .inr (hzero k hk h)
    | some v => exact .inl rfl
  · simp only [parseClick, hbus, field_some, Parse.ok_bind,
      parseClickValue_of (hbit 0 (by decide)) rfl hpattern (by decide),
      parseClickValue_of (hbit 1 (by decide)) rfl hlevel (by decide),
      parseClickValue_of (hbit 2 (by decide)) rfl haccent (by decide),
      parseClickValue_of (hbit 3 (by decide)) rfl hnormal (by decide),
      parseClickValue_of (hbit 4 (by decide)) rfl hsub (by decide)]
    rfl

theorem input_readsBack {i : InPort} {t : InSettings} (hok : t.ok = true) :
    ReqKind.fits .setInput (inputPayload i t) = true ∧ parseInput (inputPayload i t) = .ok (i, t) := by
  simp only [InSettings.ok, Bool.and_eq_true, decide_eq_true_eq] at hok
  obtain ⟨⟨havg, hdead⟩, hint⟩ := hok
  obtain ⟨hle, hbit⟩ := byteAt_flag (p := inputPayload i t) (o := 1) rfl
  have hport : inPortOf (byteAt (inputPayload i t) 0) = some i := inPortOf_code i
  have hfilter : chanOrAny (byteAt (inputPayload i t) 2) = some t.filter := chanOrAny_optChan t.filter
  have bavg : byteAt (inputPayload i t) 3 = t.average := byteAt_of_getD rfl (by omega)
  have bdead : byteAt (inputPayload i t) 4 = t.deadband := byteAt_of_getD rfl (by omega)
  have bint : byteAt (inputPayload i t) 5 = t.interval := byteAt_of_getD rfl (by omega)
  have mavg : t.average ∈ [1, 2, 4, 8] := by simpa using havg
  have mint : t.interval ∈ [0, 2, 4, 8] := by simpa using hint
  constructor
  · simp only [ReqKind.fits, hle, decide_true, Bool.and_true]; rfl
  · simp only [parseInput, hport, hfilter, bavg, bdead, bint, if_pos mavg, if_pos mint, hbit, field_some, Parse.ok_bind,
      within_ok_place (And.intro (Nat.zero_le _) hdead)]
    rfl

theorem output_readsBack (o : OutPort) (t : OutSettings) :
    ReqKind.fits .setOutput (outputPayload o t) = true ∧ parseOutput (outputPayload o t) = .ok (o, t) := by
  obtain ⟨hle1, hbit1⟩ := byteAt_flag (p := outputPayload o t) (o := 1) rfl
  obtain ⟨hle2, hbit2⟩ := byteAt_flag (p := outputPayload o t) (o := 2) rfl
  obtain ⟨hle3, hbit3⟩ := byteAt_flag (p := outputPayload o t) (o := 3) rfl
  have hport : outPortOf (byteAt (outputPayload o t) 0) = some o := outPortOf_code o
  constructor
  · simp only [ReqKind.fits, hle1, hle2, hle3, decide_true, Bool.and_true]; rfl
  · simp only [parseOutput, hport, hbit1, hbit2, hbit3, field_some]
    rfl

/-- Settles O15: each record's own lemma. -/
theorem recordsReadBackFromTheirBytes : Obligations.RecordsReadBackFromTheirBytes :=
  ⟨fun n _ h => scene_readsBack n h, fun n _ h => song_readsBack n h, fun n _ h => cue_readsBack n h,
    fun _ hlen h => setlist_readsBack hlen h, fun _ _ hn h => pattern_readsBack hn h, fun _ _ h => click_readsBack h,
    fun _ _ h => input_readsBack h, output_readsBack⟩

end Sys2Proof.Machine
end

section
/-! PROOFS. The requests of the Click Generator: WRITE_PATTERN, SET_CLICK and MUTE_CLICK (R27, R28, R31). -/

namespace Sys2Proof.Machine

theorem busOf_none {n : Nat} (h : 2 ≤ n) : busOf n = none := by
  unfold busOf
  split
  · omega
  · omega
  · rfl

theorem storeBusy_of_none {s : State} (h : s.st.op = .none) : s.storeBusy = false := by
  rw [State.storeBusy, h]; rfl

/-- Outside the canonical form too, a pattern other than the default one reads back from its place. -/
theorem patternAt_setPattern_of_ne {q : Pattern} (h : q ≠ defaultPattern) (t : Table Pattern) (n m : Nat) :
    patternAt (setPattern t n q) m = if m = n then q else patternAt t m := by
  rw [setPattern, if_neg h, patternAt, Table.look_put]
  split <;> rfl

theorem ClickBus.ask_none (x : ClickBus) : x.ask ClickChange.none_ = x := if_pos rfl

/-- The pending change after a change of some field is asked for: its fields, and the old ones where it has none. -/
theorem ClickBus.ask_eq (x : ClickBus) {c : ClickChange} (h : c ≠ ClickChange.none_) :
    x.ask c = { x with change := some (
      { pattern := if c.pattern.isSome then c.pattern else x.change.bind ClickChange.pattern
        level := if c.level.isSome then c.level else x.change.bind ClickChange.level
        accent := if c.accent.isSome then c.accent else x.change.bind ClickChange.accent
        normal := if c.normal.isSome then c.normal else x.change.bind ClickChange.normal
        sub := if c.sub.isSome then c.sub else x.change.bind ClickChange.sub } : ClickChange) } := by
  have hor : ∀ v w : Option Nat, (v <|> w) = if v.isSome then v else w := fun v w => by cases v <;> rfl
  have hnone : ∀ v : Option Nat, (if v.isSome then v else none) = v := fun v => by cases v <;> rfl
  rw [ClickBus.ask, if_neg h]
  cases x.change with
  | none => simp only [Option.bind_none, hnone]
  | some old => simp only [ClickChange.merge, hor, Option.bind_some]

theorem State.reqWritePattern_eq {s : State} {l : Link} {p : List Byte} {n : Nat} {q : Pattern} (hs : s.st.op = .none)
    (hp : parsePattern p = .ok (n, q)) : (s.heard l).reqWritePattern l p =
      { s.answered l .writePattern .done [] with ck := { s.ck with patterns := setPattern s.ck.patterns n q } } := by
  simp only [State.reqWritePattern, State.heard_storeBusy, storeBusy_of_none hs, hp, State.heard_reply]
  rfl

theorem State.reqSetClick_eq {s : State} {l : Link} {p : List Byte} {b : Bus} {c : ClickChange} (hs : s.st.op = .none)
    (hp : parseClick p = .ok (b, c)) : (s.heard l).reqSetClick l p =
      (s.answered l .setClick .done []).setBus b ((s.bus b).ask c) := by
  simp only [State.reqSetClick, State.heard_storeBusy, storeBusy_of_none hs, hp, State.heard_reply]
  rfl

theorem State.reqMuteClick_eq (s : State) (l : Link) (b : Bus) (m : Bool) :
    (s.heard l).reqMuteClick l [byte (Bus.code b), flag m] =
      if (s.bus b).mute = m then s.answered l .muteClick .already []
      else (s.answered l .muteClick .done []).setBus b { s.bus b with mute := m } := by
  have hbus : busOf (byteAt [byte (Bus.code b), flag m] 0) = some b := busOf_code b
  obtain ⟨-, hbit⟩ := byteAt_flag (p := [byte (Bus.code b), flag m]) (o := 1) (b := m) rfl
  simp only [State.reqMuteClick, hbus, hbit, field_some, State.heard_bus, State.heard_reply, State.answered_bus]

theorem State.reqMuteClick_range (s : State) (l : Link) {x : Byte} (h : 2 ≤ x.toNat) (m : Byte) :
    (s.heard l).reqMuteClick l [x, m] = s.answered l .muteClick .range [0, 0, 255] := by
  have hbus : busOf (byteAt [x, m] 0) = none := busOf_none h
  simp only [State.reqMuteClick, hbus, field, State.heard_replyRange]
  rfl

/-- Settles O34: each request's payload reads back, and its own lemma says what it does. -/
theorem clickRequestsAct : Obligations.ClickRequestsAct := by
  intro s l
  refine ⟨fun n q hn hq hs ht => ⟨?_, fun m h => ?_⟩, fun b c hc hs ht => ?_, fun b m ht => ?_, fun x m hx ht => ?_⟩
  · rw [exec_of_takes (i := .writePattern l (patternPayload n q)) rfl ht]
    exact congrArg _ (State.reqWritePattern_eq hs (pattern_readsBack hn hq).2)
  · exact h.elim (fun h => patternAt_setPattern h n m q) (fun h => patternAt_setPattern_of_ne h _ n m)
  · rw [exec_of_takes (i := .setClick l (clickPayload b c)) rfl ht]
    refine congrArg _ ((State.reqSetClick_eq hs (click_readsBack hc).2).trans ?_)
    split
    · next h =>
      obtain rfl : c = ClickChange.none_ := h
      rw [ClickBus.ask_none]
      exact (s.answered l .setClick .done []).setBus_bus b
    · next h => rw [ClickBus.ask_eq _ h]
  · rw [exec_of_takes (i := .muteClick l [byte (Bus.code b), flag m]) rfl ht]
    exact congrArg _ (s.reqMuteClick_eq l b m)
  · rw [exec_of_takes (i := .muteClick l [x, flag m]) rfl ht]
    exact congrArg _ (s.reqMuteClick_range l hx _)

end Sys2Proof.Machine
end

section
/-! PROOFS. The Show Store takes an image: LOAD_SHOW, LOAD_DONE and start-up's read (R182, R183). -/

namespace Sys2Proof.Machine

/-! ## What the flash is found to hold -/

theorem Flash.read_valid (g : ShowImage) : (Flash.image g g.crc).read = (.valid, some g) := if_pos rfl

theorem ImageStatus.ne_valid_of_fault {st : ImageStatus} {k : FaultKind} (h : st.fault = some k) : st ≠ .valid := by
  rintro rfl
  exact nomatch h

/-! ## An image taken whole -/

/-- The tables and settings of `t` are those of the image `g`, and the engine, the live map, the buses, the store and the rest
of the sequencer are those of `s` (R182). -/
structure ImageTaken (s t : State) (g : ShowImage) : Prop where
  te : t.te = s.te
  live : t.lr.live = s.lr.live
  limit : t.sw.limit = max 3 (min 20 g.limit)
  cs : t.cs = (s.loadTables g).cs
  ck : t.ck = (s.loadTables g).ck
  st : t.st = s.st
  inputs : ∀ i, (t.midiIn i).settings = g.inputs.get i
  outputs : ∀ o, (t.midiOut o).settings = g.outputs.get o

theorem State.load_imageTaken (s : State) (g : ShowImage) : ImageTaken s ((s.loadTables g).loadSettings g) g := by
  obtain ⟨hte, hcs, hck, hlive, -, hst, hlimit, hin, hout⟩ := (s.loadTables g).loadSettings_takes g
  exact ⟨hte, hlive, hlimit, hcs, hck, hst, hin, hout⟩

theorem State.load_modes (s : State) (g : ShowImage) : ((s.loadTables g).loadSettings g).fl.modes = s.fl.modes := by
  obtain ⟨-, -, -, -, hmodes, -⟩ := (s.loadTables g).loadSettings_takes g
  exact hmodes

/-- The modes and the part state are no part of what an image's tables and settings are. -/
theorem ImageTaken.with_log_ready {s t : State} {g : ShowImage} (h : ImageTaken s t g) (f : FaultLog) (b : Bool) :
    ImageTaken s { t with fl := f, ready := b } g :=
  ⟨h.te, h.live, h.limit, h.cs, h.ck, h.st, h.inputs, h.outputs⟩

/-- Notices and fault reports leave an image taken. -/
theorem ImageTaken.linksOnly {s t u : State} {g : ShowImage} (h : ImageTaken s t g) (k : LinksOnly t u) : ImageTaken s u g where
  te := k.te.trans h.te
  live := by rw [k.lr, h.live]
  limit := by rw [k.watch, h.limit]
  cs := k.cs.trans h.cs
  ck := k.ck.trans h.ck
  st := k.st.trans h.st
  inputs i := by rw [State.midiIn, k.ip]; exact h.inputs i
  outputs o := by rw [State.midiOut, k.op]; exact h.outputs o

theorem ImageTaken.patternAt {s t : State} {g : ShowImage} (h : ImageTaken s t g) (hs : Table.sorted g.patterns = true)
    (n : Nat) :
    patternAt t.ck.patterns n = ((Table.look g.patterns n).getD none).getD defaultPattern := by
  rw [h.ck]
  exact patternAt_loadPatterns hs n

/-! ## LOAD_SHOW -/

theorem State.reqLoadShow_eq {s : State} (hs : s.st.op = .none) (l : Link) : (s.heard l).reqLoadShow l =
    if s.te.transport = .stopped ∧ s.cs.state = .idle ∧ s.lr.staged = none then
      { s.answered l .loadShow .accepted [] with st := { s.st with op := .loading } }
    else s.answered l .loadShow .state [] := by
  have hnot : (s.te.transport ≠ .stopped ∨ s.cs.state ≠ .idle ∨ s.lr.staged ≠ none) ↔
      ¬(s.te.transport = .stopped ∧ s.cs.state = .idle ∧ s.lr.staged = none) := by tauto
  simp only [State.reqLoadShow, State.heard_storeBusy, storeBusy_of_none hs, State.heard_te, State.heard_cs, State.heard_lr,
    State.heard_reply, hnot, ite_not]
  rfl

/-! ## The end of a load -/

theorem State.loadEnds_of_not_loading {s : State} (h : s.st.op ≠ .loading) : s.loadEnds = s := by
  unfold State.loadEnds
  split
  · next hl => exact absurd hl h
  · rfl
  · rfl

theorem State.loadEnds_unusable {s : State} {st : ImageStatus} {k : FaultKind} (h : s.st.op = .loading)
    (hr : s.st.flash.read = (st, none)) (hk : st.fault = some k) :
    s.loadEnds = ((s.withStore { s.st with status := st, op := .none }).storeNotice .load false).report k none := by
  simp only [State.loadEnds, h, hr, hk, State.reportStore]

theorem State.loadEnds_valid {s : State} {g : ShowImage} (h : s.st.op = .loading) (hr : s.st.flash.read = (.valid, some g)) :
    s.loadEnds = (((((s.withStore { s.st with status := .valid, op := .none }).loadTables g).loadSettings g).setModes
      g.modes).storeNotice .load true) := by
  simp only [State.loadEnds, h, hr]

theorem State.loadEnds_taken {s : State} {g : ShowImage} (h : s.st.op = .loading) (hr : s.st.flash.read = (.valid, some g)) :
    ImageTaken (s.withStore { s.st with status := .valid, op := .none }) s.loadEnds g ∧ s.loadEnds.fl.modes = g.modes := by
  have hnotice := State.storeNotice_linksOnly
    ((((s.withStore { s.st with status := .valid, op := .none }).loadTables g).loadSettings g).setModes g.modes) .load true
  rw [State.loadEnds_valid h hr]
  exact ⟨((State.load_imageTaken _ g).with_log_ready _ _).linksOnly hnotice, hnotice.modes⟩

/-! ## Start-up -/

theorem State.startupEnds_unusable {s : State} {st : ImageStatus} {k : FaultKind} (h : s.ready = false)
    (hr : s.st.flash.read = (st, none)) (hk : st.fault = some k) :
    s.startupEnds = { (((s.withStore { s.st with status := st }).report (startupFault s.cause) none).report k none).storeNotice
      .startup false with ready := true } := by
  simp only [State.startupEnds, h, Bool.false_eq_true, if_false, hr, hk, State.startupLoad, State.reportStore,
    ImageStatus.ne_valid_of_fault hk, decide_false]

theorem State.startupEnds_valid {s : State} {g : ShowImage} (h : s.ready = false) (hr : s.st.flash.read = (.valid, some g)) :
    s.startupEnds = { (((((s.withStore { s.st with status := .valid }).setModes g.modes).loadTables g).loadSettings g).report
      (startupFault s.cause) none).storeNotice .startup true with ready := true } := by
  simp only [State.startupEnds, h, Bool.false_eq_true, if_false, hr, State.startupLoad, ImageStatus.fault, State.reportStore,
    decide_true]

theorem State.startupEnds_taken {s : State} {g : ShowImage} (h : s.ready = false) (hr : s.st.flash.read = (.valid, some g)) :
    ImageTaken ((s.withStore { s.st with status := .valid }).setModes g.modes) s.startupEnds g ∧
      s.startupEnds.fl.modes = g.modes := by
  have hreport := State.report_linksOnly
    ((((s.withStore { s.st with status := .valid }).setModes g.modes).loadTables g).loadSettings g) (startupFault s.cause) none
  have hnotice := hreport.trans (State.storeNotice_linksOnly _ .startup true)
  rw [State.startupEnds_valid h hr]
  exact ⟨((State.load_imageTaken _ g).linksOnly hnotice).with_log_ready _ _, hnotice.modes.trans (State.load_modes _ g)⟩

/-- Settles O47: each end by what the flash is read as, and the image taken by what loading it leaves. -/
theorem loadAndStartUpTakeTheImage : Obligations.LoadAndStartUpTakeTheImage := by
  intro s tables settings modes cause taken
  have htaken : ∀ {u t : State} {g : ShowImage}, ImageTaken u t g → t.fl.modes = g.modes → u.te = s.te → u.lr = s.lr →
      u.cs = s.cs → u.ck = s.ck → taken t g := by
    intro u t g h hm hte hlr hcs hck
    refine ⟨h.te.trans hte, hm, by rw [h.live, hlr], h.limit, h.cs.trans (by rw [← hcs]; rfl), ?_, h.patternAt, h.inputs,
      h.outputs⟩
    rw [h.ck, ← hck]; rfl
  refine ⟨fun l hs ht => ?_, fun h => ?_, fun h st k hr hk => ?_, fun h g hf => ?_, fun h => ?_, fun h st k hr hk => ?_,
    fun h g hf => ?_, fun f => ?_, rfl, rfl⟩
  · rw [exec_of_takes (i := .loadShow l []) rfl ht]
    exact congrArg _ (State.reqLoadShow_eq hs l)
  · exact congrArg _ (State.loadEnds_of_not_loading h)
  · exact congrArg _ (State.loadEnds_unusable h hr hk)
  · have hr : s.st.flash.read = (.valid, some g) := hf ▸ Flash.read_valid g
    obtain ⟨himage, hm⟩ := State.loadEnds_taken h hr
    intro t
    have ht : s.loadEnds = t := State.loadEnds_valid h hr
    rw [ht] at himage hm
    exact ⟨congrArg _ ht, himage.st, htaken himage hm rfl rfl rfl rfl⟩
  · exact congrArg _ (if_pos h)
  · exact congrArg _ (State.startupEnds_unusable h hr hk)
  · have hr : s.st.flash.read = (.valid, some g) := hf ▸ Flash.read_valid g
    obtain ⟨himage, hm⟩ := State.startupEnds_taken h hr
    intro t
    have ht : s.startupEnds = t := State.startupEnds_valid h hr
    rw [ht] at himage hm
    exact ⟨congrArg _ ht, himage.st, rfl, htaken himage hm rfl rfl rfl rfl⟩
  · cases f <;> rfl

end Sys2Proof.Machine
end

section
/-! PROOFS. The outputs (R51 to R56): what each offer comes to, which byte goes on the line next, and the drain to DISABLED. -/

namespace Sys2Proof.Machine

/-! ## Offers -/

/-- An output that is not ENABLED discards a note-on, a group and a coalescible message (R52 to R54). -/
theorem State.offers_discarded {s : State} {o : OutPort} (h : (s.midiOut o).mode ≠ .enabled) :
    (∀ c k v, s.offerNoteOn o c k v = (s, .discarded)) ∧ (∀ ms, s.offerGroup o ms = (s, .discarded)) ∧
      ∀ m, s.offerCoalescible o m = (s, .discarded) :=
  ⟨fun _ _ _ => if_neg h, fun _ => if_neg h, fun _ => if_neg h⟩

theorem State.offerNoteOn_enabled {s : State} {o : OutPort} (h : (s.midiOut o).mode = .enabled) (c : Chan) (k v : Nat) :
    s.offerNoteOn o c k v =
      if 64 ≤ (s.midiOut o).sounding then (s.report .voiceCap (some (.output o)), .dropped)
      else if 64 ≤ (s.midiOut o).queue.length then (s.report .full (some (.output o)), .dropped)
      else (s.setOut o (MidiOut.append { s.midiOut o with sounding := (s.midiOut o).sounding + 1 } s.now
        [⟨.noteOn c k v, false⟩]), .admitted) := if_pos h

theorem State.offerGroup_enabled {s : State} {o : OutPort} (h : (s.midiOut o).mode = .enabled) (ms : List OutMsg) :
    s.offerGroup o ms =
      if (s.midiOut o).queue.length + ms.length ≤ 64 then
        (s.setOut o ((s.midiOut o).append s.now (ms.map (fun m => ⟨m, false⟩))), .admitted)
      else (s.report .full (some (.output o)), .dropped) := if_pos h

theorem QMsg.matches_iff (m : OutMsg) (q : QMsg) : q.matches m = true ↔ q.coal = true ∧ q.msg.sameStream m = true := by
  simp only [QMsg.matches, Bool.and_eq_true]

/-- The oldest waiting message of the stream is replaced in its place (R54). -/
theorem coalesceInto_hit {m : OutMsg} {before after : List QMsg} {q : QMsg} (hq : q.matches m = true)
    (hb : ∀ d ∈ before, ¬d.matches m = true) :
    coalesceInto m (before ++ q :: after) = before ++ ⟨m, true⟩ :: after := by
  induction before with
  | nil => exact if_pos hq
  | cons d r ih =>
    have hd : coalesceInto m (d :: r ++ q :: after) = d :: coalesceInto m (r ++ q :: after) :=
      if_neg (hb d List.mem_cons_self)
    rw [hd, ih fun x hx => hb x (List.mem_cons_of_mem _ hx), List.cons_append]

theorem State.offerCoalescible_hit {s : State} {o : OutPort} {m : OutMsg} {before after : List QMsg} {q : QMsg}
    (h : (s.midiOut o).mode = .enabled) (hs : (s.midiOut o).queue = before ++ q :: after) (hq : q.matches m = true)
    (hb : ∀ d ∈ before, ¬d.matches m = true) :
    s.offerCoalescible o m =
      (s.setOut o { s.midiOut o with queue := before ++ ⟨m, true⟩ :: after }, .coalesced) := by
  have hany : (s.midiOut o).queue.any (QMsg.matches m) = true := List.any_eq_true.2 ⟨q, by simp [hs], hq⟩
  simp only [State.offerCoalescible, if_pos h, if_pos hany]
  rw [hs, coalesceInto_hit hq hb]

theorem State.offerCoalescible_miss {s : State} {o : OutPort} {m : OutMsg} (h : (s.midiOut o).mode = .enabled)
    (hm : ∀ d ∈ (s.midiOut o).queue, ¬d.matches m = true) :
    s.offerCoalescible o m =
      if (s.midiOut o).queue.length < 64 then (s.setOut o ((s.midiOut o).append s.now [⟨m, true⟩]), .admitted)
      else (s.report .full (some (.output o)), .dropped) := by
  have hany : ¬(s.midiOut o).queue.any (QMsg.matches m) = true := by simpa using hm
  simp only [State.offerCoalescible, if_pos h, if_neg hany]
  rfl

/-! ## Transmission -/

/-- The bytes of the message in transmission still to be put on the line (R51). -/
def MidiOut.unsent (x : MidiOut) : List Byte := (x.tx.map OutTx.left).getD []

theorem MidiOut.byteSent_idle {x : MidiOut} (h : x.line = none) (now : Stamp) : x.byteSent now = x := by
  simp only [MidiOut.byteSent, h]

/-- The output once the byte on its line has finished: a message with nothing left of it is complete (R55). -/
def MidiOut.lineFreed (x : MidiOut) : MidiOut := { x with tx := if x.unsent = [] then none else x.tx, line := none }

theorem MidiOut.byteSent_busy {x : MidiOut} (h : x.line.isSome = true) (now : Stamp) :
    x.byteSent now = x.lineFreed.nextByte now := by
  obtain ⟨b, hb⟩ := Option.isSome_iff_exists.1 h
  simp only [MidiOut.byteSent, hb, MidiOut.lineFreed]
  cases ht : x.tx with
  | none => simp
  | some t =>
    obtain ⟨m, left⟩ := t
    cases left <;> simp [MidiOut.unsent, ht]

theorem MidiOut.nextByte_realTime {x : MidiOut} {b : Byte} {r : List Byte} (h : x.realTime = b :: r) (now : Stamp) :
    x.nextByte now = { x with realTime := r, line := some ⟨b, now + 320#32⟩ } := by
  simp only [MidiOut.nextByte, h]
  rfl

theorem MidiOut.nextByte_tx {x : MidiOut} {m : OutMsg} {b : Byte} {r : List Byte} (h : x.realTime = [])
    (ht : x.tx = some ⟨m, b :: r⟩) (now : Stamp) :
    x.nextByte now = { x with tx := some ⟨m, r⟩, line := some ⟨b, now + 320#32⟩ } := by
  simp only [MidiOut.nextByte, h, ht]
  rfl

theorem MidiOut.nextByte_message {x : MidiOut} {q : QMsg} {rest : List QMsg} (h : x.realTime = []) (ht : x.tx = none)
    (hq : x.queue = q :: rest) (now : Stamp) : x.nextByte now = x.startMessage now q.msg rest := by
  simp only [MidiOut.nextByte, h, ht, hq]

theorem MidiOut.nextByte_idle {x : MidiOut} (h : x.realTime = []) (ht : x.tx = none) (hq : x.queue = []) (now : Stamp) :
    x.nextByte now = { x with tx := none, line := none } := by
  simp only [MidiOut.nextByte, h, ht, hq]

theorem OutMsg.data_cons (m : OutMsg) : ∃ d ds, m.data = d :: ds := by
  cases m <;> exact ⟨_, _, rfl⟩

/-- A message begins with its status byte, or under running status, where that repeats, with its first data byte (R55). -/
theorem MidiOut.startMessage_eq (x : MidiOut) (now : Stamp) (m : OutMsg) (rest : List QMsg) :
    let whole : List Byte := if x.settings.running = true ∧ x.statusMem = some m.status then m.data else m.status :: m.data
    x.startMessage now m rest = { x with
      queue := rest
      tx := some ⟨m, whole.tail⟩
      statusMem := some m.status
      line := some ⟨whole.headD 0, now + 320#32⟩ } := by
  obtain ⟨d, ds, hd⟩ := m.data_cons
  by_cases hr : x.settings.running = true ∧ x.statusMem = some m.status
  · simp only [MidiOut.startMessage, hd, hr, and_self, if_true, decide_true, Bool.and_self, List.tail_cons, List.headD_cons]
    rfl
  · have hr' : ¬(x.settings.running && decide (x.statusMem = some m.status)) = true := by simpa using hr
    simp only [MidiOut.startMessage, hd, if_neg hr, if_neg hr', List.tail_cons, List.headD_cons]
    rfl

theorem MidiOut.drained_iff (x : MidiOut) : x.drained = true ↔ x.sounding = 0 ∧ x.queue = [] ∧ x.tx = none := by
  simp [MidiOut.drained, and_assoc]

/-- Settles O60: each offer by its own rule; a busy line by what `nextByte` chooses once the finished message is complete. -/
theorem outputsAdmitAndSend : Obligations.OutputsAdmitAndSend := by
  intro s o x queued
  refine ⟨fun c k v => rfl, fun c k v => ⟨fun h => (State.offers_discarded h).1 c k v, fun h => State.offerNoteOn_enabled h c k v⟩,
    fun ms => ⟨fun h => (State.offers_discarded h).2.1 ms, fun h hw => ?_, fun h hw => ?_⟩,
    fun m => ⟨fun h => (State.offers_discarded h).2.2 m, fun before q after h hs hc hm hb => ?_, fun h hm => ?_⟩,
    fun h => ?_, fun h => ?_, ?_⟩
  · rw [State.offerGroup_enabled h, if_pos hw]; rfl
  · rw [State.offerGroup_enabled h, if_neg (Nat.not_le.2 hw)]
  · exact State.offerCoalescible_hit h hs ((q.matches_iff m).2 ⟨hc, hm⟩) fun d hd => mt (d.matches_iff m).1 (hb d hd)
  · exact State.offerCoalescible_miss h fun d hd => mt (d.matches_iff m).1 (hm d hd)
  · have hidle : s.outputByteSent o = s := by rw [State.outputByteSent, MidiOut.byteSent_idle h, State.setOut_midiOut]
    exact congrArg _ hidle
  · intro ends left
    have hleft : left = x.unsent := by
      simp only [left, MidiOut.unsent]
      cases x.tx <;> rfl
    have hsent : ∀ y, x.lineFreed.nextByte s.now = y → exec (.outputByteSent o) s = .next (s.setOut o y) := fun y hy =>
      congrArg (fun z => Host.Outcome.next (s.setOut o z)) ((MidiOut.byteSent_busy h s.now).trans hy)
    have hdone : left = [] → x.lineFreed.tx = none := fun hl => if_pos (hleft ▸ hl)
    refine ⟨fun b r hr => hsent _ ?_, fun m b r hr ht => hsent _ ?_, fun q rest hr hl hq => hsent _ ?_,
      fun hr hl hq => hsent _ ?_⟩
    · rw [MidiOut.nextByte_realTime (x := x.lineFreed) hr, hleft]
      rfl
    · have htx : x.lineFreed.tx = some ⟨m, b :: r⟩ := by simp [MidiOut.lineFreed, MidiOut.unsent, ht]
      exact MidiOut.nextByte_tx (x := x.lineFreed) hr htx _
    · rw [MidiOut.nextByte_message (x := x.lineFreed) hr (hdone hl) hq]
      exact MidiOut.startMessage_eq _ _ _ _
    · exact MidiOut.nextByte_idle (x := x.lineFreed) hr (hdone hl) hq _
  · have hd : (x.mode = .draining ∧ x.drained = true) ↔
        (x.mode = .draining ∧ x.sounding = 0 ∧ x.queue = [] ∧ x.tx = none) := and_congr_right fun _ => x.drained_iff
    exact congrArg Host.Outcome.next (if_congr hd rfl rfl)

end Sys2Proof.Machine
end

section
/-! PROOFS. The parser of a MIDI input, byte by byte (R40 to R45, R48): what each class of byte makes of its input, and what the
bytes of a whole message come to. -/

namespace Sys2Proof.Machine

/-! ## What the sensing sees -/

/-- The sensing does not read the parser, and the parser's fields pass through it. -/
theorem MidiIn.byteSeen_parser (x : MidiIn) (now : Stamp) (fe : Bool) (r : Option Byte) (c : Option Partial) (k : Skip) :
    MidiIn.byteSeen { x with running := r, collected := c, skip := k } now fe =
      { x.byteSeen now fe with running := r, collected := c, skip := k } := by
  unfold MidiIn.byteSeen
  split
  · rfl
  · split <;> rfl

theorem MidiIn.byteSeen_running (x : MidiIn) (now : Stamp) (fe : Bool) : (x.byteSeen now fe).running = x.running := by
  simpa using congrArg MidiIn.running (x.byteSeen_parser now fe x.running x.collected x.skip)

theorem MidiIn.byteSeen_collected (x : MidiIn) (now : Stamp) (fe : Bool) : (x.byteSeen now fe).collected = x.collected := by
  simpa using congrArg MidiIn.collected (x.byteSeen_parser now fe x.running x.collected x.skip)

theorem MidiIn.byteSeen_skip (x : MidiIn) (now : Stamp) (fe : Bool) : (x.byteSeen now fe).skip = x.skip := by
  simpa using congrArg MidiIn.skip (x.byteSeen_parser now fe x.running x.collected x.skip)

/-- A second byte in the same microsecond changes nothing more of the sensing (R48). -/
theorem MidiIn.byteSeen_again (x : MidiIn) (now : Stamp) :
    (x.byteSeen now false).byteSeen now false = x.byteSeen now false := by
  cases h : x.sensing <;> simp [MidiIn.byteSeen, h]

/-! ## One byte -/

/-- The input takes bytes. -/
theorem State.inputLive_iff (s : State) (i : InPort) :
    s.inputLive i = true ↔ s.ready = true ∧ (s.midiIn i).settings.enabled = true := by
  rw [State.inputLive, Bool.and_eq_true]

theorem State.inputLive_setIn {s : State} {i : InPort} {x : MidiIn} (h : s.inputLive i = true)
    (hx : x.settings = (s.midiIn i).settings) : (s.setIn i x).inputLive i = true := by
  rw [State.inputLive_iff] at h ⊢
  rw [State.midiIn_setIn_same, hx]
  exact h

theorem State.midiByte_dead {s : State} {i : InPort} (h : s.inputLive i = false) (b : Byte) : s.midiByte i b = s := by
  simp only [State.midiByte, h, Bool.false_eq_true, if_false]

theorem State.midiByte_realTime {s : State} {i : InPort} {b : Byte} (h : s.inputLive i = true) (hb : 0xF8 ≤ b.toNat) :
    s.midiByte i b = s.byteSeen i (decide (b = 0xFE#8)) := by
  simp only [State.midiByte, h, if_true, if_pos hb]

/-- A byte below F8h is no active sensing byte. -/
theorem ne_activeSensing {b : Byte} (h : b.toNat < 0xF8) : decide (b = 0xFE#8) = false := by
  refine decide_eq_false fun e => ?_
  subst e
  revert h
  decide

theorem State.midiByte_status {s : State} {i : InPort} {b : Byte} (h : s.inputLive i = true) (hlow : 0x80 ≤ b.toNat)
    (hhigh : b.toNat < 0xF8) : s.midiByte i b = s.setIn i (((s.midiIn i).byteSeen s.now false).takeStatus b) := by
  simp only [State.midiByte, h, if_true, if_neg (Nat.not_le.2 hhigh), if_pos hlow, ne_activeSensing hhigh, State.byteSeen,
    State.midiIn_setIn_same, State.setIn_setIn]

/-- A data byte that completes no message (R42). -/
theorem State.midiByte_data {s : State} {i : InPort} {b : Byte} {y : MidiIn} (h : s.inputLive i = true) (hb : b.toNat < 0x80)
    (hy : ((s.midiIn i).byteSeen s.now false).takeData b = (y, none)) : s.midiByte i b = s.setIn i y := by
  have h1 : ¬0xF8 ≤ b.toNat := by omega
  have h2 : ¬0x80 ≤ b.toNat := by omega
  simp only [State.midiByte, h, if_true, if_neg h1, if_neg h2, ne_activeSensing (b := b) (by omega), State.byteSeen,
    State.midiIn_setIn_same, hy, State.setIn_setIn]

/-- The last data byte of a message (R42, R45). -/
theorem State.midiByte_completes {s : State} {i : InPort} {b st : Byte} {y : MidiIn} {data : List Byte} (h : s.inputLive i = true)
    (hb : b.toNat < 0x80) (hy : ((s.midiIn i).byteSeen s.now false).takeData b = (y, some (st, data))) :
    s.midiByte i b = (s.setIn i y).completeMessage i (chanOf st) (parseMessage st data) := by
  have h1 : ¬0xF8 ≤ b.toNat := by omega
  have h2 : ¬0x80 ≤ b.toNat := by omega
  simp only [State.midiByte, h, if_true, if_neg h1, if_neg h2, ne_activeSensing (b := b) (by omega), State.byteSeen,
    State.midiIn_setIn_same, hy, State.setIn_setIn]

/-! ## The bytes of a channel message -/

/-- The partial message that a data byte joins: the one begun, or an empty one of the running status (R42). -/
def MidiIn.begun (x : MidiIn) : Option Partial :=
  match x.collected with
  | some p => some p
  | none => x.running.map (fun st => ⟨st, []⟩)

theorem MidiIn.takeData_begun {x : MidiIn} {st : Byte} {pre : List Byte} (hs : x.skip = .none) (hp : x.begun = some ⟨st, pre⟩)
    (b : Byte) :
    x.takeData b = if dataNeeded st ≤ pre.length + 1 then ({ x with collected := none }, some (st, pre ++ [b]))
      else ({ x with collected := some ⟨st, pre ++ [b]⟩ }, none) := by
  unfold MidiIn.takeData
  cases hc : x.collected with
  | some p =>
    obtain rfl : p = ⟨st, pre⟩ := by simpa [MidiIn.begun, hc] using hp
    simp [hs]
  | none =>
    obtain ⟨r, hr, hrp⟩ : ∃ r, x.running = some r ∧ (⟨r, []⟩ : Partial) = ⟨st, pre⟩ := by simpa [MidiIn.begun, hc] using hp
    obtain ⟨rfl, rfl⟩ := Partial.mk.inj hrp
    simp [hs, hr]

/-- The rest of a message's data bytes complete it, within one microsecond (R42). -/
theorem runs_data {i : InPort} {st : Byte} : ∀ (rest pre : List Byte) (s : State), s.inputLive i = true →
    (s.midiIn i).skip = .none → (s.midiIn i).begun = some ⟨st, pre⟩ → rest ≠ [] →
    pre.length + rest.length = dataNeeded st → (∀ b ∈ rest, b.toNat < 0x80) →
    runs (rest.map (fun b => .partialMessageByte i b)) s
      ((s.setIn i { (s.midiIn i).byteSeen s.now false with collected := none }).completeMessage i (chanOf st)
        (parseMessage st (pre ++ rest)))
  | [], _, _, _, _, _, hne, _, _ => absurd rfl hne
  | b :: rest, pre, s, hl, hs, hp, _, hn, hb => by
    have htake := MidiIn.takeData_begun (x := (s.midiIn i).byteSeen s.now false) ((MidiIn.byteSeen_skip _ _ _).trans hs)
      (by rw [← hp]; simp only [MidiIn.begun, MidiIn.byteSeen_collected, MidiIn.byteSeen_running]) b
    have hb0 := hb b List.mem_cons_self
    refine ⟨s.midiByte i b, rfl, ?_⟩
    cases rest with
    | nil =>
      have hlast : dataNeeded st ≤ pre.length + 1 := Nat.le_of_eq hn.symm
      rw [if_pos hlast] at htake
      exact (State.midiByte_completes hl hb0 htake).symm
    | cons d rest =>
      rw [if_neg (by simp only [List.length_cons] at hn; omega)] at htake
      rw [State.midiByte_data hl hb0 htake]
      have ih := runs_data (d :: rest) (pre ++ [b])
        (s.setIn i { (s.midiIn i).byteSeen s.now false with collected := some ⟨st, pre ++ [b]⟩ })
        (State.inputLive_setIn hl (MidiIn.byteSeen_settings _ _ _))
        (by rw [State.midiIn_setIn_same]; exact (MidiIn.byteSeen_skip _ _ _).trans hs)
        (by rw [State.midiIn_setIn_same]; rfl) (List.cons_ne_nil _ _)
        (by simp only [List.length_append, List.length_cons, List.length_nil] at hn ⊢; omega)
        (fun x hx => hb x (List.mem_cons_of_mem _ hx))
      have hseen : MidiIn.byteSeen { (s.midiIn i).byteSeen s.now false with collected := some ⟨st, pre ++ [b]⟩ } s.now false
          = { (s.midiIn i).byteSeen s.now false with collected := some ⟨st, pre ++ [b]⟩ } := by
        refine (MidiIn.byteSeen_parser ((s.midiIn i).byteSeen s.now false) s.now false _ _ _).trans ?_
        rw [MidiIn.byteSeen_again]
      rwa [State.midiIn_setIn_same, State.now_setIn, hseen, State.setIn_setIn, List.append_assoc] at ih

theorem byte_val7 (v : Val7) : (byte v.val).toNat = v.val := byte_toNat (by omega)

theorem val7_byte (v : Val7) : val7 (byte v.val) = v :=
  Fin.ext ((congrArg (· % 128) (byte_val7 v)).trans (Nat.mod_eq_of_lt v.isLt))

theorem messageData_lt (m : ChanMsg) : ∀ b ∈ messageData m, b.toNat < 0x80 := by
  have h : ∀ v : Val7, (byte v.val).toNat < 0x80 := fun v => by rw [byte_val7]; exact v.isLt
  cases m <;> simp [messageData, h]

theorem messageData_ne_nil (m : ChanMsg) : messageData m ≠ [] := by cases m <;> exact List.cons_ne_nil _ _

/-- The high half of a status byte names the message's kind and its low half the channel (R41). -/
theorem status_toNat {n : Nat} (h : n < 16) (c : Chan) :
    (byte (16 * n + c.val)).toNat / 16 = n ∧ (byte (16 * n + c.val)).toNat % 16 = c.val := by
  rw [byte_toNat (by omega)]
  omega

/-- The number of a message's kind in the high half of its status byte (R41). -/
def messageNibble : ChanMsg → Nat
  | .noteOff _ _ => 8
  | .noteOn _ _ => 9
  | .polyPressure _ _ => 10
  | .control _ _ => 11
  | .program _ => 12
  | .pressure _ => 13
  | .bend _ _ => 14

theorem chanStatus_eq (c : Chan) (m : ChanMsg) : chanStatus c m = byte (16 * messageNibble m + c.val) := by cases m <;> rfl

theorem messageNibble_bounds (m : ChanMsg) : 8 ≤ messageNibble m ∧ messageNibble m ≤ 14 := by
  cases m <;> exact of_decide_eq_true rfl

theorem chanStatus_nibble (c : Chan) (m : ChanMsg) : (chanStatus c m).toNat / 16 = messageNibble m := by
  rw [chanStatus_eq]
  exact (status_toNat (by have := messageNibble_bounds m; omega) c).1

theorem chanOf_chanStatus (c : Chan) (m : ChanMsg) : chanOf (chanStatus c m) = c := by
  refine Fin.ext ?_
  rw [chanStatus_eq]
  exact (status_toNat (by have := messageNibble_bounds m; omega) c).2

theorem dataNeeded_chanStatus (c : Chan) (m : ChanMsg) : dataNeeded (chanStatus c m) = (messageData m).length := by
  rw [dataNeeded, chanStatus_nibble]
  cases m <;> rfl

theorem parseMessage_chanStatus (c : Chan) (m : ChanMsg) : parseMessage (chanStatus c m) (messageData m) = m := by
  rw [parseMessage, chanStatus_nibble]
  cases m <;> simp [messageNibble, messageData, val7_byte]

/-- The data bytes of a message whose status stands begin and end as the message arriving whole (R42). -/
theorem runs_messageData {s : State} {i : InPort} {c : Chan} {m : ChanMsg} (hl : s.inputLive i = true)
    (hr : (s.midiIn i).running = some (chanStatus c m)) (hp : (s.midiIn i).begun = some ⟨chanStatus c m, []⟩)
    (hs : (s.midiIn i).skip = .none) :
    runs ((messageData m).map (fun b => .partialMessageByte i b)) s (s.messageArrives i c m) := by
  have h := runs_data (messageData m) [] s hl hs hp (messageData_ne_nil m)
    (by rw [dataNeeded_chanStatus]; exact Nat.zero_add _) (messageData_lt m)
  obtain ⟨hready, henabled⟩ := (s.inputLive_iff i).1 hl
  rw [List.nil_append, chanOf_chanStatus, parseMessage_chanStatus] at h
  rw [State.messageArrives_live c m hready henabled, State.messageSeen, ← hr, ← hs, ← MidiIn.byteSeen_running (s.midiIn i) s.now false,
    ← MidiIn.byteSeen_skip (s.midiIn i) s.now false]
  exact h

/-- A channel status byte begins a message (R41). -/
theorem State.midiByte_begins {s : State} {i : InPort} {b : Byte} (h : s.inputLive i = true) (hlow : 0x80 ≤ b.toNat)
    (hhigh : b.toNat < 0xF0) : s.midiByte i b =
      s.setIn i { (s.midiIn i).byteSeen s.now false with running := some b, collected := some ⟨b, []⟩, skip := .none } := by
  rw [State.midiByte_status h hlow (by omega)]
  exact congrArg _ (if_pos hhigh)

/-- Settles O17: the status byte begins the message, and the data bytes complete it under the running status. -/
theorem midiBytesAreTakenAsTheMessage : Obligations.MidiBytesAreTakenAsTheMessage := by
  intro s i c m hready henabled
  have hl := (s.inputLive_iff i).2 ⟨hready, henabled⟩
  refine ⟨⟨_, rfl, ?_⟩, fun hr hc hs => runs_messageData hl hr (by simp [MidiIn.begun, hr, hc]) hs⟩
  have hn := chanStatus_nibble c m
  have hb := messageNibble_bounds m
  have hx := State.midiByte_begins hl (b := chanStatus c m) (by omega) (by omega)
  have hseen : MidiIn.byteSeen { (s.midiIn i).byteSeen s.now false with
        running := some (chanStatus c m), collected := some ⟨chanStatus c m, []⟩, skip := .none } s.now false
      = { (s.midiIn i).byteSeen s.now false with
        running := some (chanStatus c m), collected := some ⟨chanStatus c m, []⟩, skip := .none } := by
    rw [MidiIn.byteSeen_parser, MidiIn.byteSeen_again]
  have hlive : (s.midiByte i (chanStatus c m)).inputLive i = true := by
    rw [hx]
    exact State.inputLive_setIn hl (MidiIn.byteSeen_settings _ _ _)
  have hsame : (s.midiByte i (chanStatus c m)).messageArrives i c m = s.messageArrives i c m := by
    obtain ⟨hready', henabled'⟩ := (State.inputLive_iff _ i).1 hlive
    rw [State.messageArrives_live c m hready henabled, State.messageArrives_live c m hready' henabled']
    simp only [State.messageSeen, hx, State.midiIn_setIn_same, State.now_setIn, hseen, State.setIn_setIn]
  rw [← hsame]
  exact runs_messageData hlive (by rw [hx, State.midiIn_setIn_same]) (by rw [hx, State.midiIn_setIn_same]; rfl)
    (by rw [hx, State.midiIn_setIn_same])

/-! ## Bytes that belong to no note (R40 to R44, R48) -/

/-- The sensing of an input that has seen a byte other than FEh (R48). -/
theorem MidiIn.byteSeen_false (x : MidiIn) (now : Stamp) : x.byteSeen now false =
    if x.sensing = .watched then { x with deadline := some (now + 300000#32) }
    else if x.sensing = .lost then { x with sensing := .unwatched } else x := by
  cases h : x.sensing <;> simp [MidiIn.byteSeen, h, stampAfter]

/-- The input has seen bytes, and waits for the rest of a system message with no running status. -/
def MidiIn.skipping (x : MidiIn) (k : Skip) : MidiIn := { x.clearParser with skip := k }

theorem MidiIn.skipping_byteSeen (x : MidiIn) (now : Stamp) (k : Skip) :
    ((x.byteSeen now false).skipping k).byteSeen now false = (x.byteSeen now false).skipping k :=
  (MidiIn.byteSeen_parser (x.byteSeen now false) now false none none k).trans (by rw [MidiIn.byteSeen_again]; rfl)

/-- In the microsecond of a system message, its input skips what is left of it (R44). -/
def State.skips (s : State) (i : InPort) (k : Skip) : State := s.setIn i (((s.midiIn i).byteSeen s.now false).skipping k)

theorem State.skips_live {s : State} {i : InPort} (h : s.inputLive i = true) (k : Skip) : (s.skips i k).inputLive i = true :=
  State.inputLive_setIn h (MidiIn.byteSeen_settings _ _ _)

theorem State.skips_seen (s : State) (i : InPort) (k : Skip) :
    ((s.skips i k).midiIn i).byteSeen (s.skips i k).now false = ((s.midiIn i).byteSeen s.now false).skipping k := by
  rw [State.skips, State.midiIn_setIn_same, State.now_setIn, MidiIn.skipping_byteSeen]

/-- What a system status byte leaves to be skipped (R41, R44). -/
def systemSkip (b : Byte) : Skip :=
  if b.toNat = 0xF0 then .sysex else if b.toNat = 0xF1 ∨ b.toNat = 0xF3 then .common 1
  else if b.toNat = 0xF2 then .common 2 else .none

/-- A system status byte begins its message, whatever was skipped before (R41, R44). -/
theorem State.midiByte_system {s : State} {i : InPort} {b : Byte} (h : s.inputLive i = true) (hlow : 0xF0 ≤ b.toNat)
    (hhigh : b.toNat < 0xF8) : s.midiByte i b = s.skips i (systemSkip b) := by
  rw [State.midiByte_status h (by omega) hhigh]
  exact congrArg _ (if_neg (Nat.not_lt.2 hlow))

theorem State.skips_midiByte_system {s : State} {i : InPort} {b : Byte} (j : Skip) (h : s.inputLive i = true)
    (hlow : 0xF0 ≤ b.toNat) (hhigh : b.toNat < 0xF8) : (s.skips i j).midiByte i b = s.skips i (systemSkip b) := by
  rw [State.midiByte_system (State.skips_live h j) hlow hhigh, State.skips, State.skips_seen, State.skips, State.setIn_setIn]
  rfl

/-- A data byte of a system message is skipped (R44). -/
theorem State.skips_midiByte_data {s : State} {i : InPort} {b : Byte} {j k : Skip} (h : s.inputLive i = true)
    (hb : b.toNat < 0x80) (hjk : ∀ x : MidiIn, (x.skipping j).takeData b = (x.skipping k, none)) :
    (s.skips i j).midiByte i b = s.skips i k := by
  rw [State.midiByte_data (State.skips_live h j) hb ((congrArg (MidiIn.takeData · b) (s.skips_seen i j)).trans (hjk _)),
    State.skips, State.skips, State.setIn_setIn]

theorem State.midiBytes_cons (s : State) (i : InPort) (b : Byte) (bs : List Byte) :
    s.midiBytes i (b :: bs) = (s.midiByte i b).midiBytes i bs := rfl

theorem byte_val7_lt (v : Val7) : (byte v.val).toNat < 0x80 := by rw [byte_val7]; exact v.isLt

/-- A system exclusive message leaves no trace in the parser (R44). -/
theorem State.midiBytes_exclusive {s : State} {i : InPort} (h : s.inputLive i = true) (d : List Val7) :
    s.midiBytes i (exclusiveBytes d) = s.skips i .none := by
  have hdata : ∀ d : List Val7, (s.skips i .sysex).midiBytes i (d.map (fun v => byte v.val) ++ [0xF7#8]) = s.skips i .none := by
    intro d
    induction d with
    | nil => exact State.skips_midiByte_system .sysex h (by decide) (by decide)
    | cons v r ih =>
      rw [List.map_cons, List.cons_append, State.midiBytes_cons,
        State.skips_midiByte_data h (byte_val7_lt v) (k := .sysex) (fun _ => rfl), ih]
  have hbegin : s.midiByte i 0xF0#8 = s.skips i .sysex := State.midiByte_system h (by decide) (by decide)
  rw [exclusiveBytes, List.cons_append, State.midiBytes_cons, hbegin, hdata]

/-- Nor does a system common message (R41, R44). -/
theorem State.midiBytes_common {s : State} {i : InPort} (h : s.inputLive i = true) (m : SysCommon) :
    s.midiBytes i (commonBytes m) = s.skips i .none := by
  have hone : ∀ v : Val7, (s.skips i (.common 1)).midiByte i (byte v.val) = s.skips i .none := fun v =>
    State.skips_midiByte_data h (byte_val7_lt v) fun _ => rfl
  have htwo : ∀ v : Val7, (s.skips i (.common 2)).midiByte i (byte v.val) = s.skips i (.common 1) := fun v =>
    State.skips_midiByte_data h (byte_val7_lt v) fun _ => rfl
  have hbegin : ∀ b : Byte, 0xF0 ≤ b.toNat → b.toNat < 0xF8 → s.midiByte i b = s.skips i (systemSkip b) := fun _ hlow hhigh =>
    State.midiByte_system h hlow hhigh
  cases m with
  | f1 d => exact (congrArg (State.midiByte · i _) (hbegin 0xF1#8 (by decide) (by decide))).trans (hone d)
  | f2 d e =>
    exact (congrArg (fun u : State => (u.midiByte i _).midiByte i _) (hbegin 0xF2#8 (by decide) (by decide))).trans
      ((congrArg (State.midiByte · i _) (htwo d)).trans (hone e))
  | f3 d => exact (congrArg (State.midiByte · i _) (hbegin 0xF3#8 (by decide) (by decide))).trans (hone d)
  | f4 | f5 | f6 | f7 => exact hbegin _ (by decide) (by decide)

/-- A message that its handling passes over is only seen, whether or not its channel passes the filter (R45). -/
theorem State.messageArrives_unhandled {s : State} {i : InPort} {c : Chan} {m : ChanMsg} (hr : s.ready = true)
    (he : (s.midiIn i).settings.enabled = true) (hm : ∀ u : State, u.handleMessage i c m = u) :
    s.messageArrives i c m = s.messageSeen i (chanStatus c m) := by
  rw [State.messageArrives_live c m hr he, State.completeMessage]
  split
  · exact hm _
  · split
    · exact hm _
    · rfl

theorem State.handleMessage_control_high (s : State) (i : InPort) (c : Chan) {n v : Val7} (hn : 120 ≤ n.val) (h : n.val ≠ 123) :
    s.handleMessage i c (.control n v) = s := by
  have h64 : n.val ≠ 64 := by omega
  simp only [State.handleMessage, if_neg h64, if_neg h, if_pos hn]

/-- The loss of a watched input: the parser, the sensing and the pedals, the releases, and then the fault (R48, R97, R117). -/
theorem State.sensingLoss_watched {s : State} {i : InPort} (h : (s.midiIn i).sensing = .watched) :
    s.sensingLoss i = (State.inputLostEvent (s.setIn i
      { (s.midiIn i).clearParser with sensing := .lost, deadline := none, sustain := 0#16 }) i).report
        .sensingLost (some (.input i)) := if_pos h

/-- Settles O58: each byte and message by the parser's rule for it; the loss by its releases, one entry at a time. -/
theorem inputBytesBesidesNotes : Obligations.InputBytesBesidesNotes := by
  intro s i x seen clear
  have hseen : x.byteSeen s.now false = seen := by
    rw [MidiIn.byteSeen_false]
    simp only [seen]
    cases h : x.sensing <;> rfl
  have hskips : s.skips i .none = s.setIn i (clear seen) := by rw [State.skips, hseen]; rfl
  refine ⟨fun ⟨hr, he⟩ => ?_, fun hdead => ?_, fun h => ?_, fun h hno => ?_, fun h => ?_, fun u p rel => ?_⟩
  · have hl := (s.inputLive_iff i).2 ⟨hr, he⟩
    have hmsg : ∀ st : Byte, s.messageSeen i st = s.setIn i { seen with running := some st, collected := none, skip := .none } :=
      fun st => by rw [State.messageSeen, hseen]
    refine ⟨?_, fun b => ?_, fun d => ?_, fun m => ?_, ?_, fun c m hm => ?_, fun b hb hrun hc hk => ?_, fun b hlow hhigh => ?_⟩
    · exact congrArg _ (State.midiByte_realTime hl (by decide))
    · have hfe : 0xF8 ≤ (realTimeByte b).toNat ∧ decide (realTimeByte b = 0xFE#8) = false := by cases b <;> decide
      refine congrArg _ ((State.midiByte_realTime hl hfe.1).trans ?_)
      rw [hfe.2, State.byteSeen, hseen]
    · exact congrArg _ ((State.midiBytes_exclusive hl d).trans hskips)
    · exact congrArg _ ((State.midiBytes_common hl m).trans hskips)
    · refine congrArg _ ((if_pos hl).trans ?_)
      simp only [State.byteSeen, State.midiIn_setIn_same, State.setIn_setIn]
      rw [hseen]
      rfl
    · refine congrArg Host.Outcome.next (Eq.trans ?_ (hmsg _))
      rcases hm with ⟨k, v, rfl⟩ | ⟨n, v, rfl, hn, h123⟩ | ⟨d, hf, hd⟩
      · exact State.messageArrives_unhandled hr he fun _ => rfl
      · exact State.messageArrives_unhandled hr he fun u => u.handleMessage_control_high i c hn h123
      · exact State.messageArrives_blocked m hr he hf hd
    · have htake : (x.byteSeen s.now false).takeData b = (x.byteSeen s.now false, none) := by
        simp only [MidiIn.takeData, MidiIn.byteSeen_skip, MidiIn.byteSeen_collected, MidiIn.byteSeen_running, hk, hc, hrun]
        rfl
      exact congrArg _ ((State.midiByte_data hl hb htake).trans (by rw [hseen]))
    · exact congrArg _ ((State.midiByte_begins hl hlow hhigh).trans (by rw [hseen]))
  · have hl : s.inputLive i = false := by
      rw [← Bool.not_eq_true, State.inputLive_iff]
      rintro ⟨hr, he⟩
      rcases hdead with h | h
      · exact absurd hr (by simp [h])
      · exact absurd he (by simp [x, h])
    have hbytes : ∀ bs, s.midiBytes i bs = s := fun bs => by
      induction bs with
      | nil => rfl
      | cons b r ih => rw [State.midiBytes_cons, State.midiByte_dead hl, ih]
    exact ⟨congrArg _ (State.midiByte_dead hl _), fun b => congrArg _ (State.midiByte_dead hl _), fun d => congrArg _ (hbytes _),
      fun m => congrArg _ (hbytes _), congrArg _ (if_neg (by simp [hl])),
      fun c m => congrArg _ (State.messageArrives_dead c m (by rw [← State.inputLive_iff]; simp [hl])),
      fun b => congrArg _ (State.midiByte_dead hl b)⟩
  · exact congrArg _ (if_neg h)
  · refine congrArg _ ((State.sensingLoss_watched h).trans ?_)
    rw [State.inputLostEvent, State.releaseAll_none _ (List.find?_eq_none.2 fun e he => by simpa using hno e he)]
    rfl
  · exact congrArg _ (State.sensingLoss_watched h)
  · exact ⟨State.releaseAll_none rel, fun e he => State.releaseAll_some rel he⟩

end Sys2Proof.Machine
end

section
/-! PROOFS. What ends held notes (R46, R47, R81, R91 to R97): the messages that an input passes on, the entry that each finds, and
its targets released. -/

namespace Sys2Proof.Machine

/-! ## Messages that an input passes on -/

/-- The input takes bytes, and the channel passes its filter (R45, R49). -/
structure State.Passes (s : State) (i : InPort) (c : Chan) : Prop where
  ready : s.ready = true
  enabled : (s.midiIn i).settings.enabled = true
  filter : ∀ d, (s.midiIn i).settings.filter = some d → d = c

theorem State.Passes.arrives {s : State} {i : InPort} {c : Chan} (h : s.Passes i c) (m : ChanMsg) :
    s.messageArrives i c m = (s.messageSeen i (chanStatus c m)).handleMessage i c m :=
  State.messageArrives_passed m h.ready h.enabled h.filter

theorem State.messageSeen_pedal (s : State) (i : InPort) (c : Chan) (b : Byte) :
    ((s.messageSeen i b).midiIn i).pedal c = (s.midiIn i).sustain.getLsbD c.val :=
  congrArg (BitVec.getLsbD · c.val) (s.messageSeen_sustain i b)

section
variable {s : State} {i : InPort} {c : Chan} (h : s.Passes i c)
include h

theorem State.Passes.noteOff (key rel : Val7) : exec (.noteOff i c key rel) s =
    .next ((s.messageSeen i (byte (0x80 + c.val))).noteOffEvent i c key.val rel.val ((s.midiIn i).sustain.getLsbD c.val)) := by
  rw [← s.messageSeen_pedal i c (byte (0x80 + c.val))]
  exact congrArg _ (h.arrives (.noteOff key rel))

theorem State.Passes.noteOn (key : Val7) {vel : Val7} (hv : 1 ≤ vel.val) : exec (.noteOn i c key vel) s =
    .next ((s.messageSeen i (byte (0x90 + c.val))).noteOnEvent i c key.val vel.val) :=
  congrArg _ ((h.arrives (.noteOn key vel)).trans (if_neg (by omega)))

theorem State.Passes.sustainChange (v : Val7) : exec (.sustainChange i c v) s =
    .next ((s.messageSeen i (byte (0xB0 + c.val))).sustainMessage i c v.val) :=
  congrArg _ (h.arrives (.control 64 v))

theorem State.Passes.allNotesOff (v : Val7) : exec (.allNotesOff i c v) s =
    .next ((s.messageSeen i (byte (0xB0 + c.val))).allNotesOffEvent i c) :=
  congrArg _ (h.arrives (.control 123 v))

end

/-! ## The entry of a key -/

theorem HeldEntry.isFor_fun (i : InPort) (c : Chan) (key : Nat) :
    (fun e : HeldEntry => e.isFor i c key) = fun e => decide (e.input = i ∧ e.chan = c ∧ e.key = key) := by
  funext e
  rw [Bool.eq_iff_iff, decide_eq_true_iff]
  exact e.isFor_iff i c key

/-- The oldest entry for a key, with entries of other keys alone before it. -/
theorem find_isFor {before after : List HeldEntry} {e : HeldEntry} {i : InPort} {c : Chan} {key : Nat}
    (hb : ∀ d ∈ before, ¬(d.input = i ∧ d.chan = c ∧ d.key = key)) (he : e.input = i ∧ e.chan = c ∧ e.key = key) :
    (before ++ e :: after).find? (fun d => decide (d.input = i ∧ d.chan = c ∧ d.key = key)) = some e ∧ e ∉ before :=
  ⟨find_hit (fun d hd => decide_eq_false (hb d hd)) (decide_eq_true he), fun hm => hb e hm he⟩

theorem find_isFor_none {held : List HeldEntry} {i : InPort} {c : Chan} {key : Nat}
    (h : ∀ e ∈ held, ¬(e.input = i ∧ e.chan = c ∧ e.key = key)) :
    held.find? (fun d => decide (d.input = i ∧ d.chan = c ∧ d.key = key)) = none :=
  List.find?_eq_none.2 fun e he => by simpa using h e he

section
variable (s : State) {i : InPort} {c : Chan} {key : Nat}

theorem State.noteOffEvent_none (h : s.lr.held.find? (fun d => decide (d.input = i ∧ d.chan = c ∧ d.key = key)) = none)
    (rel : Nat) (pedal : Bool) : s.noteOffEvent i c key rel pedal = s := by
  rw [← HeldEntry.isFor_fun] at h
  simp only [State.noteOffEvent, h]

theorem State.noteOffEvent_held {e : HeldEntry}
    (h : s.lr.held.find? (fun d => decide (d.input = i ∧ d.chan = c ∧ d.key = key)) = some e) (he : e.state = .held)
    (rel : Nat) (pedal : Bool) :
    s.noteOffEvent i c key rel pedal = if pedal then s.sustainEntry e rel else s.releaseEntry e rel := by
  rw [← HeldEntry.isFor_fun] at h
  simp only [State.noteOffEvent, h, he]

theorem State.noteOffEvent_sustained {e : HeldEntry} {n : Nat}
    (h : s.lr.held.find? (fun d => decide (d.input = i ∧ d.chan = c ∧ d.key = key)) = some e) (he : e.state = .sustained n)
    (rel : Nat) (pedal : Bool) : s.noteOffEvent i c key rel pedal = s := by
  rw [← HeldEntry.isFor_fun] at h
  simp only [State.noteOffEvent, h, he]

theorem State.retrigger_none (h : s.lr.held.find? (fun d => decide (d.input = i ∧ d.chan = c ∧ d.key = key)) = none) :
    s.retrigger i c key = s := by
  rw [← HeldEntry.isFor_fun] at h
  simp only [State.retrigger, h]

theorem State.retrigger_some {e : HeldEntry}
    (h : s.lr.held.find? (fun d => decide (d.input = i ∧ d.chan = c ∧ d.key = key)) = some e) :
    s.retrigger i c key = s.releaseEntry e 64 := by
  rw [← HeldEntry.isFor_fun] at h
  simp only [State.retrigger, h]

/-- A note-on that no layer takes ends the old note of its key and does nothing more (R81, R82). -/
theorem State.noteOnEvent_no_layers {vel : Nat} (h : s.lr.live.layers = []) :
    s.noteOnEvent i c key vel = s.retrigger i c key := by
  have hlive : (s.retrigger i c key).lr.live = s.lr.live := by
    unfold State.retrigger
    split
    · exact (s.releaseEntry_kept _ _).live
    · rfl
  have hnone : (s.retrigger i c key).candidates i c key vel = [] := by rw [State.candidates, hlive, h]; rfl
  simp only [State.noteOnEvent, hnone]
  rfl

end

/-! ## The pedal (R46, R93 to R95) -/

/-- An entry of IGNORE targets alone is released under a held pedal as without it (R93). -/
theorem State.sustainEntry_ignore {s : State} {e : HeldEntry} (h : ∀ t ∈ e.targets, t.sustain = .ignore) (rel : Nat) :
    s.sustainEntry e rel = s.releaseEntry e rel := by
  have hkeep : e.targets.filter (fun t => decide (t.sustain = .follow)) = [] :=
    List.filter_eq_nil_iff.2 fun t ht => by simp [h t ht]
  have hgo : e.targets.filter (fun t => decide (t.sustain = .ignore)) = e.targets :=
    List.filter_eq_self.2 fun t ht => decide_eq_true (h t ht)
  simp only [State.sustainEntry, hkeep, hgo]
  rfl

/-- An entry of FOLLOW targets alone becomes SUSTAINED in its place, and nothing is released (R93). -/
theorem State.sustainEntry_follow {s : State} {e : HeldEntry} (hne : e.targets ≠ []) (h : ∀ t ∈ e.targets, t.sustain = .follow)
    (rel : Nat) : s.sustainEntry e rel =
      { s with lr := { s.lr with held := s.lr.held.map (fun d => if d = e then { e with state := .sustained rel } else d) } } := by
  have hkeep : e.targets.filter (fun t => decide (t.sustain = .follow)) = e.targets :=
    List.filter_eq_self.2 fun t ht => decide_eq_true (h t ht)
  have hgo : e.targets.filter (fun t => decide (t.sustain = .ignore)) = [] :=
    List.filter_eq_nil_iff.2 fun t ht => by simp [h t ht]
  have hfull : e.targets.isEmpty = false := by simpa using hne
  simp only [State.sustainEntry, hkeep, hgo, hfull, Bool.false_eq_true, if_false]
  rfl

/-- One entry of a list replaced in its place. -/
theorem map_replace_hit {before after : List HeldEntry} {e f : HeldEntry} (hb : e ∉ before) (ha : e ∉ after) :
    (before ++ e :: after).map (fun d => if d = e then f else d) = before ++ f :: after := by
  have hid : ∀ l : List HeldEntry, e ∉ l → l.map (fun d => if d = e then f else d) = l := fun l hl =>
    (List.map_congr_left fun d hd => if_neg fun he : d = e => hl (he ▸ hd)).trans (List.map_id' l)
  rw [List.map_append, List.map_cons, if_pos rfl, hid before hb, hid after ha]

theorem HeldState.isSustained_iff (e : HeldState) : e.isSustained = true ↔ e ≠ .held := by
  cases e <;> simp [HeldState.isSustained]

theorem HeldEntry.isSustained_fun : (fun e : HeldEntry => e.state.isSustained) = fun e => decide (e.state ≠ .held) := by
  funext e
  rw [Bool.eq_iff_iff, decide_eq_true_iff, HeldState.isSustained_iff]

section
variable (s : State) {i : InPort} {c : Chan} {v : Nat}

theorem State.sustainMessage_same (h : (s.midiIn i).pedal c = decide (64 ≤ v)) : s.sustainMessage i c v = s := if_pos h

theorem State.sustainMessage_down (h : (s.midiIn i).pedal c = false) (hv : 64 ≤ v) : s.sustainMessage i c v =
    s.setIn i { s.midiIn i with sustain := (s.midiIn i).sustain ||| (1#16 <<< c.val) } := by
  simp [State.sustainMessage, h, hv, State.sustainEvent, setPedal]

/-- The pedal goes up: every SUSTAINED entry of the input and channel is released (R95). -/
theorem State.sustainMessage_up (h : (s.midiIn i).pedal c = true) (hv : v < 64) : s.sustainMessage i c v =
    (s.setIn i { s.midiIn i with sustain := (s.midiIn i).sustain &&& ~~~(1#16 <<< c.val) }).releaseAll
      (fun e => decide (e.input = i ∧ e.chan = c ∧ e.state ≠ .held)) HeldEntry.recordedRel := by
  have hp : (fun e : HeldEntry => decide (e.input = i) && decide (e.chan = c) && e.state.isSustained) =
      fun e => decide (e.input = i ∧ e.chan = c ∧ e.state ≠ .held) := by
    funext e
    rw [Bool.eq_iff_iff]
    simp only [Bool.and_eq_true, decide_eq_true_eq, HeldState.isSustained_iff, and_assoc]
  have hdown : decide (64 ≤ v) = false := by simpa using hv
  simp only [State.sustainMessage, h, hdown, Bool.true_eq_false, if_false, State.sustainEvent, Bool.false_eq_true, hp]
  rfl

theorem State.allNotesOffEvent_eq : s.allNotesOffEvent i c =
    s.releaseAll (fun e => decide (e.input = i ∧ e.chan = c)) (fun _ => 64) := by
  simp only [State.allNotesOffEvent, Bool.decide_and]

end

/-- The one entry of a table is released where it satisfies the test. -/
theorem State.releaseAll_only (s : State) {e : HeldEntry} (h : s.lr.held = [e]) {p : HeldEntry → Bool} (hp : p e = true)
    (rel : HeldEntry → Nat) : s.releaseAll p rel = s.releaseEntry e (rel e) := by
  have hlen := s.releaseEntry_length (e := e) (by rw [h]; exact List.mem_singleton_self e) (rel e)
  have hnil : (s.releaseEntry e (rel e)).lr.held = [] := List.eq_nil_of_length_eq_zero (by simpa [h] using hlen)
  rw [State.releaseAll_some rel (e := e) (by rw [h]; exact List.find?_cons_of_pos hp),
    State.releaseAll_none rel (by rw [hnil]; rfl)]

/-- The one target of an entry, on an output that is not DISABLED, is released with one note-off there (R52, R91). -/
theorem State.releaseEntry_out (u : State) {before after : List HeldEntry} {e : HeldEntry} {t : Target} {o : OutPort}
    (hu : u.lr.held = before ++ e :: after) (hne : e ∉ before) (ht : e.targets = [t]) (ho : t.dest = .out o)
    (hm : (u.midiOut o).mode ≠ .disabled) (rel : Nat) :
    u.releaseEntry e rel = State.setOut { u with lr := { u.lr with held := before ++ after } } o
      (MidiOut.kick { u.midiOut o with
        sounding := (u.midiOut o).sounding - 1
        queue := (u.midiOut o).queue ++ [⟨.noteOff t.chan t.key rel, false⟩] } u.now) := by
  rw [State.releaseEntry_single u e rel ht ho, hu, erase_hit hne]
  exact if_neg hm

/-- Settles O57: on a live input each message by the entry it finds; the clauses for one target are those of an entry with one
target on an output. -/
theorem releasesEndTheirNotes : Obligations.ReleasesEndTheirNotes := by
  intro s i c key seen
  refine ⟨fun hdead => ?_, fun d hr he hf hd => ?_, fun hr he hf => ?_⟩
  · have hnot : ¬(s.ready = true ∧ (s.midiIn i).settings.enabled = true) := by
      rintro ⟨hr, he⟩
      rcases hdead with h | h <;> simp_all
    exact ⟨fun _ => congrArg _ (State.messageArrives_dead c _ hnot), fun _ => congrArg _ (State.messageArrives_dead c _ hnot),
      fun _ => congrArg _ (State.messageArrives_dead c _ hnot)⟩
  · exact ⟨fun _ => congrArg _ (State.messageArrives_blocked _ hr he hf hd),
      fun _ => congrArg _ (State.messageArrives_blocked _ hr he hf hd),
      fun _ => congrArg _ (State.messageArrives_blocked _ hr he hf hd)⟩
  · have hin : s.Passes i c := ⟨hr, he, hf⟩
    intro pedal off keep
    have hpedal : ((seen 0xB0).midiIn i).pedal c = pedal := s.messageSeen_pedal i c _
    have hsustain : ((seen 0xB0).midiIn i).sustain = (s.midiIn i).sustain := s.messageSeen_sustain i _
    refine ⟨fun rel hno => ?_, fun before after e t o hs hb hi hc hk ht ho hm => ?_, fun v hv hp => ?_, fun v hp => ?_, ?_⟩
    · exact (hin.noteOff key rel).trans (congrArg _ ((seen 0x80).noteOffEvent_none (find_isFor_none hno) _ _))
    · obtain ⟨hfind, hne⟩ := find_isFor (after := after) hb ⟨hi, hc, hk⟩
      rw [← hs] at hfind
      refine ⟨fun rel hheld hp => ?_, fun rel hheld hp hfollow hafter => ?_, fun rel n hsus => ?_, fun vel hv hl => ?_,
        fun v hbef haft => ?_, fun v hbef haft hv hp => ?_⟩
      · have hrelease : (if pedal then (seen 0x80).sustainEntry e rel.val else (seen 0x80).releaseEntry e rel.val) =
            (seen 0x80).releaseEntry e rel.val := by
          rcases hp with hp | hp
          · rw [hp]; rfl
          · rw [State.sustainEntry_ignore (by simpa [ht] using hp), ite_self]
        exact (hin.noteOff key rel).trans (congrArg _ (((seen 0x80).noteOffEvent_held hfind hheld _ _).trans
          (hrelease.trans ((seen 0x80).releaseEntry_out hs hne ht ho hm _))))
      · have hreplace : s.lr.held.map (fun d => if d = e then { e with state := .sustained rel.val } else d) =
            before ++ { e with state := .sustained rel.val } :: after := by rw [hs, map_replace_hit hne hafter]
        have hstay := State.sustainEntry_follow (s := seen 0x80) (e := e) (by simp [ht]) (by simpa [ht] using hfollow) rel.val
        exact (hin.noteOff key rel).trans (congrArg _ (((seen 0x80).noteOffEvent_held hfind hheld _ _).trans
          ((if_pos hp).trans (hstay.trans (congrArg (keep (seen 0x80)) hreplace)))))
      · exact (hin.noteOff key rel).trans (congrArg _ ((seen 0x80).noteOffEvent_sustained hfind hsus _ _))
      · exact (hin.noteOn key hv).trans (congrArg _ (((seen 0x90).noteOnEvent_no_layers hl).trans
          (((seen 0x90).retrigger_some hfind).trans ((seen 0x90).releaseEntry_out hs hne ht ho hm _))))
      · subst hbef haft
        exact (hin.allNotesOff v).trans (congrArg _ ((seen 0xB0).allNotesOffEvent_eq.trans
          (((seen 0xB0).releaseAll_only hs (by simp [hi, hc]) _).trans ((seen 0xB0).releaseEntry_out hs hne ht ho hm _))))
      · subst hbef haft
        intro up
        have hup : exec (.sustainChange i c v) s =
            .next (up.releaseAll (fun e => decide (e.input = i ∧ e.chan = c ∧ e.state ≠ .held)) HeldEntry.recordedRel) := by
          rw [hin.sustainChange, (seen 0xB0).sustainMessage_up (hpedal.trans hp) hv, hsustain]
        rw [hup]
        cases hstate : e.state with
        | held =>
          have hnone : s.lr.held.find? (fun e => decide (e.input = i ∧ e.chan = c ∧ e.state ≠ .held)) = none := by
            simp [hs, hstate]
          exact congrArg _ (State.releaseAll_none _ hnone)
        | sustained n =>
          have hrec : e.recordedRel = n := by rw [HeldEntry.recordedRel, hstate]
          refine congrArg _ ((up.releaseAll_only hs (by simp [hi, hc, hstate]) _).trans ?_)
          rw [hrec]
          exact up.releaseEntry_out hs hne ht ho hm n
    · rw [hin.sustainChange, (seen 0xB0).sustainMessage_down (hpedal.trans hp) hv, hsustain]
    · exact (hin.sustainChange v).trans (congrArg _ ((seen 0xB0).sustainMessage_same (hpedal.trans hp)))
    · intro ends table removed
      have hends : ∀ pend rel, ends pend rel = fun u t => u.releaseTarget pend rel t := fun pend rel => by
        funext u t
        simp only [ends, State.releaseTarget]
        cases t.dest <;> rfl
      have hremoved : ∀ u e rel, removed u e rel = u.releaseEntry e rel := fun u e rel => by
        simp only [removed, hends]
        rfl
      refine ⟨fun u p rel => ⟨State.releaseAll_none rel, fun e he => ?_⟩, fun e rel hfind hheld => ⟨fun hp => ?_, fun hp => ?_⟩,
        fun e rel n hfind hsus => ?_, fun v => ?_, fun v hv hp => ?_⟩
      · rw [hremoved, State.releaseAll_some rel he]
      · rw [hremoved]
        exact (hin.noteOff key rel).trans (congrArg _ (((seen 0x80).noteOffEvent_held hfind hheld _ _).trans
          (if_neg (Bool.eq_false_iff.1 hp))))
      · intro stay go
        rw [hends]
        refine (hin.noteOff key rel).trans (congrArg _ (((seen 0x80).noteOffEvent_held hfind hheld _ _).trans ((if_pos hp).trans ?_)))
        simp only [State.sustainEntry, List.isEmpty_iff]
        rfl
      · exact (hin.noteOff key rel).trans (congrArg _ ((seen 0x80).noteOffEvent_sustained hfind hsus _ _))
      · exact (hin.allNotesOff v).trans (congrArg _ (seen 0xB0).allNotesOffEvent_eq)
      · rw [hin.sustainChange, (seen 0xB0).sustainMessage_up (hpedal.trans hp) hv, hsustain]
        refine congrArg (fun f => Host.Outcome.next (State.releaseAll _ _ f)) (funext fun e => ?_)
        cases h : e.state <;> simp only [HeldEntry.recordedRel, h]

end Sys2Proof.Machine
end

section
/-! PROOFS. A note-on (R81 to R90): the candidates that the live layers give, the room that is made for the entry, and the
candidates' offers. -/

namespace Sys2Proof.Machine

/-! ## Candidates (R82, R83) -/

theorem Layer.matchesNote_iff (y : Layer) (i : InPort) (c : Chan) (key vel : Nat) : y.matchesNote i c key vel = true ↔
    y.input = i ∧ (∀ d, y.chan = some d → d = c) ∧ y.zoneLow ≤ key ∧ key ≤ y.zoneHigh ∧ y.vmin ≤ vel ∧ vel ≤ y.vmax ∧
      0 ≤ (key : Int) + y.transpose ∧ (key : Int) + y.transpose ≤ 127 := by
  have hout : (y.outKey key).isSome = true ↔ 0 ≤ (key : Int) + y.transpose ∧ (key : Int) + y.transpose ≤ 127 := by
    simp only [Layer.outKey]
    split <;> simp_all
  simp only [Layer.matchesNote, Bool.and_eq_true, decide_eq_true_eq, hout, Layer.hears_iff, and_assoc]

/-- The candidate of a layer that takes a note-on (R82 to R84). -/
def Layer.candidate (y : Layer) (key vel : Nat) : Target :=
  { dest := y.dest, chan := y.outChan, key := ((key : Int) + y.transpose).toNat, vel := y.velocity vel, sustain := y.sustain }

/-- The candidate as the model forms it, from an out key that is there (R82). -/
theorem Layer.candidate_eq {y : Layer} {i : InPort} {c : Chan} {key vel : Nat} (h : y.matchesNote i c key vel = true) :
    Target.mk y.dest y.outChan ((y.outKey key).getD 0) (y.velocity vel) y.sustain = y.candidate key vel := by
  obtain ⟨-, -, -, -, -, -, hkey⟩ := (y.matchesNote_iff i c key vel).1 h
  simp only [Layer.candidate, Layer.outKey, if_pos hkey, Option.getD_some]

/-- The candidates after those of one more layer (R83). -/
def Layer.addCandidate (i : InPort) (c : Chan) (key vel : Nat) (acc : List Target) (y : Layer) : List Target :=
  if y.matchesNote i c key vel = true ∧ acc.length < 4 ∧ acc.any (Target.sameNote (y.candidate key vel)) = false then
    acc ++ [y.candidate key vel]
  else acc

/-- Once there are four candidates the layers that are left give none. -/
theorem addCandidate_full {i : InPort} {c : Chan} {key vel : Nat} {acc : List Target} (h : 4 ≤ acc.length) (ys : List Layer) :
    ys.foldl (Layer.addCandidate i c key vel) acc = acc := by
  induction ys with
  | nil => rfl
  | cons y r ih => rw [List.foldl_cons, Layer.addCandidate, if_neg (fun k => absurd k.2.1 (Nat.not_lt.2 h)), ih]

theorem candidatesFrom_eq (i : InPort) (c : Chan) (key vel : Nat) (ys : List Layer) (acc : List Target) :
    candidatesFrom i c key vel ys acc = ys.foldl (Layer.addCandidate i c key vel) acc := by
  induction ys generalizing acc with
  | nil => rfl
  | cons y r ih =>
    rw [candidatesFrom]
    by_cases hfull : 4 ≤ acc.length
    · rw [if_pos hfull, addCandidate_full hfull]
    · rw [if_neg hfull, List.foldl_cons, Layer.addCandidate]
      by_cases hm : y.matchesNote i c key vel = true
      · simp only [Layer.candidate_eq hm, hm, Nat.not_le.1 hfull, true_and, ih]
        by_cases ha : acc.any (Target.sameNote (y.candidate key vel)) = true
        · simp only [ha, if_true, Bool.true_eq_false, if_false]
        · simp only [Bool.eq_false_iff.2 ha, Bool.false_eq_true, if_false, if_true]
      · simp only [Bool.eq_false_iff.2 hm, Bool.false_eq_true, false_and, if_false, ih]

theorem State.candidates_eq (s : State) (i : InPort) (c : Chan) (key vel : Nat) :
    s.candidates i c key vel = s.lr.live.layers.foldl (Layer.addCandidate i c key vel) [] :=
  candidatesFrom_eq i c key vel _ []

/-! ## The old note of the key, and room for the new entry (R81, R87) -/

theorem State.retrigger_live (s : State) (i : InPort) (c : Chan) (key : Nat) : (s.retrigger i c key).lr.live = s.lr.live := by
  unfold State.retrigger
  split
  · exact (s.releaseEntry_kept _ _).live
  · rfl

/-- A note-on with the candidates that the live map gives it. -/
theorem State.noteOnEvent_eq (s : State) (i : InPort) (c : Chan) (key vel : Nat) : s.noteOnEvent i c key vel =
    let ts := s.lr.live.layers.foldl (Layer.addCandidate i c key vel) []
    if ts = [] then s.retrigger i c key else ((s.retrigger i c key).steal).sound i c key ts := by
  have hts : (s.retrigger i c key).candidates i c key vel = s.lr.live.layers.foldl (Layer.addCandidate i c key vel) [] := by
    rw [State.candidates_eq, State.retrigger_live]
  simp only [State.noteOnEvent, hts, List.isEmpty_iff]

theorem State.steal_room {s : State} (h : s.lr.held.length < 128) : s.steal = s := if_pos h

/-- With the table full the oldest SUSTAINED entry makes room, else the oldest one (R87). -/
theorem State.steal_eq (s : State) : s.steal =
    if s.lr.held.length < 128 then s
    else match s.lr.held.find? (fun e => decide (e.state ≠ .held)) with
      | some e => (s.releaseEntry e 64).report .stealSustained (some (.input e.input))
      | none => match s.lr.held.head? with
        | some e => (s.releaseEntry e 64).report .stealHeld (some (.input e.input))
        | none => s := by
  refine if_congr Iff.rfl rfl ?_
  rw [HeldEntry.isSustained_fun]
  cases s.lr.held.find? (fun e => decide (e.state ≠ .held)) with
  | some e => rfl
  | none => cases s.lr.held <;> rfl

/-! ## Offers (R88 to R90) -/

theorem offerCandidate_out (a : NoteOffers) {t : Target} {o : OutPort} (h : t.dest = .out o) : offerCandidate a t =
    if (a.state.midiOut o).mode ≠ .enabled then a
    else if 64 ≤ (a.state.midiOut o).sounding then { a with state := a.state.report .voiceCap (some (.output o)) }
    else if 64 ≤ (a.state.midiOut o).queue.length then { a with state := a.state.report .full (some (.output o)) }
    else { a with
      state := a.state.setOut o (MidiOut.kick { a.state.midiOut o with
        sounding := (a.state.midiOut o).sounding + 1
        queue := (a.state.midiOut o).queue ++ [⟨.noteOn t.chan t.key t.vel, false⟩] } a.state.now)
      targets := a.targets ++ [t] } := by
  by_cases hm : (a.state.midiOut o).mode = .enabled
  · rw [if_neg (not_not.2 hm)]
    simp only [offerCandidate, h, State.offerNoteOn_enabled hm]
    by_cases hs : 64 ≤ (a.state.midiOut o).sounding
    · simp only [if_pos hs]
    · by_cases hq : 64 ≤ (a.state.midiOut o).queue.length
      · simp only [if_neg hs, if_pos hq]
      · simp only [if_neg hs, if_neg hq]
        rfl
  · simp only [offerCandidate, h, (State.offers_discarded hm).1, if_pos hm]

theorem offerCandidate_sound (a : NoteOffers) {t : Target} (h : t.dest = .sound) : offerCandidate a t =
    let r := a.state.mirrorLive { replay := false, chan := t.chan, kind := .noteOn t.key t.vel }
    { state := r.1, targets := a.targets ++ [t], pend := ⟨a.pend.a || r.2.a, a.pend.b || r.2.b⟩ } := by
  simp only [offerCandidate, h]

theorem State.sound_offers (s : State) (i : InPort) (c : Chan) (key : Nat) (ts : List Target) : s.sound i c key ts =
    let a := ts.foldl offerCandidate s.noOffers
    if a.targets = [] then a.state
    else { a.state with lr := { a.state.lr with held := a.state.lr.held ++
      [{ input := i, chan := c, key := key, state := .held, targets := a.targets, pend := a.pend }] } } := by
  simp only [State.sound, List.isEmpty_iff]
  rfl

/-- A single candidate that is not recorded leaves no entry (R90). -/
theorem State.sound_unrecorded {s v : State} {t : Target} {p : PerStation Bool} (i : InPort) (c : Chan) (key : Nat)
    (h : offerCandidate s.noOffers t = ⟨v, [], p⟩) : s.sound i c key [t] = v := by
  rw [State.sound_offers, List.foldl_cons, List.foldl_nil, h]
  rfl

/-- A single candidate that is recorded stands at the end of the table (R90). -/
theorem State.sound_recorded {s v : State} {t : Target} {p : PerStation Bool} (i : InPort) (c : Chan) (key : Nat)
    (h : offerCandidate s.noOffers t = ⟨v, [t], p⟩) : s.sound i c key [t] =
      { v with lr := { v.lr with held := v.lr.held ++
        [{ input := i, chan := c, key := key, state := .held, targets := [t], pend := p }] } } := by
  rw [State.sound_offers, List.foldl_cons, List.foldl_nil, h]
  rfl

/-- With both stations DOWN or ABSENT nobody hears an EVENT (R169). -/
theorem State.mirrorLive_unheard {s : State} (h : ∀ z, (s.station z).state = .down ∨ (s.station z).state = .absent) (e : Event) :
    s.mirrorLive e = (s, ⟨false, false⟩) := by
  have hno : ∀ z, s.hears z = false := fun z => by
    rw [State.hears]
    rcases h z with k | k <;> rw [k]
  simp only [State.mirrorLive, hno, State.mirror, State.admitEvent, Bool.false_and, Bool.or_self, Bool.false_eq_true, if_false]

/-- The note-on of a key with no entry, with room in the table and one live layer. -/
theorem State.noteOnEvent_one {s : State} {i : InPort} {c : Chan} {key vel : Nat} {y : Layer} (hl : s.lr.live.layers = [y])
    (hno : ∀ e ∈ s.lr.held, ¬(e.input = i ∧ e.chan = c ∧ e.key = key)) (hroom : s.lr.held.length < 128) :
    s.noteOnEvent i c key vel = if y.matchesNote i c key vel = true then s.sound i c key [y.candidate key vel] else s := by
  have hts : [y].foldl (Layer.addCandidate i c key vel) [] =
      if y.matchesNote i c key vel = true then [y.candidate key vel] else [] := by
    simp [Layer.addCandidate]
  rw [State.noteOnEvent_eq, hl, hts, State.retrigger_none s (find_isFor_none hno), State.steal_room hroom]
  by_cases hm : y.matchesNote i c key vel = true
  · simp only [if_pos hm, List.cons_ne_nil, if_false]
  · simp only [if_neg hm, if_true]

/-- A layer's channel, if it names one, is the message's (R82). -/
theorem chan_takes_iff (d : Option Chan) (c : Chan) : (d = none ∨ d = some c) ↔ ∀ e, d = some e → e = c := by
  cases d <;> simp

/-- Settles O56: one layer and a free key by `noteOnEvent_one`; in general the candidates are those of a fold over the live
layers, and their offers those of a fold over the candidates. -/
theorem noteOnSoundsItsTargets : Obligations.NoteOnSoundsItsTargets := by
  intro s i c key vel hvel u live
  refine ⟨fun h => congrArg _ (State.messageArrives_dead c _ h), fun ⟨hr, he⟩ ⟨d, hf, hd⟩ =>
    congrArg _ (State.messageArrives_blocked _ hr he hf hd), fun ⟨hr, he⟩ hf hno hroom y hl => ?_, fun ⟨hr, he⟩ hf => ?_⟩
  · have hin : s.Passes i c := ⟨hr, he, hf⟩
    intro out takes t entry
    have htakes : y.matchesNote i c key.val vel.val = true ↔ takes := y.matchesNote_iff i c key.val vel.val
    have hone : exec (.noteOn i c key vel) s =
        .next (if y.matchesNote i c key.val vel.val = true then u.sound i c key.val [t] else u) :=
      (hin.noteOn key hvel).trans (congrArg _ (u.noteOnEvent_one hl hno hroom))
    refine ⟨fun hnot => ?_, fun ht o ho => ?_, fun ht hs hquiet => ?_⟩
    · rw [hone, if_neg (mt htakes.1 hnot)]
    · have hoffer := offerCandidate_out u.noOffers (t := t) ho
      rw [hone, if_pos (htakes.2 ht)]
      refine ⟨fun hm => congrArg _ ?_, fun hm hs => congrArg _ ?_, fun hm hs hq => congrArg _ ?_, fun hm hs hq => congrArg _ ?_⟩
      · exact State.sound_unrecorded _ _ _ (hoffer.trans (if_pos hm))
      · exact State.sound_unrecorded _ _ _ (hoffer.trans ((if_neg (not_not.2 hm)).trans (if_pos hs)))
      · exact State.sound_unrecorded _ _ _
          (hoffer.trans ((if_neg (not_not.2 hm)).trans ((if_neg (Nat.not_le.2 hs)).trans (if_pos hq))))
      · exact State.sound_recorded _ _ _
          (hoffer.trans ((if_neg (not_not.2 hm)).trans ((if_neg (Nat.not_le.2 hs)).trans (if_neg (Nat.not_le.2 hq)))))
    · have hoffer := offerCandidate_sound u.noOffers (t := t) hs
      rw [State.mirrorLive_unheard (s := u.noOffers.state) hquiet] at hoffer
      rw [hone, if_pos (htakes.2 ht)]
      exact congrArg _ (State.sound_recorded _ _ _ hoffer)
  · have hin : s.Passes i c := ⟨hr, he, hf⟩
    intro out takes target same candidates released cleared held ready offered r
    have hcandidates : candidates = s.lr.live.layers.foldl (Layer.addCandidate i c key.val vel.val) [] := by
      have htakes : ∀ y, takes y = y.matchesNote i c key.val vel.val := fun y => by
        rw [Bool.eq_iff_iff, Layer.matchesNote_iff, ← chan_takes_iff]
        exact decide_eq_true_iff
      have hsame : same = Target.sameNote := by
        funext t q
        simp only [same, Target.sameNote, Bool.decide_and, Bool.and_assoc]
      simp only [candidates, htakes, hsame]
      rfl
    have hcleared : cleared = u.retrigger i c key.val := by
      cases hfind : s.lr.held.find? (fun e => decide (e.input = i ∧ e.chan = c ∧ e.key = key.val)) with
      | none =>
        simp only [cleared, hfind]
        exact (u.retrigger_none hfind).symm
      | some e =>
        simp only [cleared, hfind]
        exact (u.retrigger_some hfind).symm
    have hready : ready = cleared.steal := cleared.steal_eq.symm
    have hoffered : ∀ a t, offered (a.state, a.targets, a.pend) t =
        ((offerCandidate a t).state, (offerCandidate a t).targets, (offerCandidate a t).pend) := fun a t => by
      cases ht : t.dest with
      | out o =>
        simp only [offered, ht, offerCandidate_out a ht]
        split_ifs <;> rfl
      | sound =>
        simp only [offered, ht, offerCandidate_sound a ht]
    have hevent : u.noteOnEvent i c key.val vel.val = if candidates = [] then cleared else ready.sound i c key.val candidates := by
      rw [State.noteOnEvent_eq, hready, hcleared, hcandidates]
      rfl
    have hfold : r = ((candidates.foldl offerCandidate ready.noOffers).state,
        (candidates.foldl offerCandidate ready.noOffers).targets, (candidates.foldl offerCandidate ready.noOffers).pend) :=
      List.foldl_hom (fun a : NoteOffers => (a.state, a.targets, a.pend)) (init := ready.noOffers) hoffered
    rw [hin.noteOn key hvel, hevent, hfold, State.sound_offers]

end Sys2Proof.Machine
end

section
/-! PROOFS. Controllers, pitch bend and program changes (R105 to R115): the filter slot that takes a value, and the layers that
send it on. -/

namespace Sys2Proof.Machine

/-! ## Sending through the live map (R112 to R115) -/

/-- One layer of a send: it is given the value where it takes the stream, unless a layer before it had its destination and out
channel. -/
def sendOnce (takes : Layer → Bool) (give : State → Layer → State) (a : State × List (Dest × Chan)) (y : Layer) :
    State × List (Dest × Chan) :=
  if takes y = true ∧ (y.dest, y.outChan) ∉ a.2 then (give a.1 y, (y.dest, y.outChan) :: a.2) else a

/-- A value sent through the live layers, in list order. -/
def sendsThrough (takes : Layer → Bool) (give : State → Layer → State) (u : State) : State :=
  (u.lr.live.layers.foldl (sendOnce takes give) (u, [])).1

theorem foldl_deciders (takes : Layer → Bool) (give : State → Layer → State) (ys : List Layer) (u : State)
    (seen : List (Dest × Chan)) :
    (deciders (ys.filter takes) seen).foldl give u = (ys.foldl (sendOnce takes give) (u, seen)).1 := by
  induction ys generalizing u seen with
  | nil => rfl
  | cons y r ih =>
    rw [List.foldl_cons, sendOnce]
    by_cases ht : takes y = true
    · rw [List.filter_cons_of_pos ht, deciders]
      by_cases hs : (y.dest, y.outChan) ∈ seen
      · rw [if_pos hs, ih, if_neg (fun h => h.2 hs)]
      · rw [if_neg hs, List.foldl_cons, ih, if_pos ⟨ht, hs⟩]
    · rw [List.filter_cons_of_neg ht, ih, if_neg (fun h => ht h.1)]

theorem Layer.hears_eq (i : InPort) (c : Chan) :
    (fun y : Layer => y.hears i c) = fun y => decide (y.input = i ∧ (y.chan = none ∨ y.chan = some c)) := by
  funext y
  rw [Bool.eq_iff_iff, Layer.hears_iff, decide_eq_true_iff, chan_takes_iff]

theorem State.sendSlot_eq (u : State) (k : SlotKey) (f : Nat) : u.sendSlot k f =
    sendsThrough (fun y => y.hears k.input k.chan && y.pass.passes k.kind) (fun w y =>
      w.sendCoalescible y.dest (slotMsg k.kind y.outChan (y.scale f)) (slotEvent k.kind y.outChan (y.scale f))) u :=
  foldl_deciders _ _ _ _ _

theorem State.bendEvent_eq (u : State) (i : InPort) (c : Chan) (v : Nat) : u.bendEvent i c v =
    sendsThrough (fun y => y.hears i c && y.pass.bend) (fun w y =>
      w.sendCoalescible y.dest (.bend y.outChan v) { replay := false, chan := y.outChan, kind := .bend v }) u :=
  foldl_deciders _ _ _ _ _

theorem State.programEvent_eq (u : State) (i : InPort) (c : Chan) (p : Nat) : u.programEvent i c p =
    sendsThrough (fun y => y.hears i c) (fun w y =>
      (w.sendProgram { dest := y.dest, chan := y.outChan, msb := none, lsb := none, program := p }).1) u :=
  foldl_deciders _ _ _ _ _

/-! ## Messages for the slots and the map -/

section
variable {s : State} {i : InPort} {c : Chan} (h : s.Passes i c)
include h

theorem State.Passes.controlChange {n : Val7} (h64 : n.val ≠ 64) (hn : n.val < 120) (v : Val7) :
    exec (.controlChange i c n v) s = .next ((s.messageSeen i (byte (0xB0 + c.val))).slotTakes ⟨i, c, .control n.val⟩ v.val
      (s.midiIn i).settings.average (s.midiIn i).settings.deadband (s.midiIn i).settings.interval) := by
  have h123 : n.val ≠ 123 := by omega
  rw [← s.messageSeen_settings i (byte (0xB0 + c.val))]
  refine congrArg _ ((h.arrives (.control n v)).trans ?_)
  simp only [State.handleMessage, if_neg h64, if_neg h123, if_neg (Nat.not_le.2 hn)]
  rfl

theorem State.Passes.channelPressure (v : Val7) :
    exec (.channelPressure i c v) s = .next ((s.messageSeen i (byte (0xD0 + c.val))).slotTakes ⟨i, c, .pressure⟩ v.val
      (s.midiIn i).settings.average (s.midiIn i).settings.deadband (s.midiIn i).settings.interval) := by
  rw [← s.messageSeen_settings i (byte (0xD0 + c.val))]
  exact congrArg _ (h.arrives (.pressure v))

theorem State.Passes.pitchBend (a b : Val7) :
    exec (.pitchBend i c a b) s = .next ((s.messageSeen i (byte (0xE0 + c.val))).bendEvent i c (a.val + 128 * b.val)) :=
  congrArg _ (h.arrives (.bend a b))

theorem State.Passes.programChange (p : Val7) :
    exec (.programChange i c p) s = .next ((s.messageSeen i (byte (0xC0 + c.val))).programEvent i c p.val) :=
  congrArg _ (h.arrives (.program p))

end

/-! ## The slot of a key (R107 to R111) -/

/-- A slot list in place of the state's. -/
def State.withSlots (u : State) (slots : List Slot) : State := { u with lr := { u.lr with slots := slots } }

/-- A slot newly set up holds the value alone and forwards it (R107 to R109). -/
theorem State.slotTakes_fresh {u : State} {k : SlotKey} (h : ∀ q ∈ u.lr.slots, q.key ≠ k) (v avg db iv : Nat) :
    u.slotTakes k v avg db iv = (u.withSlots ((if u.lr.slots.length < 32 then u.lr.slots else u.lr.slots.tail) ++
      [{ key := k, history := [v], latest := Machine.filtered [v] avg, lastFwd := some (Machine.filtered [v] avg), lastTime := some u.now,
         deadline := none }])).sendSlot k (Machine.filtered [v] avg) := by
  rw [State.slotTakes_eq v avg db iv (takeSlot_miss h)]
  rfl

theorem filtered_single {n : Nat} (h : 1 ≤ n) (v : Nat) : filtered [v] n = v := by
  have hm : min n 1 = 1 := Nat.min_eq_right h
  simp [filtered, hm]

theorem passesDeadband_iff (q : Slot) (f db : Nat) : passesDeadband q f db = true ↔
    ∀ w, q.lastFwd = some w → f = 0 ∨ f = 127 ∨ db < (f - w) + (w - f) := by
  simp only [passesDeadband]
  cases q.lastFwd with
  | none => simp
  | some w =>
    simp only [Bool.or_eq_true, decide_eq_true_iff, or_assoc]
    exact ⟨fun h x hx => Option.some.inj hx ▸ h, fun h => h w rfl⟩

theorem intervalPassed_iff (q : Slot) (now : Stamp) (us : Nat) : intervalPassed q now us = true ↔
    ∀ w, q.lastTime = some w → us ≤ (now - w).toNat := by
  simp only [intervalPassed]
  cases q.lastTime with
  | none => simp
  | some w => exact decide_eq_true_iff.trans ⟨fun h x hx => Option.some.inj hx ▸ h, fun h => h w rfl⟩

/-- A value joins the history of the slot that holds its key, which becomes the most recently used (R107 to R111). -/
theorem State.slotTakes_joins {u : State} {k : SlotKey} {before after : List Slot} {q : Slot}
    (hs : u.lr.slots = before ++ q :: after) (hq : q.key = k) (hk : ∀ d ∈ before ++ after, d.key ≠ k) (v avg db iv : Nat) :
    u.slotTakes k v avg db iv =
      let r := q.joined v avg
      if q.deadline.isSome ∨ passesDeadband r r.latest db = false then u.withSlots (before ++ after ++ [r])
      else if intervalPassed r u.now (1000 * iv) = true then
        (u.withSlots (before ++ after ++ [r.forward u.now r.latest])).sendSlot k r.latest
      else u.withSlots (before ++ after ++ [{ r with deadline := some (stampAfter (r.lastTime.getD u.now) (1000 * iv)) }]) :=
  State.slotTakes_eq v avg db iv (by rw [hs]; exact takeSlot_hit hq hk)

section
variable {u : State} {before after : List Slot} {q : Slot} (hs : u.lr.slots = before ++ q :: after)
  (hk : ∀ d ∈ before ++ after, d.key ≠ q.key)
include hs hk

theorem State.slotFor_mid : slotFor u.lr.slots q.key = some q := by
  rw [hs]
  exact slotFor_hit rfl fun d hd => hk d (List.mem_append_left _ hd)

theorem State.replaceSlot_mid {r : Slot} (hr : r.key = q.key) : replaceSlot u.lr.slots r = before ++ r :: after := by
  rw [hs, replaceSlot_hit hr hk]

theorem State.forwardTimeExpiry_mid :
    u.forwardTimeExpiry q.key = u.withSlots (before ++ { q with lastTime := none } :: after) := by
  simp only [State.forwardTimeExpiry, State.slotFor_mid hs hk]
  exact congrArg u.withSlots (State.replaceSlot_mid hs hk rfl)

theorem State.slotExpiry_idle (h : q.deadline = none) : u.slotExpiry q.key = u := by
  simp only [State.slotExpiry, State.slotFor_mid hs hk, h]

/-- A pending slot whose latest value went out already only ceases to be pending (R110). -/
theorem State.slotExpiry_same (h : q.deadline.isSome = true) (hl : q.lastFwd = some q.latest) :
    u.slotExpiry q.key = u.withSlots (before ++ { q with deadline := none } :: after) := by
  obtain ⟨w, hw⟩ := Option.isSome_iff_exists.1 h
  simp only [State.slotExpiry, State.slotFor_mid hs hk, hw, if_pos hl]
  exact congrArg u.withSlots (State.replaceSlot_mid hs hk rfl)

/-- A pending slot forwards a latest value that has not gone out (R110, R111). -/
theorem State.slotExpiry_forward (h : q.deadline.isSome = true) (hl : q.lastFwd ≠ some q.latest) :
    u.slotExpiry q.key = (u.withSlots (before ++ { q with
      deadline := none, lastFwd := some q.latest, lastTime := some u.now } :: after)).sendSlot q.key q.latest := by
  obtain ⟨w, hw⟩ := Option.isSome_iff_exists.1 h
  simp only [State.slotExpiry, State.slotFor_mid hs hk, hw, if_neg hl]
  exact congrArg (fun l => (u.withSlots l).sendSlot q.key q.latest) (State.replaceSlot_mid hs hk rfl)

end

theorem State.slotExpiry_miss {u : State} {k : SlotKey} (h : ∀ q ∈ u.lr.slots, q.key ≠ k) :
    u.slotExpiry k = u ∧ u.forwardTimeExpiry k = u := by
  simp only [State.slotExpiry, State.forwardTimeExpiry, slotFor_miss h, and_self]

/-- Settles O59: a message by the slot that takes it, an expiry by the slot of its key, and every value sent by the layers that
decide its sends. -/
theorem controllersFilterAndForward : Obligations.ControllersFilterAndForward := by
  intro s sends hears offer send
  have hsends : sends = sendsThrough := rfl
  have hhears : ∀ i c y, hears i c y = y.hears i c := fun i c y => (congrFun (Layer.hears_eq i c) y).symm
  have hoffer : ∀ (w : State) (d : Dest) (m : OutMsg) (c : Chan) (e : EventKind),
      offer w d m c e = w.sendCoalescible d m { replay := false, chan := c, kind := e } := fun w d m c e => by
    cases d <;> rfl
  have hsend : ∀ u k v, send u k v = u.sendSlot k v := fun u k v => by
    rw [State.sendSlot_eq]
    obtain ⟨i, c, kind⟩ := k
    cases kind <;> simp only [send, hsends, hhears, hoffer] <;> rfl
  refine ⟨fun i c v hr he hf => ?_, fun k h => ?_, fun before q after hs hk => ?_⟩
  · have hin : s.Passes i c := ⟨hr, he, hf⟩
    intro set takes
    have htakes : ∀ (st : Byte) (kind : SlotKind), takes (s.messageSeen i st) kind
        ((s.messageSeen i st).slotTakes ⟨i, c, kind⟩ v.val set.average set.deadband set.interval) := by
      intro st kind
      refine ⟨fun hno hroom => ?_, fun hno hfull => ?_, fun h => filtered_single h _, fun before q after hs hqk hk => ?_⟩
      · rw [hsend, State.slotTakes_fresh (u := s.messageSeen i st) hno]
        exact congrArg (fun l => State.sendSlot ((s.messageSeen i st).withSlots (l ++ _)) _ _) (if_pos hroom)
      · rw [hsend, State.slotTakes_fresh (u := s.messageSeen i st) hno]
        exact congrArg (fun l => State.sendSlot ((s.messageSeen i st).withSlots (l ++ _)) _ _) (if_neg (Nat.not_lt.2 hfull))
      · intro hist f q1 passes due
        have hjoin := State.slotTakes_joins (u := s.messageSeen i st) hs hqk hk v.val set.average set.deadband set.interval
        have hq1 : q.joined v.val set.average = q1 := by rw [Slot.joined, historyPush_eq]; rfl
        have hpass : passesDeadband q1 f set.deadband = true ↔ passes := passesDeadband_iff q1 f set.deadband
        have hdue : intervalPassed q1 s.now (1000 * set.interval) = true ↔ due := intervalPassed_iff q1 s.now _
        have hgoes : q.deadline = none → passes → ¬(q.deadline.isSome = true ∨ passesDeadband q1 f set.deadband = false) := by
          intro hd hp
          rw [hd, hpass.2 hp]
          decide
        rw [hq1] at hjoin
        refine ⟨fun hwait => hjoin.trans (if_pos (hwait.imp_right fun h => Bool.eq_false_iff.2 (mt hpass.1 h))), fun hd hp hdue' => ?_,
          fun w hd hp hnot hw => ?_⟩
        · rw [hsend]
          exact hjoin.trans ((if_neg (hgoes hd hp)).trans (if_pos (hdue.2 hdue')))
        · have hlast : q1.lastTime.getD s.now = w := congrArg (Option.getD · s.now) hw
          refine hjoin.trans ((if_neg (hgoes hd hp)).trans ((if_neg (mt hdue.1 hnot)).trans ?_))
          exact congrArg (fun x => (s.messageSeen i st).withSlots (before ++ after ++
            [{ q1 with deadline := some (stampAfter x (1000 * set.interval)) }])) hlast
    refine ⟨fun n h64 hn => ⟨_, hin.controlChange h64 hn v, htakes _ _⟩, ⟨_, hin.channelPressure v, htakes _ _⟩, fun a => ?_, ?_⟩
    · intro bend
      rw [hin.pitchBend, State.bendEvent_eq, hsends]
      simp only [hhears, hoffer]
      rfl
    · rw [hin.programChange, State.programEvent_eq, hsends, ← funext (hhears i c)]
      refine congrArg (fun f => Host.Outcome.next (sendsThrough _ f _)) ?_
      funext w y
      unfold State.sendProgram
      cases y.dest <;> rfl
  · obtain ⟨h1, h2⟩ := State.slotExpiry_miss h
    exact ⟨congrArg _ h1, congrArg _ h2⟩
  · intro put
    refine ⟨congrArg _ (State.forwardTimeExpiry_mid hs hk), fun h => congrArg _ (State.slotExpiry_idle hs hk h),
      fun h hl => congrArg _ (State.slotExpiry_same hs hk h hl), fun h hl => ?_⟩
    rw [hsend]
    exact congrArg _ (State.slotExpiry_forward hs hk h hl)

end Sys2Proof.Machine
end

section
/-! PROOFS. SET_INPUT, SET_OUTPUT and SET_WATCH (R49, R56, R177): what new settings make of an input, an output and the stations. -/

namespace Sys2Proof.Machine

/-! ## SET_INPUT (R49) -/

theorem State.reqSetInput_eq {s : State} (hs : s.st.op = .none) {i : InPort} {t : InSettings} (ht : t.ok = true) (l : Link) :
    (s.heard l).reqSetInput l (inputPayload i t) = (s.answered l .setInput .done []).applyInput i t := by
  simp only [State.reqSetInput, State.heard_storeBusy, storeBusy_of_none hs, (input_readsBack (i := i) ht).2, State.heard_reply]
  rfl

section
variable (s : State) {i : InPort} {t : InSettings}

theorem State.applyInput_off_off (h : (s.midiIn i).settings.enabled = false) (ht : t.enabled = false) :
    s.applyInput i t = s.setIn i { s.midiIn i with settings := t } := by
  simp only [State.applyInput, h, ht]

theorem State.applyInput_off_on (h : (s.midiIn i).settings.enabled = false) (ht : t.enabled = true) :
    s.applyInput i t =
      s.setIn i { (s.midiIn i).clearParser with settings := t, sensing := .unwatched, deadline := none } := by
  simp only [State.applyInput, h, ht]

theorem State.applyInput_on_off (h : (s.midiIn i).settings.enabled = true) (ht : t.enabled = false) :
    s.applyInput i t = (s.setIn i { (s.midiIn i).clearParser with
      settings := t, sensing := .unwatched, deadline := none, sustain := 0#16 }).inputLostEvent i := by
  simp only [State.applyInput, h, ht]

theorem State.applyInput_on_on (h : (s.midiIn i).settings.enabled = true) (ht : t.enabled = true) :
    s.applyInput i t =
      (allChans.filter (fun c => passesFilter (s.midiIn i).settings.filter c && !passesFilter t.filter c)).foldl
        (fun u c => u.dropChannel i c) (s.setIn i { s.midiIn i with settings := t }) := by
  simp only [State.applyInput, h, ht]

/-- With the same enabled flag and channel filter the settings alone change (R49). -/
theorem State.applyInput_same (he : t.enabled = (s.midiIn i).settings.enabled) (hf : t.filter = (s.midiIn i).settings.filter) :
    s.applyInput i t = s.setIn i { s.midiIn i with settings := t } := by
  cases h : (s.midiIn i).settings.enabled with
  | false => exact s.applyInput_off_off h (he.trans h)
  | true =>
    rw [s.applyInput_on_on h (he.trans h), hf]
    simp

end

theorem passesFilter_iff (f : Option Chan) (c : Chan) : passesFilter f c = true ↔ f = none ∨ f = some c := by
  rw [chan_takes_iff]
  cases f <;> simp [passesFilter]

/-- A lost input without held entries only has its filter slots emptied (R97, R117). -/
theorem State.inputLostEvent_empty {s : State} {i : InPort} (h : ∀ e ∈ s.lr.held, e.input ≠ i) :
    s.inputLostEvent i = { s with lr := { s.lr with slots := s.lr.slots.filter (fun q => decide (q.key.input ≠ i)) } } := by
  rw [State.inputLostEvent, State.releaseAll_none _ (List.find?_eq_none.2 fun e he => by simpa using h e he)]

/-! ## SET_OUTPUT (R56) -/

theorem State.reqSetOutput_eq {s : State} (hs : s.st.op = .none) (o : OutPort) (t : OutSettings) (l : Link) :
    (s.heard l).reqSetOutput l (outputPayload o t) =
      (s.answered l .setOutput .done []).setOut o ((s.midiOut o).applySettings t) := by
  simp only [State.reqSetOutput, State.heard_storeBusy, storeBusy_of_none hs, (output_readsBack o t).2, State.heard_reply]
  rfl

section
variable {x : MidiOut} {t : OutSettings}

/-- An ENABLED output turned off is DISABLED at once where it is drained (R56). -/
theorem MidiOut.applySettings_enabled (hm : x.mode = .enabled) : x.applySettings t =
    if t.enabled then { x with settings := t }
    else if x.sounding = 0 ∧ x.queue = [] ∧ x.tx = none then
      { x with settings := t, mode := .disabled, realTime := [], line := none }
    else { x with settings := t, mode := .draining } := by
  cases ht : t.enabled with
  | true => simp only [MidiOut.applySettings, hm, ht, if_true]
  | false =>
    simp only [MidiOut.applySettings, hm, ht, Bool.false_eq_true, if_false]
    exact if_congr x.drained_iff rfl rfl

theorem MidiOut.applySettings_draining (hm : x.mode = .draining) : x.applySettings t =
    if t.enabled then { x with settings := t, mode := .enabled } else { x with settings := t } := by
  cases ht : t.enabled <;> simp only [MidiOut.applySettings, hm, ht, Bool.false_eq_true, if_true, if_false]

theorem MidiOut.applySettings_disabled (hm : x.mode = .disabled) : x.applySettings t =
    if t.enabled then { x with settings := t, mode := .enabled, statusMem := none } else { x with settings := t } := by
  cases ht : t.enabled <;> simp only [MidiOut.applySettings, hm, ht, Bool.false_eq_true, if_true, if_false]

end

/-! ## SET_WATCH (R177) -/

theorem State.reqSetWatch_eq {s : State} (hs : s.st.op = .none) {n : Nat} (hn : n ≤ 255) (l : Link) :
    (s.heard l).reqSetWatch l [byte n] =
      (s.answered l .setWatch (if max 3 (min 20 n) = n then .done else .clamped) []).setLimit (max 3 (min 20 n)) := by
  have hb : byteAt [byte n] 0 = n := byteAt_byte_cons (by omega) []
  simp only [State.reqSetWatch, State.heard_storeBusy, storeBusy_of_none hs, hb, doneOr_changed, State.heard_reply]
  rfl

/-- Station X, SUSPECT or JOINING, has a limit of misses behind it (R177). -/
def State.overLimit (s : State) (n : Nat) (x : Station) : Prop :=
  ((s.station x).state = .suspect ∨ (s.station x).state = .joining) ∧ n ≤ (s.station x).miss

/-- Station X moves to DOWN with its consequences and a STATION fault LOST (R165, R168). -/
def State.falls (s : State) (x : Station) : State := (s.moved x .down).report .lost (some (.link x.link))

theorem State.changeStation_lost (s : State) (x : Station) : s.changeStation x .down (some .lost) = s.falls x :=
  s.changeStation_eq x .down (some .lost)

theorem State.limitStation_over {u : State} {x : Station} (h : u.overLimit u.sw.limit x) : u.limitStation x = u.falls x := by
  obtain ⟨hstate, hmiss⟩ := h
  rw [← State.changeStation_lost]
  rcases hstate with hstate | hstate <;> simp only [State.limitStation, hstate, if_pos hmiss]

theorem State.limitStation_below {u : State} {x : Station} (h : ¬u.overLimit u.sw.limit x) : u.limitStation x = u := by
  unfold State.limitStation
  cases hstate : (u.station x).state with
  | up | down | absent => rfl
  | suspect => exact if_neg fun hm => h ⟨.inl hstate, hm⟩
  | joining => exact if_neg fun hm => h ⟨.inr hstate, hm⟩

/-- A station that leaves the air may make the other one active, and changes neither station's record (R174). -/
theorem State.offAir_stations (s : State) (x : Station) (was : Bool) : (s.offAir x was).sw.stations = s.sw.stations := by
  have hreport : ∀ (u : State) (k : FaultKind) (p : Option FaultPort), (u.report k p).sw = u.sw := fun u k p =>
    (u.report_linksOnly k p).watch
  have hactive : ∀ (u : State) (y : Station) (c : ActiveCause), (u.nowActive y c).sw.stations = u.sw.stations := fun u y c =>
by
    rw [State.nowActive, (State.broadcast_linksOnly _ _ _).watch]
  have hunlocked : ∀ (v : State) (n : Notice), (v.broadcast Mask.scene n).sw = v.sw := fun v n =>
    (v.broadcast_linksOnly _ n).watch
  unfold State.offAir
  by_cases hl : s.lr.lock = some x.link
  · simp only [if_pos hl]
    split_ifs <;> simp only [hreport, hactive, hunlocked]
  · simp only [if_neg hl]
    split_ifs <;> simp only [hreport, hactive]

/-- The fall of one station leaves the other's record, and the limit. -/
theorem State.falls_other (s : State) (n : Nat) (x : Station) :
    ((s.falls x).overLimit n x.other ↔ s.overLimit n x.other) ∧ (s.falls x).sw.limit = s.sw.limit := by
  have hne : x.other ≠ x := by cases x <;> decide
  have hstation : (s.falls x).station x.other = s.station x.other := by
    have hst : (s.falls x).sw.stations = (s.setStation x { s.station x with state := .down, phase := .none }).sw.stations :=
      (congrArg Watch.stations (State.report_linksOnly _ _ _).watch).trans (State.offAir_stations _ _ _)
    exact (congrArg (PerStation.get · x.other) hst).trans (State.station_setStation_of_ne s _ hne)
  refine ⟨?_, ?_⟩
  · rw [State.overLimit, State.overLimit, hstation]
  · rw [← State.changeStation_lost]
    exact (s.changeStation_watchOnly _ _ _).limit

/-- The state with another miss limit, before it is applied (R177). -/
def State.withLimit (s : State) (n : Nat) : State := { s with sw := { s.sw with limit := n } }

theorem State.setLimit_both {s : State} {n : Nat} (ha : s.overLimit n .a) (hb : s.overLimit n .b) : s.setLimit n =
    if Config.aFirst s.choices then ((s.withLimit n).choose.limitStation .a).limitStation .b
    else ((s.withLimit n).choose.limitStation .b).limitStation .a := by
  obtain ⟨ha1, ha2⟩ := ha
  obtain ⟨hb1, hb2⟩ := hb
  exact if_pos (by simp [ha1, ha2, hb1, hb2])

theorem State.setLimit_not_both {s : State} {n : Nat} (h : ¬(s.overLimit n .a ∧ s.overLimit n .b)) :
    s.setLimit n = ((s.withLimit n).limitStation .a).limitStation .b := by
  refine if_neg fun hc => h ?_
  simp only [Bool.and_eq_true, decide_eq_true_iff] at hc
  exact hc

/-- Settles O42: each request by its settings read back; the miss limit by the stations that it leaves behind. -/
theorem portAndWatchSettingsAct : Obligations.PortAndWatchSettingsAct := by
  intro s l hs
  have hwatch : ∀ n : Nat, n ≤ 255 → s.takes l .setWatch [byte n] = true → exec (.setWatch l [byte n]) s =
      .next ((s.answered l .setWatch (if max 3 (min 20 n) = n then .done else .clamped) []).setLimit (max 3 (min 20 n))) :=
    fun n hn hk => (exec_of_takes (i := .setWatch l [byte n]) rfl hk).trans (congrArg _ (State.reqSetWatch_eq hs hn l))
  refine ⟨fun i t ht hk => ?_, fun o t hk => ?_, fun n hn hk => ?_, fun n hn hk => ?_⟩
  · intro x
    let v := s.answered l .setInput .done []
    have hexec : exec (.setInput l (inputPayload i t)) s = .next (v.applyInput i t) :=
      (exec_of_takes (i := .setInput l (inputPayload i t)) rfl hk).trans (congrArg _ (State.reqSetInput_eq hs ht l))
    rw [hexec]
    refine ⟨fun he hf => congrArg _ (v.applyInput_same he hf), fun hoff htoff => congrArg _ (v.applyInput_off_off hoff htoff),
      fun hoff hton => congrArg _ (v.applyInput_off_on hoff hton), fun hon htoff hno => congrArg _ ?_,
      fun hon htoff => congrArg _ (v.applyInput_on_off hon htoff), fun hon hton => congrArg _ ?_⟩
    · exact (v.applyInput_on_off hon htoff).trans (State.inputLostEvent_empty (s := v.setIn i _) hno)
    · have hdropped : (fun c => passesFilter x.settings.filter c && !passesFilter t.filter c) = fun c =>
          decide ((x.settings.filter = none ∨ x.settings.filter = some c) ∧ ¬(t.filter = none ∨ t.filter = some c)) := by
        funext c
        rw [Bool.eq_iff_iff, Bool.and_eq_true, Bool.not_eq_true', ← Bool.not_eq_true, passesFilter_iff, passesFilter_iff,
          decide_eq_true_iff]
      have hdrop : (fun (u : State) (c : Chan) => u.dropChannel i c) = fun u c =>
          State.releaseAll (u.setIn i { u.midiIn i with sustain := (u.midiIn i).sustain &&& ~~~(1#16 <<< c.val) })
            (fun e => decide (e.input = i ∧ e.chan = c)) (fun _ => 64) := by
        funext u c
        exact State.allNotesOffEvent_eq _
      rw [v.applyInput_on_on hon hton, hdrop]
      exact congrArg (fun p => List.foldl _ _ (allChans.filter p)) hdropped
  · intro x
    refine (exec_of_takes (i := .setOutput l (outputPayload o t)) rfl hk).trans (congrArg _ ?_)
    refine (State.reqSetOutput_eq hs o t l).trans (congrArg _ ?_)
    split
    · next hm => exact MidiOut.applySettings_enabled hm
    · next hm => exact MidiOut.applySettings_draining hm
    · next hm => exact MidiOut.applySettings_disabled hm
  · intro m hbelow
    let v := s.answered l .setWatch (if m = n then .done else .clamped) []
    have hnone : ∀ x, ¬v.overLimit m x := fun x hx => absurd (hbelow x hx.1) (Nat.not_lt.2 hx.2)
    have hstay : ∀ x, (v.withLimit m).limitStation x = v.withLimit m := fun x => State.limitStation_below (hnone x)
    refine (hwatch n hn hk).trans (congrArg _ ((State.setLimit_not_both (s := v) fun h => hnone _ h.1).trans ?_))
    rw [hstay .a, hstay .b]
    rfl
  · intro m r goes down
    rw [hwatch n hn hk]
    let v := s.answered l .setWatch (if m = n then .done else .clamped) []
    have hover : ∀ (u : State) (x : Station), u.sw.limit = m → u.overLimit m x → u.limitStation x = u.falls x := fun u x hl h =>
      State.limitStation_over (hl ▸ h)
    have hbelow : ∀ (u : State) (x : Station), u.sw.limit = m → ¬u.overLimit m x → u.limitStation x = u := fun u x hl h =>
      State.limitStation_below (hl ▸ h)
    refine ⟨fun x hx hnot => ?_, fun ha hb => ?_⟩
    · refine congrArg _ ((State.setLimit_not_both (s := v) ?_).trans ?_)
      · cases x
        · exact fun h => hnot h.2
        · exact fun h => hnot h.1
      · obtain ⟨hother, hlimit⟩ := r.falls_other m x
        cases x with
        | a =>
          show (r.limitStation .a).limitStation .b = _
          rw [hover r .a rfl hx, hbelow _ .b hlimit (mt hother.1 hnot)]
          rfl
        | b =>
          show (r.limitStation .a).limitStation .b = _
          rw [hbelow r .a rfl hnot, hover r .b rfl hx]
          rfl
    · refine congrArg _ ((State.setLimit_both (s := v) ha hb).trans ?_)
      have hboth : ∀ x : Station, goes x → goes x.other →
          (r.choose.limitStation x).limitStation x.other = down x.other (down x r.choose) := by
        intro x hx hy
        obtain ⟨hother, hlimit⟩ := r.choose.falls_other m x
        rw [hover r.choose x rfl hx, hover _ x.other hlimit (hother.2 hy)]
        rfl
      have hab := hboth .a ha hb
      have hba := hboth .b hb ha
      exact ite_congr rfl (fun _ => hab) (fun _ => hba)

end Sys2Proof.Machine
end

section
/-! PROOFS. PANIC (R57, R101, R179): the outputs flushed, ALL_OFF offered to the stations, and the held-note table, the filter
slots and the pedals emptied. -/

namespace Sys2Proof.Machine

/-! ## ALL_OFF to one station (R154, R170, R179) -/

theorem State.hears_iff (s : State) (x : Station) : s.hears x = true ↔
    (s.station x).state = .up ∨ (s.station x).state = .suspect ∨ (s.station x).state = .joining := by
  rw [State.hears]
  cases (s.station x).state <;> simp

/-- Station X hears, and its connected link has no room for an ALL_OFF (R154). -/
def State.panicFull (s : State) (x : Station) : Prop :=
  s.hears x = true ∧ (s.link x.link).high = true ∧ (s.link x.link).free < 16

/-- With room, or with nothing to offer, an ALL_OFF is posted to a station that hears on a connected link. -/
theorem State.panicStation_room {s : State} {x : Station} (h : ¬s.panicFull x) : s.panicStation x =
    if s.hears x = true ∧ (s.link x.link).high = true then s.post x.link (.notice .allOff) else s := by
  by_cases hh : s.hears x = true
  · by_cases hl : (s.link x.link).high = true
    · have hroom : ¬((s.link x.link).free < Config.noticeRoom) := fun hf => h ⟨hh, hl, hf⟩
      simp only [State.panicStation, hh, hl, hroom, if_true, decide_false, Bool.and_false, Bool.false_eq_true, if_false, and_self]
    · simp only [State.panicStation, hh, hl, if_true, Bool.false_and, Bool.false_eq_true, if_false, and_false]
  · simp only [State.panicStation, hh, Bool.false_eq_true, if_false, false_and]

/-- A station that hears refuses an ALL_OFF by its state: one in CLEARING stays, any other goes back to JOINING (R170). -/
theorem State.refused_eq {s : State} {x : Station} (h : s.hears x = true) : s.refused x =
    if (s.station x).state = .joining ∧ (s.station x).phase ≠ .replaying then s
    else (s.moved x .joining).report .overflow (some (.link x.link)) := by
  have hchange : s.changeStation x .joining (some .overflow) = (s.moved x .joining).report .overflow (some (.link x.link)) :=
    s.changeStation_eq x .joining (some .overflow)
  rw [State.hears_iff] at h
  rcases h with h | h | h
  · simp [State.refused, h, hchange]
  · simp [State.refused, h, hchange]
  · cases hp : (s.station x).phase <;> simp [State.refused, h, hp, hchange]

theorem State.panicStation_full {s : State} {x : Station} (h : s.panicFull x) : s.panicStation x =
    let w := s.report .noticeDrop (some (.link x.link))
    if (s.station x).state = .joining ∧ (s.station x).phase ≠ .replaying then w
    else (w.moved x .joining).report .overflow (some (.link x.link)) := by
  obtain ⟨hh, hl, hf⟩ := h
  have hst : (s.report .noticeDrop (some (.link x.link))).station x = s.station x := by
    rw [State.station, (s.report_linksOnly _ _).watch]
    rfl
  have hheard : (s.report .noticeDrop (some (.link x.link))).hears x = true := by
    rw [State.hears_iff, hst]
    exact (s.hears_iff x).1 hh
  have hfull : decide ((s.link x.link).free < Config.noticeRoom) = true := decide_eq_true hf
  simp only [State.panicStation, hh, hl, hfull, if_true, Bool.and_self, State.refused_eq hheard, hst]

/-! ## ALL_OFF to both stations -/

theorem State.panicFull_iff (s : State) (x : Station) : s.panicFull x ↔
    (s.hears x && (s.link x.link).high && decide ((s.link x.link).free < Config.noticeRoom)) = true := by
  simp only [Bool.and_eq_true, decide_eq_true_iff, and_assoc]
  exact Iff.rfl

theorem State.panicStations_full {s : State} (h : ∃ x, s.panicFull x) : s.panicStations =
    if Config.aFirst s.choices then (s.choose.panicStation .a).panicStation .b
    else (s.choose.panicStation .b).panicStation .a := by
  refine if_pos ?_
  rw [Bool.or_eq_true, ← State.panicFull_iff, ← State.panicFull_iff]
  obtain ⟨x, hx⟩ := h
  cases x with
  | a => exact .inl hx
  | b => exact .inr hx

theorem State.panicStations_room {s : State} (h : ∀ x, ¬s.panicFull x) :
    s.panicStations = (s.panicStation .a).panicStation .b := by
  refine if_neg ?_
  rw [Bool.or_eq_true, ← State.panicFull_iff, ← State.panicFull_iff]
  exact fun k => k.elim (h .a) (h .b)

/-! ## The flush (R57) -/

theorem allNotesOffMessages_eq :
    allNotesOffMessages = (List.range 16).map (fun c => ⟨.control (Fin.ofNat 16 c) 123 0, false⟩) := by decide

theorem State.answered_high (s : State) (l j : Link) (k : ReqKind) (r : ResultCode) (d : List Byte) :
    ((s.answered l k r d).link j).high = (s.link j).high := by
  by_cases h : j = l
  · subst h
    rw [State.answered, State.link_setLink_same]
    exact (LinkState.startTx_noticed _ _).high
  · rw [State.link_answered_of_ne s k r d h]

theorem MidiOut.panic_eq (x : MidiOut) (now : Stamp) : x.panic now =
    if x.mode = .disabled then x
    else MidiOut.kick { x with
      queue := (List.range 16).map (fun c => ⟨.control (Fin.ofNat 16 c) 123 0, false⟩)
      sounding := 0 } now := by
  rw [MidiOut.panic, allNotesOffMessages_eq]

/-- Settles O49: the flush, then each station by its room, then the tables emptied. -/
theorem panicSilencesEverything : Obligations.PanicSilencesEverything := by
  intro s l ht u hears flush told offered full v ends
  have hflush : ({ u with op := u.op.map (MidiOut.panic · u.now) } : State) = v := by
    have hop : u.op.map (MidiOut.panic · u.now) = ⟨flush s.op.out0, flush s.op.out1, flush s.op.out2, flush s.op.out3⟩ := by
      simp only [MidiOut.panic_eq]
      rfl
    rw [hop]
  have hexec : exec (.panic l []) s = .next (ends v.panicStations) := by
    have hperform : (s.heard l).perform l .panic [] = u.panic := congrArg State.panic (s.heard_reply l .panic .done)
    have hip : v.panicStations.ip = s.ip := v.panicStations_watchOnly.ip
    rw [exec_of_takes (i := .panic l []) rfl ht, hperform, State.panic]
    simp only [hflush, ends, hip]
  have hheard : ∀ (w : State) (x : Station), w.sw = s.sw → w.hears x = hears x := fun w x hw => by
    rw [Bool.eq_iff_iff, State.hears_iff, State.station, hw]
    exact decide_eq_true_iff.symm
  have hhigh : ∀ x : Station, (v.link x.link).high = (s.link x.link).high := fun x => s.answered_high l x.link _ _ _
  have hfull : ∀ x, v.panicFull x ↔ full x := fun x => by
    rw [State.panicFull, hheard v x rfl, hhigh]
    exact Iff.rfl
  refine ⟨fun hroom => ?_, fun hsome => ?_⟩
  · have hnot : ∀ x, ¬v.panicFull x := fun x hx => by
      obtain ⟨hh, hl, hf⟩ := (hfull x).1 hx
      exact absurd (hroom x hh hl) (Nat.not_le.2 hf)
    have htold : ∀ (w : State) (x : Station), w.sw = s.sw → (w.link x.link).high = (s.link x.link).high → ¬w.panicFull x →
        w.panicStation x = told w x := fun w x hw hl hn => by rw [State.panicStation_room hn, hheard w x hw, hl]
    have hafter : (told v .a).sw = s.sw ∧ (told v .a).link .s1 = v.link .s1 := by
      simp only [told]
      split_ifs <;> exact ⟨rfl, rfl⟩
    have hb : ¬(told v .a).panicFull .b := fun hx => hnot .b <| by
      have hlink : (told v .a).link Station.b.link = v.link Station.b.link := hafter.2
      rwa [State.panicFull, hheard _ _ hafter.1, hlink, ← hheard v .b rfl] at hx
    have hstations : v.panicStations = told (told v .a) .b := by
      rw [State.panicStations_room hnot, htold v .a rfl (hhigh .a) (hnot .a),
        htold _ .b hafter.1 ((congrArg LinkState.high hafter.2).trans (hhigh .b)) hb]
    rw [hexec, hstations]
    refine congrArg _ ?_
    simp only [ends, told]
    split_ifs <;> rfl
  · have hoffered : ∀ w x, offered w x = w.panicStation x := fun w x => by
      simp only [offered, ← State.hears_iff]
      by_cases hc : (w.link x.link).high = true ∧ w.hears x = true
      · obtain ⟨hl, hh⟩ := hc
        rw [if_pos ⟨hl, hh⟩]
        by_cases hroom : 16 ≤ (w.link x.link).free
        · rw [if_pos hroom, State.panicStation_room fun hx => absurd hx.2.2 (Nat.not_lt.2 hroom), if_pos ⟨hh, hl⟩]
        · rw [if_neg hroom, State.panicStation_full ⟨hh, hl, Nat.not_le.1 hroom⟩]
      · rw [if_neg hc, State.panicStation_room fun hx => hc ⟨hx.2.1, hx.1⟩, if_neg fun hx => hc ⟨hx.2, hx.1⟩]
    rw [hexec, State.panicStations_full (hsome.imp fun x => (hfull x).2), hoffered, hoffered, hoffered, hoffered]
    rfl

end Sys2Proof.Machine
end

section
/-! PROOFS. The stations' promise (R100, R173, R174): no held entry is pending for a station on the air, and a station that is UP
finds the active one on the air. What a station's change and the mirroring of events do to it. -/

namespace Sys2Proof.Machine

/-- No held entry is pending for a station in UP or SUSPECT, and while a station is UP the active one is on the air. -/
structure State.Promised (s : State) : Prop where
  owed : ∀ x, (s.station x).state.onAir = true → ∀ e ∈ s.lr.held, e.pend.get x = false
  served : ∀ x, (s.station x).state = .up → ∃ y, s.sw.active = some y ∧ (s.station y).state.onAir = true

theorem State.promised_iff (s : State) : s.stationsPromise = true ↔ s.Promised := by
  have howed : allStations.all (fun x => !(s.station x).state.onAir || !s.lr.held.any (fun e => e.pend.get x)) = true ↔
      ∀ x, (s.station x).state.onAir = true → ∀ e ∈ s.lr.held, e.pend.get x = false := by
    simp only [List.all_eq_true, mem_allStations, true_implies]
    exact forall_congr' fun x => by cases (s.station x).state.onAir <;> simp
  have hup : allStations.any (fun x => decide ((s.station x).state = .up)) = true ↔ ∃ x, (s.station x).state = .up := by
    simp only [List.any_eq_true, mem_allStations, true_and, decide_eq_true_eq]
  have hserved : (!allStations.any (fun x => decide ((s.station x).state = .up)) || (match s.sw.active with
      | some y => (s.station y).state.onAir
      | none => false)) = true ↔
      ∀ x, (s.station x).state = .up → ∃ y, s.sw.active = some y ∧ (s.station y).state.onAir = true := by
    rw [Bool.or_eq_true, Bool.not_eq_true', ← Bool.not_eq_true, hup, ← imp_iff_not_or, forall_exists_index]
    refine forall₂_congr fun x _ => ?_
    cases s.sw.active <;> simp
  rw [State.stationsPromise, Bool.and_eq_true]
  exact (and_congr howed hserved).trans ⟨fun ⟨h, k⟩ => ⟨h, k⟩, fun h => ⟨h.owed, h.served⟩⟩

/-- The promise stands, and no station has come on the air. -/
structure PromiseKept (s t : State) : Prop where
  air : ∀ x, (t.station x).state.onAir = true → (s.station x).state.onAir = true
  promise : s.Promised → t.Promised

theorem PromiseKept.refl (s : State) : PromiseKept s s := ⟨fun _ => id, id⟩

theorem PromiseKept.trans {s t u : State} (h : PromiseKept s t) (k : PromiseKept t u) : PromiseKept s u :=
  ⟨fun x a => h.air x (k.air x a), fun p => k.promise (h.promise p)⟩

/-- The watch has not moved, and every entry held is pending as one held before. -/
theorem PromiseKept.of_held {s t : State} (hsw : t.sw = s.sw) (hheld : ∀ e ∈ t.lr.held, ∃ f ∈ s.lr.held, e.pend = f.pend) :
    PromiseKept s t := by
  have hst : ∀ x, t.station x = s.station x := fun x => by rw [State.station, State.station, hsw]
  refine ⟨fun x a => hst x ▸ a, fun p => ⟨fun x a e he => ?_, fun x a => ?_⟩⟩
  · obtain ⟨f, hf, hef⟩ := hheld e he
    exact hef ▸ p.owed x (hst x ▸ a) f hf
  · obtain ⟨y, hy, hair⟩ := p.served x (hst x ▸ a)
    exact ⟨y, hsw ▸ hy, hst y ▸ hair⟩

/-- Neither the watch nor the held-note table has moved. -/
theorem PromiseKept.of_eq {s t : State} (hsw : t.sw = s.sw) (hheld : t.lr.held = s.lr.held) : PromiseKept s t :=
  .of_held hsw fun e he => ⟨e, hheld ▸ he, rfl⟩

theorem LinksOnly.promiseKept {s t : State} (h : LinksOnly s t) : PromiseKept s t := .of_eq h.watch (by rw [h.lr])

/-! ## The active station (R174, R175) -/

/-- A station on the air becomes the active one. -/
theorem State.nowActive_promised {s : State} {x : Station} (c : ActiveCause)
    (howed : ∀ y, (s.station y).state.onAir = true → ∀ e ∈ s.lr.held, e.pend.get y = false)
    (hx : (s.station x).state.onAir = true) : (s.nowActive x c).Promised :=
  (State.broadcast_linksOnly _ _ _).promiseKept.promise ⟨howed, fun _ _ => ⟨x, rfl, hx⟩⟩

/-- There are two sound stations. -/
theorem Station.eq_other_of_ne {x y : Station} (h : y ≠ x) : y = x.other := by
  revert h
  cases x <;> cases y <;> decide

/-- A station has left the air: the other one takes its place where it is UP, and where it is not no station is (R174). -/
theorem State.offAir_promised {s : State} {x : Station} {was : Bool}
    (howed : ∀ y, (s.station y).state.onAir = true → ∀ e ∈ s.lr.held, e.pend.get y = false)
    (hx : (s.station x).state.onAir = false)
    (hserved : ¬(was = true ∧ s.sw.active = some x) →
      ∀ y, (s.station y).state = .up → ∃ z, s.sw.active = some z ∧ (s.station z).state.onAir = true) :
    (s.offAir x was).Promised := by
  have hother : ∀ y, (s.station y).state = .up → y = x.other := fun y hy =>
    Station.eq_other_of_ne fun h => by rw [← h, hy] at hx; cases hx
  have hlock : ∀ u, LinksOnly { s with lr := { s.lr with lock := none } } u ∨ u = s → u.sw = s.sw ∧ u.lr.held = s.lr.held := by
    rintro u (h | h)
    · exact ⟨h.watch, by rw [h.lr]⟩
    · exact ⟨by rw [h], by rw [h]⟩
  have key : ∀ u : State, u.sw = s.sw ∧ u.lr.held = s.lr.held → State.Promised
      (if was = true ∧ s.sw.active = some x then
        if (s.station x.other).state = .up then (u.nowActive x.other .loss).report .switched (some (.link x.other.link))
        else u.report .noSpare (some (.link x.link))
      else u) := by
    rintro u ⟨hsw, hheld⟩
    have hst : ∀ y, u.station y = s.station y := fun y => by rw [State.station, State.station, hsw]
    have huowed : ∀ y, (u.station y).state.onAir = true → ∀ e ∈ u.lr.held, e.pend.get y = false := fun y a e he =>
      howed y (hst y ▸ a) e (hheld ▸ he)
    split
    · split
      · next hup =>
        exact (State.report_linksOnly _ _ _).promiseKept.promise
          (State.nowActive_promised _ huowed (by rw [hst, hup]; rfl))
      · next hdown =>
        exact (State.report_linksOnly _ _ _).promiseKept.promise
          ⟨huowed, fun y hy => absurd (hother y (hst y ▸ hy) ▸ hst y ▸ hy) hdown⟩
    · next hn =>
      exact (PromiseKept.of_eq hsw hheld).promise ⟨howed, hserved hn⟩
  unfold State.offAir
  refine key _ (hlock _ ?_)
  split
  · exact .inl (State.broadcast_linksOnly _ _ _)
  · exact .inr rfl

/-- A station that has become UP: where the active one is not on the air, it takes its place (R174). -/
theorem State.joinsAir_promised {s : State} {x : Station}
    (howed : ∀ y, (s.station y).state.onAir = true → ∀ e ∈ s.lr.held, e.pend.get y = false)
    (hx : (s.station x).state = .up) : (s.joinsAir x).Promised := by
  have hair : (s.station x).state.onAir = true := by rw [hx]; rfl
  unfold State.joinsAir
  split
  · exact State.nowActive_promised _ howed hair
  · next y hy =>
    split
    · exact (State.report_linksOnly _ _ _).promiseKept.promise (State.nowActive_promised _ howed hair)
    · next hn =>
      refine ⟨howed, fun _ _ => ⟨y, hy, ?_⟩⟩
      by_contra hoff
      rw [Bool.not_eq_true, StationState.onAir_eq_false] at hoff
      exact hn ⟨fun h => hoff.1 (h ▸ hx), hoff⟩

/-! ## A change of station state (R168) -/

theorem PerStation.get_set {α : Type} (p : PerStation α) (x y : Station) (v : α) :
    (p.set x v).get y = if y = x then v else p.get y := by
  cases x <;> cases y <;> rfl

theorem State.station_setStation (s : State) (x y : Station) (r : StationRec) :
    (s.setStation x r).station y = if y = x then r else s.station y := PerStation.get_set _ _ _ _

/-- A station's record changes and the entries held are pending as before, but for that station. -/
structure Shifted (s t : State) (x : Station) (new : StationState) : Prop where
  state : (t.station x).state = new
  others : ∀ y, y ≠ x → t.station y = s.station y
  active : t.sw.active = s.sw.active
  pend : ∀ y, y ≠ x → ∀ e ∈ t.lr.held, ∃ f ∈ s.lr.held, e.pend.get y = f.pend.get y

theorem State.setStation_shifted (s : State) (x : Station) (r : StationRec) : Shifted s (s.setStation x r) x r.state :=
  ⟨by rw [State.station_setStation, if_pos rfl], fun y h => by rw [State.station_setStation, if_neg h], rfl,
    fun _ _ e he => ⟨e, he, rfl⟩⟩

theorem Shifted.unmarked {s t : State} {x : Station} {new : StationState} (h : Shifted s t x new) :
    Shifted s (t.unmarked x) x new := by
  refine ⟨h.state, h.others, h.active, fun y hy e he => ?_⟩
  obtain ⟨f, hf, rfl⟩ := List.mem_map.1 he
  obtain ⟨g, hg, hfg⟩ := h.pend y hy f hf
  exact ⟨g, hg, (PerStation.get_set_of_ne f.pend false hy).trans hfg⟩

theorem Shifted.marked {s t : State} {x : Station} {new : StationState} (h : Shifted s t x new) :
    Shifted s (t.marked x) x new := by
  refine ⟨h.state, h.others, h.active, fun y hy e he => ?_⟩
  obtain ⟨f, hf, rfl⟩ := List.mem_map.1 he
  obtain ⟨g, hg, hfg⟩ := h.pend y hy f hf
  refine ⟨g, hg, ?_⟩
  split
  · exact (PerStation.get_set_of_ne f.pend true hy).trans hfg
  · exact hfg

theorem State.clears_state (s : State) (x y : Station) : ((s.clears x).station y).state = (s.station y).state := by
  unfold State.clears
  split
  · rw [State.station_setStation]
    split
    · next h => rw [h]
    · rfl
  · rfl

theorem Shifted.clears {s t : State} {x : Station} {new : StationState} (h : Shifted s t x new) :
    Shifted s (t.clears x) x new := by
  refine ⟨(t.clears_state x x).trans h.state, fun y hy => ?_, (t.clears_active x).trans h.active, ?_⟩
  · refine Eq.trans ?_ (h.others y hy)
    unfold State.clears
    split
    · rw [State.station_setStation, if_neg hy]; rfl
    · rfl
  · rw [State.clears_lr]; exact h.pend

/-- The other stations are owed nothing more than before. -/
theorem Shifted.owed {s t : State} {x : Station} {new : StationState} (h : Shifted s t x new) (p : s.Promised)
    (hx : new.onAir = true → ∀ e ∈ t.lr.held, e.pend.get x = false) :
    ∀ y, (t.station y).state.onAir = true → ∀ e ∈ t.lr.held, e.pend.get y = false := fun y a e he => by
  by_cases hy : y = x
  · subst hy; exact hx (h.state ▸ a) e he
  · obtain ⟨f, hf, hef⟩ := h.pend y hy e he
    exact hef.trans (p.owed y (h.others y hy ▸ a) f hf)

/-- A change into a state off the air, with the review that follows it. -/
theorem Shifted.offAir {s t : State} {x : Station} {new : StationState} (h : Shifted s t x new) (hn : new.onAir = false) :
    PromiseKept s (t.offAir x (s.aired x)) := by
  have hoff : (t.station x).state.onAir = false := h.state.symm ▸ hn
  refine ⟨fun y a => ?_, fun p => State.offAir_promised (h.owed p fun k => absurd (hn.symm.trans k) (by decide)) hoff
    fun hnot y hy => ?_⟩
  · have hst : (t.offAir x (s.aired x)).station y = t.station y :=
      congrArg (PerStation.get · y) (t.offAir_stations x _)
    rw [hst] at a
    by_cases hy : y = x
    · subst hy; rw [hoff] at a; cases a
    · exact h.others y hy ▸ a
  · have hyx : y ≠ x := fun k => by rw [← k, hy] at hoff; cases hoff
    obtain ⟨z, hz, hair⟩ := p.served y (h.others y hyx ▸ hy)
    have hzx : z ≠ x := fun k => hnot ⟨(s.aired_eq x).trans (k ▸ hair), h.active.trans (k ▸ hz)⟩
    exact ⟨z, h.active.trans hz, (h.others z hzx).symm ▸ hair⟩

/-- A station leaves the air, or stays off it. -/
theorem State.moved_promiseKept (s : State) (x : Station) {new : StationState} (hn : new.onAir = false) :
    PromiseKept s (s.moved x new) := by
  have h := s.setStation_shifted x
  cases new with
  | joining => exact Shifted.offAir (h _).marked.clears hn
  | down => exact Shifted.offAir (h _).unmarked hn
  | absent => exact Shifted.offAir (h _).unmarked hn
  | up => cases hn
  | suspect => cases hn

theorem State.changeStation_promiseKept (s : State) (x : Station) {new : StationState} (f : Option FaultKind)
    (hn : new.onAir = false) : PromiseKept s (s.changeStation x new f) := by
  rw [State.changeStation_eq]
  cases f with
  | none => exact s.moved_promiseKept x hn
  | some k => exact (s.moved_promiseKept x hn).trans (State.report_linksOnly _ _ _).promiseKept

/-- A station that is owed nothing becomes UP out of JOINING or SUSPECT. -/
theorem State.changeStation_up_promised {s : State} {x : Station} (p : s.Promised)
    (howed : ∀ e ∈ s.lr.held, e.pend.get x = false) (hold : (s.station x).state = .joining ∨ (s.station x).state = .suspect) :
    (s.changeStation x .up none).Promised := by
  rw [State.changeStation_eq]
  have h := s.setStation_shifted x { s.station x with state := .up, phase := .none }
  simp only [State.moved, if_pos hold]
  exact State.joinsAir_promised (h.owed p fun _ => howed) h.state

/-- A station that is UP becomes SUSPECT, and stays on the air. -/
theorem State.changeStation_suspect_promised {s : State} {x : Station} (f : Option FaultKind) (p : s.Promised)
    (hold : (s.station x).state = .up) : (s.changeStation x .suspect f).Promised := by
  have h := s.setStation_shifted x { s.station x with state := .suspect, phase := .none }
  have hair : ∀ y, (s.station y).state.onAir = true → ((s.moved x .suspect).station y).state.onAir = true := fun y a => by
    by_cases hy : y = x
    · rw [hy, State.moved, h.state]; rfl
    · rw [State.moved, h.others y hy]; exact a
  have hmoved : (s.moved x .suspect).Promised := by
    refine ⟨h.owed p fun _ => p.owed x (by rw [hold]; rfl), fun y hy => ?_⟩
    have hyx : y ≠ x := fun k => by rw [k, State.moved, h.state] at hy; cases hy
    obtain ⟨z, hz, a⟩ := p.served y (h.others y hyx ▸ hy)
    exact ⟨z, hz, hair z a⟩
  rw [State.changeStation_eq]
  cases f with
  | none => exact hmoved
  | some k => exact (State.report_linksOnly _ _ _).promiseKept.promise hmoved

/-- A station's counters change, its state does not. -/
theorem State.setStation_promiseKept {s : State} {x : Station} {r : StationRec} (h : r.state = (s.station x).state) :
    PromiseKept s (s.setStation x r) := by
  have hst : ∀ y, ((s.setStation x r).station y).state = (s.station y).state := fun y => by
    rw [State.station_setStation]
    split
    · next hy => rw [hy, h]
    · rfl
  refine ⟨fun y a => hst y ▸ a, fun p => ⟨fun y a => p.owed y (hst y ▸ a), fun y a => ?_⟩⟩
  obtain ⟨z, hz, hair⟩ := p.served y (hst y ▸ a)
  exact ⟨z, hz, (hst z).symm ▸ hair⟩

/-! ## Mirroring (R169, R170) -/

theorem State.refused_promiseKept (s : State) (x : Station) : PromiseKept s (s.refused x) := by
  unfold State.refused
  split
  · exact s.changeStation_promiseKept _ _ rfl
  · exact s.changeStation_promiseKept _ _ rfl
  · exact s.changeStation_promiseKept _ _ rfl
  · exact PromiseKept.refl s

theorem State.offAir_state {s t : State} (x : Station) (was : Bool) (h : t = s.offAir x was) :
    t.station x = s.station x := by
  rw [h]; exact congrArg (PerStation.get · x) (s.offAir_stations x was)

/-- A change to JOINING leaves the station off the air. -/
theorem State.changeStation_joining_state (s : State) (x : Station) (f : Option FaultKind) :
    ((s.changeStation x .joining f).station x).state.onAir = false := by
  have h : ((s.moved x .joining).station x).state = .joining :=
    (congrArg StationRec.state (State.offAir_state x _ rfl)).trans (s.setStation_shifted x _).marked.clears.state
  have hoff : ((s.moved x .joining).station x).state.onAir = false := by rw [h]; rfl
  rw [State.changeStation_eq]
  cases f with
  | none => exact hoff
  | some k =>
    rw [← Bool.not_eq_true]
    exact fun a => absurd ((State.report_linksOnly _ _ _).promiseKept.air x a) (by rw [hoff]; decide)

/-- A station that refused an event is not on the air any more (R170). -/
theorem State.refused_offAir (s : State) (x : Station) : ((s.refused x).station x).state.onAir = false := by
  unfold State.refused
  split
  · exact s.changeStation_joining_state _ _
  · exact s.changeStation_joining_state _ _
  · exact s.changeStation_joining_state _ _
  · next hup hsuspect _ =>
    rw [StationState.onAir_eq_false]
    exact ⟨hup, hsuspect⟩

theorem State.offerEvent_promiseKept (s : State) (x : Station) (e : Event) : PromiseKept s (s.offerEvent x e).1 := by
  unfold State.offerEvent
  split
  · exact s.refused_promiseKept x
  · split
    · exact (s.postNotice_linksOnly _ _).promiseKept
    · exact PromiseKept.refl s

/-- An event offered where it is wanted: whoever refused it is off the air. -/
theorem State.offerIf_kept (s : State) (x : Station) (e : Event) (w : Bool) :
    PromiseKept s (if w then s.offerEvent x e else (s, false)).1 ∧
      ((if w then s.offerEvent x e else (s, false)).2 = true →
        (((if w then s.offerEvent x e else (s, false)).1.station x).state.onAir = false)) := by
  cases w with
  | false => exact ⟨PromiseKept.refl s, fun h => nomatch h⟩
  | true =>
    refine ⟨s.offerEvent_promiseKept x e, fun h => ?_⟩
    simp only [if_true, State.offerEvent] at h ⊢
    split at h
    · next hr => rw [if_pos hr]; exact s.refused_offAir x
    · split at h <;> cases h

/-- The stations that a mirrored event names as refusing it are off the air. -/
def OffAir (r : State × PerStation Bool) : Prop := ∀ x, r.2.get x = true → (r.1.station x).state.onAir = false

theorem PromiseKept.offAir {s t : State} (h : PromiseKept s t) {x : Station} (k : (s.station x).state.onAir = false) :
    (t.station x).state.onAir = false := by
  rw [← Bool.not_eq_true] at k ⊢
  exact mt (h.air x) k

theorem State.mirror_kept (s : State) (w : PerStation Bool) (e : Event) :
    PromiseKept s (s.mirror w e).1 ∧ OffAir (s.mirror w e) := by
  have hchoose : PromiseKept s s.choose := .of_eq rfl rfl
  unfold State.mirror
  split
  · split
    · obtain ⟨ha, hra⟩ := s.choose.offerIf_kept .a e w.a
      obtain ⟨hb, hrb⟩ := (if w.a then s.choose.offerEvent .a e else (s.choose, false)).1.offerIf_kept .b e w.b
      refine ⟨(hchoose.trans ha).trans hb, fun x hx => ?_⟩
      cases x with
      | a => exact hb.offAir (hra hx)
      | b => exact hrb hx
    · obtain ⟨hb, hrb⟩ := s.choose.offerIf_kept .b e w.b
      obtain ⟨ha, hra⟩ := (if w.b then s.choose.offerEvent .b e else (s.choose, false)).1.offerIf_kept .a e w.a
      refine ⟨(hchoose.trans hb).trans ha, fun x hx => ?_⟩
      cases x with
      | a => exact hra hx
      | b => exact ha.offAir (hrb hx)
  · refine ⟨((s.admitEvent_linksOnly .a e w.a).trans (State.admitEvent_linksOnly _ .b e w.b)).promiseKept, fun x hx => ?_⟩
    cases x <;> cases hx

theorem State.mirrorLive_kept (s : State) (e : Event) : PromiseKept s (s.mirrorLive e).1 ∧ OffAir (s.mirrorLive e) :=
  s.mirror_kept _ e

theorem State.mirrorOff_promiseKept (s : State) (p : PerStation Bool) (e : Event) : PromiseKept s (s.mirrorOff p e) :=
  (s.mirror_kept _ e).1

theorem State.panicStation_promiseKept (s : State) (x : Station) : PromiseKept s (s.panicStation x) := by
  unfold State.panicStation
  split
  · split
    · exact (s.report_linksOnly _ _).promiseKept.trans (State.refused_promiseKept _ x)
    · split
      · exact (s.postNotice_linksOnly _ _).promiseKept
      · exact PromiseKept.refl s
  · exact PromiseKept.refl s

theorem State.panicStations_promiseKept (s : State) : PromiseKept s s.panicStations := by
  have hchoose : PromiseKept s s.choose := .of_eq rfl rfl
  unfold State.panicStations
  simp only
  split
  · split
    · exact (hchoose.trans (State.panicStation_promiseKept _ .a)).trans (State.panicStation_promiseKept _ .b)
    · exact (hchoose.trans (State.panicStation_promiseKept _ .b)).trans (State.panicStation_promiseKept _ .a)
  · exact (s.panicStation_promiseKept .a).trans (State.panicStation_promiseKept _ .b)

end Sys2Proof.Machine
end

section
/-! PROOFS. The stations' promise through program entries, swaps, notes, controllers and the inputs: they offer events, and move the
held-note table without a new pending mark for a station on the air (R88, R89, R91, R100). -/

namespace Sys2Proof.Machine

/-! ## Outputs and program entries -/

theorem State.setOut_promiseKept (s : State) (o : OutPort) (x : MidiOut) : PromiseKept s (s.setOut o x) := .of_eq rfl rfl

theorem State.report_promiseKept (s : State) (k : FaultKind) (p : Option FaultPort) : PromiseKept s (s.report k p) :=
  (s.report_linksOnly k p).promiseKept

theorem State.offerNoteOff_promiseKept (s : State) (o : OutPort) (c : Chan) (k v : Nat) :
    PromiseKept s (s.offerNoteOff o c k v) := by
  unfold State.offerNoteOff
  simp only
  split
  · exact PromiseKept.refl s
  · exact s.setOut_promiseKept _ _

theorem State.offerNoteOn_promiseKept (s : State) (o : OutPort) (c : Chan) (k v : Nat) :
    PromiseKept s (s.offerNoteOn o c k v).1 := by
  unfold State.offerNoteOn
  simp only
  split
  · split
    · exact s.report_promiseKept _ _
    · split
      · exact s.report_promiseKept _ _
      · exact s.setOut_promiseKept _ _
  · exact PromiseKept.refl s

theorem State.offerGroup_promiseKept (s : State) (o : OutPort) (ms : List OutMsg) : PromiseKept s (s.offerGroup o ms).1 := by
  unfold State.offerGroup
  simp only
  split
  · split
    · exact s.setOut_promiseKept _ _
    · exact s.report_promiseKept _ _
  · exact PromiseKept.refl s

theorem State.offerCoalescible_promiseKept (s : State) (o : OutPort) (m : OutMsg) :
    PromiseKept s (s.offerCoalescible o m).1 := by
  unfold State.offerCoalescible
  simp only
  split
  · split
    · exact s.setOut_promiseKept _ _
    · split
      · exact s.setOut_promiseKept _ _
      · exact s.report_promiseKept _ _
  · exact PromiseKept.refl s

theorem State.sendProgram_promiseKept (s : State) (e : ProgEntry) : PromiseKept s (s.sendProgram e).1 := by
  unfold State.sendProgram
  split
  · exact s.offerGroup_promiseKept _ _
  · exact (s.mirrorLive_kept _).1

theorem State.sendPrograms_promiseKept (s : State) (es : List ProgEntry) : PromiseKept s (s.sendPrograms es).1 := by
  unfold State.sendPrograms
  refine foldl_rel (fun (a b : State × Bool) => PromiseKept a.1 b.1) (fun a => PromiseKept.refl a.1) PromiseKept.trans ?_ es
    (s, false)
  exact fun a e => a.1.sendProgram_promiseKept e

/-! ## Staging and swaps -/

/-- A change of the maps, the claim, the lock and the slots alone. -/
theorem State.maps_promiseKept (s : State) (m : LiveMap) (g : Option Staging) (c : Option CueClaim) (l : Option Link)
    (q : List Slot) :
    PromiseKept s { s with lr := { live := m, staged := g, claim := c, lock := l, held := s.lr.held, slots := q } } :=
  .of_eq rfl rfl

theorem State.stage_promiseKept (s : State) (n : Nat) (p : SwapPoint) (o : Origin) : PromiseKept s (s.stage n p o) :=
  s.maps_promiseKept _ _ _ _ _

theorem State.settleClaim_promiseKept (s : State) : PromiseKept s s.settleClaim := by
  unfold State.settleClaim
  split
  · exact s.maps_promiseKept _ _ _ _ _
  · exact PromiseKept.refl s

theorem State.unstage_promiseKept (s : State) : PromiseKept s s.unstage :=
  (s.maps_promiseKept _ _ _ _ _).trans (State.settleClaim_promiseKept _)

theorem State.stageCommand_promiseKept (s : State) (c n : Nat) : PromiseKept s (s.stageCommand c n) := by
  unfold State.stageCommand
  simp only
  split
  · split <;> exact s.maps_promiseKept _ _ _ _ _
  · exact s.maps_promiseKept _ _ _ _ _

theorem State.withdraw_promiseKept (s : State) (c : Nat) : PromiseKept s (s.withdraw c) := by
  have key : ∀ u, PromiseKept s u → PromiseKept s (if u.lr.staged.map Staging.origin = some (.cue c) then u.unstage else u) := by
    intro u h
    split
    · exact h.trans u.unstage_promiseKept
    · exact h
  refine key _ ?_
  split
  · exact s.maps_promiseKept _ _ _ _ _
  · exact PromiseKept.refl s

theorem State.sceneNotice_promiseKept (s : State) (c : SceneCause) (d : Option Nat) (o : Option Origin) :
    PromiseKept s (s.sceneNotice c d o) := (s.sceneNotice_linksOnly c d o).promiseKept

theorem State.releaseLock_promiseKept (s : State) : PromiseKept s s.releaseLock :=
  (s.maps_promiseKept _ _ _ _ _).trans (State.sceneNotice_promiseKept _ _ _ _)

theorem State.swap_promiseKept (s : State) (g : Staging) : PromiseKept s (s.swap g) :=
  (((s.maps_promiseKept _ _ _ _ _).trans (State.sendPrograms_promiseKept _ _)).trans
    (State.sceneNotice_promiseKept _ _ _ _)).trans (State.unstage_promiseKept _)

theorem State.skip_promiseKept (s : State) (g : Staging) : PromiseKept s (s.skip g) :=
  ((s.maps_promiseKept _ _ _ _ _).trans (State.sceneNotice_promiseKept _ _ _ _)).trans (State.settleClaim_promiseKept _)

theorem State.reachPoint_promiseKept (s : State) (g : Staging) : PromiseKept s (s.reachPoint g) := by
  unfold State.reachPoint
  split
  · exact s.swap_promiseKept g
  · exact s.skip_promiseKept g

theorem State.routerBeat_promiseKept (s : State) (b : Bool) : PromiseKept s (s.routerBeat b) := by
  unfold State.routerBeat
  split
  · exact PromiseKept.refl s
  · split
    · exact s.reachPoint_promiseKept _
    · split
      · exact s.reachPoint_promiseKept _
      · exact PromiseKept.refl s
    · exact PromiseKept.refl s
    · exact PromiseKept.refl s

theorem State.swapCommand_promiseKept (s : State) (c n : Nat) : PromiseKept s (s.swapCommand c n).1 := by
  unfold State.swapCommand
  split
  · split
    · split
      · exact s.swap_promiseKept _
      · exact (s.maps_promiseKept _ _ _ _ _).trans (State.swap_promiseKept _ _)
    · exact (s.maps_promiseKept _ _ _ _ _).trans (State.swap_promiseKept _ _)
  · exact (s.maps_promiseKept _ _ _ _ _).trans (State.sceneNotice_promiseKept _ _ _ _)

theorem State.restartMap_promiseKept (s : State) : PromiseKept s s.restartMap := by
  unfold State.restartMap
  simp only
  split
  · exact s.maps_promiseKept _ _ _ _ _
  · exact (s.maps_promiseKept _ _ _ _ _).trans (State.releaseLock_promiseKept _)

/-! ## Notes -/

/-- The held-note table has only lost entries, or had entries replaced that are pending as they were. -/
theorem State.held_promiseKept (s : State) {held : List HeldEntry} (h : ∀ e ∈ held, ∃ f ∈ s.lr.held, e.pend = f.pend) :
    PromiseKept s { s with lr := { s.lr with held := held } } := .of_held rfl h

theorem State.sublist_promiseKept (s : State) {held : List HeldEntry} (h : held.Sublist s.lr.held) :
    PromiseKept s { s with lr := { s.lr with held := held } } := s.held_promiseKept fun e he => ⟨e, h.subset he, rfl⟩

theorem State.releaseTarget_promiseKept (s : State) (p : PerStation Bool) (r : Nat) (t : Target) :
    PromiseKept s (s.releaseTarget p r t) := by
  unfold State.releaseTarget
  split
  · exact s.offerNoteOff_promiseKept _ _ _ _
  · exact s.mirrorOff_promiseKept _ _

theorem State.releaseTargets_promiseKept (s : State) (p : PerStation Bool) (r : Nat) (ts : List Target) :
    PromiseKept s (s.releaseTargets p r ts) :=
  foldl_rel PromiseKept PromiseKept.refl PromiseKept.trans (fun s t => s.releaseTarget_promiseKept p r t) ts s

theorem State.releaseEntry_promiseKept (s : State) (e : HeldEntry) (r : Nat) : PromiseKept s (s.releaseEntry e r) :=
  (s.sublist_promiseKept (List.erase_sublist ..)).trans (State.releaseTargets_promiseKept _ _ _ _)

theorem State.releaseWhere_promiseKept (p : HeldEntry → Bool) (r : HeldEntry → Nat) :
    ∀ (n : Nat) (s : State), PromiseKept s (State.releaseWhere p r n s)
  | 0, s => PromiseKept.refl s
  | n + 1, s => by
    unfold State.releaseWhere
    split
    · exact PromiseKept.refl s
    · exact (s.releaseEntry_promiseKept _ _).trans (State.releaseWhere_promiseKept p r n _)

theorem State.releaseAll_promiseKept (s : State) (p : HeldEntry → Bool) (r : HeldEntry → Nat) :
    PromiseKept s (s.releaseAll p r) := State.releaseWhere_promiseKept p r _ s

theorem State.retrigger_promiseKept (s : State) (i : InPort) (c : Chan) (k : Nat) : PromiseKept s (s.retrigger i c k) := by
  unfold State.retrigger
  split
  · exact s.releaseEntry_promiseKept _ _
  · exact PromiseKept.refl s

theorem State.steal_promiseKept (s : State) : PromiseKept s s.steal := by
  unfold State.steal
  split
  · exact PromiseKept.refl s
  · split
    · exact (s.releaseEntry_promiseKept _ _).trans (State.report_promiseKept _ _ _)
    · split
      · exact (s.releaseEntry_promiseKept _ _).trans (State.report_promiseKept _ _ _)
      · exact PromiseKept.refl s

/-- The offers of a note-on keep the promise, and mark the new entry pending only for stations off the air. -/
structure OffersKept (a b : NoteOffers) : Prop where
  kept : PromiseKept a.state b.state
  pend : (∀ x, a.pend.get x = true → (a.state.station x).state.onAir = false) →
    ∀ x, b.pend.get x = true → (b.state.station x).state.onAir = false

theorem OffersKept.refl (a : NoteOffers) : OffersKept a a := ⟨PromiseKept.refl _, id⟩

theorem OffersKept.trans {a b c : NoteOffers} (h : OffersKept a b) (k : OffersKept b c) : OffersKept a c :=
  ⟨h.kept.trans k.kept, fun p => k.pend (h.pend p)⟩

theorem offerCandidate_offersKept (a : NoteOffers) (t : Target) : OffersKept a (offerCandidate a t) := by
  unfold offerCandidate
  split
  · next o _ =>
    have h := a.state.offerNoteOn_promiseKept o t.chan t.key t.vel
    simp only
    split <;> exact ⟨h, fun p x hx => h.offAir (p x hx)⟩
  · obtain ⟨h, hoff⟩ := a.state.mirrorLive_kept { replay := false, chan := t.chan, kind := .noteOn t.key t.vel }
    have hor : ∀ (p q : PerStation Bool) (x : Station),
        (PerStation.mk (p.a || q.a) (p.b || q.b)).get x = true → p.get x = true ∨ q.get x = true := by
      rintro p q (_ | _) hx <;> exact Bool.or_eq_true_iff.1 hx
    exact ⟨h, fun p x hx => (hor _ _ x hx).elim (fun k => h.offAir (p x k)) (hoff x)⟩

/-- A new entry that is pending for no station on the air enters the table. -/
theorem State.enter_promiseKept {s : State} {e : HeldEntry}
    (h : ∀ x, e.pend.get x = true → (s.station x).state.onAir = false) :
    PromiseKept s { s with lr := { s.lr with held := s.lr.held ++ [e] } } := by
  refine ⟨fun _ => id, fun p => ⟨fun x a f hf => ?_, p.served⟩⟩
  rcases List.mem_append.1 hf with hf | hf
  · exact p.owed x a f hf
  · rw [List.mem_singleton.1 hf, ← Bool.not_eq_true]
    exact fun hx => absurd ((h x hx).symm.trans a) (by decide)

theorem State.sound_promiseKept (s : State) (i : InPort) (c : Chan) (k : Nat) (ts : List Target) :
    PromiseKept s (s.sound i c k ts) := by
  have h : OffersKept s.noOffers (ts.foldl offerCandidate s.noOffers) :=
    foldl_rel OffersKept OffersKept.refl OffersKept.trans offerCandidate_offersKept ts _
  rcases s.sound_eq i c k ts with ⟨hs, -⟩ | ⟨-, hs⟩
  · rw [hs]; exact h.kept
  · rw [hs]; exact h.kept.trans (State.enter_promiseKept (h.pend fun x hx => by cases x <;> cases hx))

theorem State.noteOnEvent_promiseKept (s : State) (i : InPort) (c : Chan) (k v : Nat) :
    PromiseKept s (s.noteOnEvent i c k v) := by
  unfold State.noteOnEvent
  simp only
  split
  · exact s.retrigger_promiseKept i c k
  · exact ((s.retrigger_promiseKept i c k).trans (State.steal_promiseKept _)).trans (State.sound_promiseKept _ _ _ _ _)

theorem State.sustainEntry_promiseKept {s : State} {e : HeldEntry} (he : e ∈ s.lr.held) (r : Nat) :
    PromiseKept s (s.sustainEntry e r) := by
  unfold State.sustainEntry
  simp only
  refine PromiseKept.trans (s.held_promiseKept fun f hf => ?_) (State.releaseTargets_promiseKept _ _ _ _)
  split at hf
  · exact ⟨f, List.mem_of_mem_erase hf, rfl⟩
  · obtain ⟨g, hg, rfl⟩ := List.mem_map.1 hf
    split
    · exact ⟨e, he, rfl⟩
    · exact ⟨g, hg, rfl⟩

theorem State.noteOffEvent_promiseKept (s : State) (i : InPort) (c : Chan) (k r : Nat) (b : Bool) :
    PromiseKept s (s.noteOffEvent i c k r b) := by
  unfold State.noteOffEvent
  split
  · exact PromiseKept.refl s
  · next e he =>
    split
    · exact PromiseKept.refl s
    · split
      · exact State.sustainEntry_promiseKept (List.mem_of_find?_eq_some he) _
      · exact s.releaseEntry_promiseKept _ _

theorem State.sustainEvent_promiseKept (s : State) (i : InPort) (c : Chan) (b : Bool) :
    PromiseKept s (s.sustainEvent i c b) := by
  unfold State.sustainEvent
  split
  · exact PromiseKept.refl s
  · exact s.releaseAll_promiseKept _ _

theorem State.allNotesOffEvent_promiseKept (s : State) (i : InPort) (c : Chan) : PromiseKept s (s.allNotesOffEvent i c) :=
  s.releaseAll_promiseKept _ _

theorem State.inputLostEvent_promiseKept (s : State) (i : InPort) : PromiseKept s (s.inputLostEvent i) :=
  (s.releaseAll_promiseKept _ _).trans (State.maps_promiseKept _ _ _ _ _ _)

/-! ## Controllers -/

theorem State.sendCoalescible_promiseKept (s : State) (d : Dest) (m : OutMsg) (e : Event) :
    PromiseKept s (s.sendCoalescible d m e) := by
  unfold State.sendCoalescible
  split
  · exact s.offerCoalescible_promiseKept _ _
  · exact (s.mirrorLive_kept _).1

theorem State.sendSlot_promiseKept (s : State) (k : SlotKey) (f : Nat) : PromiseKept s (s.sendSlot k f) :=
  foldl_rel PromiseKept PromiseKept.refl PromiseKept.trans (fun s _ => s.sendCoalescible_promiseKept _ _ _) _ s

/-- A change of the filter slots alone. -/
theorem State.slots_promiseKept (s : State) (q : List Slot) : PromiseKept s { s with lr := { s.lr with slots := q } } :=
  .of_eq rfl rfl

theorem State.slotTakes_promiseKept (s : State) (k : SlotKey) (v a d m : Nat) : PromiseKept s (s.slotTakes k v a d m) := by
  unfold State.slotTakes
  simp only
  split
  · exact s.slots_promiseKept _
  · split
    · split
      · exact (s.slots_promiseKept _).trans (State.sendSlot_promiseKept _ _ _)
      · exact s.slots_promiseKept _
    · exact s.slots_promiseKept _

theorem State.slotExpiry_promiseKept (s : State) (k : SlotKey) : PromiseKept s (s.slotExpiry k) := by
  unfold State.slotExpiry
  split
  · exact PromiseKept.refl s
  · split
    · exact PromiseKept.refl s
    · simp only
      split
      · exact s.slots_promiseKept _
      · exact (s.slots_promiseKept _).trans (State.sendSlot_promiseKept _ _ _)

theorem State.forwardTimeExpiry_promiseKept (s : State) (k : SlotKey) : PromiseKept s (s.forwardTimeExpiry k) := by
  unfold State.forwardTimeExpiry
  split
  · exact PromiseKept.refl s
  · exact s.slots_promiseKept _

theorem State.bendEvent_promiseKept (s : State) (i : InPort) (c : Chan) (v : Nat) : PromiseKept s (s.bendEvent i c v) :=
  foldl_rel PromiseKept PromiseKept.refl PromiseKept.trans (fun s _ => s.sendCoalescible_promiseKept _ _ _) _ s

theorem State.programEvent_promiseKept (s : State) (i : InPort) (c : Chan) (p : Nat) :
    PromiseKept s (s.programEvent i c p) :=
  foldl_rel PromiseKept PromiseKept.refl PromiseKept.trans (fun s _ => s.sendProgram_promiseKept _) _ s

/-! ## Inputs -/

theorem State.setIn_promiseKept (s : State) (i : InPort) (x : MidiIn) : PromiseKept s (s.setIn i x) := .of_eq rfl rfl

theorem State.byteSeen_promiseKept (s : State) (i : InPort) (b : Bool) : PromiseKept s (s.byteSeen i b) :=
  s.setIn_promiseKept _ _

theorem State.sustainMessage_promiseKept (s : State) (i : InPort) (c : Chan) (v : Nat) :
    PromiseKept s (s.sustainMessage i c v) := by
  unfold State.sustainMessage
  simp only
  split
  · exact PromiseKept.refl s
  · exact (s.setIn_promiseKept _ _).trans (State.sustainEvent_promiseKept _ _ _ _)

theorem State.handleMessage_promiseKept (s : State) (i : InPort) (c : Chan) (m : ChanMsg) :
    PromiseKept s (s.handleMessage i c m) := by
  cases m with
  | noteOn k v =>
    simp only [State.handleMessage]
    split
    · exact s.noteOffEvent_promiseKept _ _ _ _ _
    · exact s.noteOnEvent_promiseKept _ _ _ _
  | noteOff k v => exact s.noteOffEvent_promiseKept _ _ _ _ _
  | polyPressure k v => exact PromiseKept.refl s
  | control n v =>
    simp only [State.handleMessage]
    split
    · exact s.sustainMessage_promiseKept _ _ _
    · split
      · exact s.allNotesOffEvent_promiseKept _ _
      · split
        · exact PromiseKept.refl s
        · exact s.slotTakes_promiseKept _ _ _ _ _
  | program p => exact s.programEvent_promiseKept _ _ _
  | pressure v => exact s.slotTakes_promiseKept _ _ _ _ _
  | bend a b => exact s.bendEvent_promiseKept _ _ _

theorem State.completeMessage_promiseKept (s : State) (i : InPort) (c : Chan) (m : ChanMsg) :
    PromiseKept s (s.completeMessage i c m) := by
  unfold State.completeMessage
  split
  · exact s.handleMessage_promiseKept i c m
  · split
    · exact s.handleMessage_promiseKept i c m
    · exact PromiseKept.refl s

theorem State.midiByte_promiseKept (s : State) (i : InPort) (b : Byte) : PromiseKept s (s.midiByte i b) := by
  unfold State.midiByte
  split
  · simp only
    split
    · exact s.byteSeen_promiseKept i _
    · split
      · exact (s.byteSeen_promiseKept i _).trans (State.setIn_promiseKept _ _ _)
      · split
        · exact (s.byteSeen_promiseKept i _).trans (State.setIn_promiseKept _ _ _)
        · exact ((s.byteSeen_promiseKept i _).trans (State.setIn_promiseKept _ _ _)).trans
            (State.completeMessage_promiseKept _ _ _ _)
  · exact PromiseKept.refl s

theorem State.midiBytes_promiseKept (s : State) (i : InPort) (bs : List Byte) : PromiseKept s (s.midiBytes i bs) :=
  foldl_rel PromiseKept PromiseKept.refl PromiseKept.trans (fun s b => s.midiByte_promiseKept i b) bs s

theorem State.messageArrives_promiseKept (s : State) (i : InPort) (c : Chan) (m : ChanMsg) :
    PromiseKept s (s.messageArrives i c m) := by
  unfold State.messageArrives
  split
  · exact ((s.byteSeen_promiseKept i _).trans (State.setIn_promiseKept _ _ _)).trans
      (State.completeMessage_promiseKept _ _ _ _)
  · exact PromiseKept.refl s

theorem State.framingError_promiseKept (s : State) (i : InPort) : PromiseKept s (s.framingError i) := by
  unfold State.framingError
  split
  · exact ((s.byteSeen_promiseKept i _).trans (State.setIn_promiseKept _ _ _)).trans (State.report_promiseKept _ _ _)
  · exact PromiseKept.refl s

theorem State.sensingLoss_promiseKept (s : State) (i : InPort) : PromiseKept s (s.sensingLoss i) := by
  unfold State.sensingLoss
  simp only
  split
  · exact ((s.setIn_promiseKept _ _).trans (State.inputLostEvent_promiseKept _ _)).trans (State.report_promiseKept _ _ _)
  · exact PromiseKept.refl s

theorem State.dropChannel_promiseKept (s : State) (i : InPort) (c : Chan) : PromiseKept s (s.dropChannel i c) :=
  (s.setIn_promiseKept _ _).trans (State.allNotesOffEvent_promiseKept _ _ _)

theorem State.applyInput_promiseKept (s : State) (i : InPort) (t : InSettings) : PromiseKept s (s.applyInput i t) := by
  unfold State.applyInput
  simp only
  split
  · exact (s.setIn_promiseKept _ _).trans (State.inputLostEvent_promiseKept _ _)
  · exact s.setIn_promiseKept _ _
  · exact (s.setIn_promiseKept _ _).trans
      (foldl_rel PromiseKept PromiseKept.refl PromiseKept.trans (fun s c => s.dropChannel_promiseKept i c) _ _)
  · exact s.setIn_promiseKept _ _

/-- PANIC empties the table. -/
theorem State.panic_promiseKept (s : State) : PromiseKept s s.panic := by
  have hflush : PromiseKept s { s with op := s.op.map (MidiOut.panic · s.now) } := .of_eq rfl rfl
  exact (hflush.trans (State.panicStations_promiseKept _)).trans (.of_held rfl fun e he => nomatch he)

end Sys2Proof.Machine
end

section
/-! PROOFS. What every operation inside a step keeps (R59, R100, R119, R122, R173, R174, R180): the tables in their one canonical
form, and the stations' promise. The watch, the Tempo Engine, the Cue Sequencer, beats and the follower. -/

namespace Sys2Proof.Machine

/-! ## The two promises of a step -/

/-- Every table is in its one canonical form. -/
structure State.Tidied (s : State) : Prop where
  scenes : Table.sorted s.cs.scenes = true
  cues : Table.sorted s.cs.cues = true
  songs : Table.sorted s.cs.songs = true
  patterns : Table.sorted s.ck.patterns = true
  plain : ∀ e ∈ s.ck.patterns, e.2 ≠ defaultPattern
  copy : s.st.op.tidy = true
  flash : s.st.flash.tidy = true

theorem State.tidy_iff (s : State) : s.tidy = true ↔ s.Tidied := by
  simp only [State.tidy, Bool.and_eq_true, List.all_eq_true, decide_eq_true_eq]
  exact ⟨fun ⟨⟨⟨⟨⟨⟨h1, h2⟩, h3⟩, h4⟩, h5⟩, h6⟩, h7⟩ => ⟨h1, h2, h3, h4, h5, h6, h7⟩,
    fun h => ⟨⟨⟨⟨⟨⟨h.scenes, h.cues⟩, h.songs⟩, h.patterns⟩, h.plain⟩, h.copy⟩, h.flash⟩⟩

/-- The tables stay in their canonical form, and the stations' promise stands. -/
structure Tended (s t : State) : Prop where
  tidied : s.Tidied → t.Tidied
  promise : s.Promised → t.Promised

theorem Tended.refl (s : State) : Tended s s := ⟨id, id⟩

theorem Tended.trans {s t u : State} (h : Tended s t) (k : Tended t u) : Tended s u :=
  ⟨fun x => k.tidied (h.tidied x), fun x => k.promise (h.promise x)⟩

/-- A step that may be left out. -/
theorem Tended.ite {c : Prop} [Decidable c] {s t : State} (h : Tended s t) : Tended s (if c then t else s) := by
  split
  · exact h
  · exact Tended.refl s

/-- A change of links, watch, router, ports and Fault Log alone. -/
theorem Tended.of_promise {s t : State} (hcs : t.cs = s.cs) (hck : t.ck = s.ck) (hst : t.st = s.st)
    (h : s.Promised → t.Promised) : Tended s t := by
  refine ⟨fun k => ?_, h⟩
  constructor
  · rw [hcs]; exact k.scenes
  · rw [hcs]; exact k.cues
  · rw [hcs]; exact k.songs
  · rw [hck]; exact k.patterns
  · rw [hck]; exact k.plain
  · rw [hst]; exact k.copy
  · rw [hst]; exact k.flash

theorem PortsOnly.tended {s t : State} (h : PortsOnly s t) (k : PromiseKept s t) : Tended s t :=
  .of_promise h.cs h.ck h.st k.promise

theorem RouterOnly.tended {s t : State} (h : RouterOnly s t) (k : PromiseKept s t) : Tended s t := h.portsOnly.tended k

theorem WatchOnly.tended {s t : State} (h : WatchOnly s t) (k : s.Promised → t.Promised) : Tended s t :=
  .of_promise h.cs h.ck h.st k

theorem LinksOnly.tended {s t : State} (h : LinksOnly s t) : Tended s t := h.watchOnly.tended h.promiseKept.promise

/-- A change that touches neither the tables and the store, nor the watch and the held-note table. -/
theorem Tended.of_eq {s t : State} (hcs : t.cs = s.cs) (hck : t.ck = s.ck) (hst : t.st = s.st) (hsw : t.sw = s.sw)
    (hheld : t.lr.held = s.lr.held) : Tended s t := .of_promise hcs hck hst (PromiseKept.of_eq hsw hheld).promise

theorem State.withTe_tended (s : State) (te : TempoEngine) : Tended s (s.withTe te) := .of_eq rfl rfl rfl rfl rfl

/-- A change of the sequencer that leaves the scenes and the songs, and the cues in order. -/
theorem State.withCs_tended {s : State} {q : CueSeq} (hscenes : q.scenes = s.cs.scenes) (hsongs : q.songs = s.cs.songs)
    (hcues : Table.sorted s.cs.cues = true → Table.sorted q.cues = true) : Tended s (s.withCs q) :=
  ⟨fun k => ⟨hscenes ▸ k.scenes, hcues k.cues, hsongs ▸ k.songs, k.patterns, k.plain, k.copy, k.flash⟩,
    fun p => ⟨p.owed, p.served⟩⟩

/-- A change of the sequencer that leaves its tables. -/
theorem State.sequencer_tended {s : State} {q : CueSeq} (hscenes : q.scenes = s.cs.scenes := by rfl)
    (hcues : q.cues = s.cs.cues := by rfl) (hsongs : q.songs = s.cs.songs := by rfl) : Tended s (s.withCs q) :=
  State.withCs_tended hscenes hsongs fun k => hcues ▸ k

/-- A change of the Click Generator that leaves its patterns. -/
theorem State.click_tended {s : State} {c : ClickGen} (h : c.patterns = s.ck.patterns := by rfl) : Tended s { s with ck := c } :=
  ⟨fun k => ⟨k.scenes, k.cues, k.songs, h ▸ k.patterns, h ▸ k.plain, k.copy, k.flash⟩, fun p => ⟨p.owed, p.served⟩⟩

theorem State.setBus_tended (s : State) (b : Bus) (x : ClickBus) : Tended s (s.setBus b x) := State.click_tended

theorem State.askPatterns_tended (s : State) (p q : Option Nat) : Tended s (s.askPatterns p q) :=
  (s.setBus_tended _ _).trans (State.setBus_tended _ _ _)

theorem State.choose_tended (s : State) : Tended s s.choose := .of_eq rfl rfl rfl rfl rfl

theorem State.setLink_tended (s : State) (l : Link) (x : LinkState) : Tended s (s.setLink l x) := .of_eq rfl rfl rfl rfl rfl

theorem State.report_tended (s : State) (k : FaultKind) (p : Option FaultPort) : Tended s (s.report k p) :=
  (s.report_linksOnly k p).tended

theorem State.reportCue_tended (s : State) (k : FaultKind) (p : Option BarBeat) : Tended s (s.reportCue k p) :=
  (s.reportCue_linksOnly k p).tended

theorem State.tempoNotice_tended (s : State) : Tended s s.tempoNotice := s.tempoNotice_linksOnly.tended

theorem State.transportNotice_tended (s : State) : Tended s s.transportNotice := s.transportNotice_linksOnly.tended

theorem State.cueNotice_tended (s : State) (n : Notice) : Tended s (s.cueNotice n) := (s.cueNotice_linksOnly n).tended

theorem State.handRealTime_tended (s : State) (b : Byte) : Tended s (s.handRealTime b) := .of_eq rfl rfl rfl rfl rfl

/-! ## The watch (R164 to R167, R171 to R173, R177) -/

theorem State.changeStation_tended (s : State) (x : Station) {new : StationState} (f : Option FaultKind)
    (h : new.onAir = false) : Tended s (s.changeStation x new f) :=
  (s.changeStation_watchOnly x new f).tended (s.changeStation_promiseKept x f h).promise

/-- A station's counters change, its state does not. -/
theorem State.counters_tended {s : State} {x : Station} {r : StationRec} (h : r.state = (s.station x).state := by rfl) :
    Tended s (s.setStation x r) := .of_promise rfl rfl rfl (State.setStation_promiseKept h).promise

theorem State.makeActive_tended {s : State} {x : Station} (c : ActiveCause) (h : (s.station x).state = .up) :
    Tended s (s.makeActive x c) :=
  (s.makeActive_watchOnly x c).tended fun p => State.nowActive_promised c p.owed (by rw [h]; rfl)

theorem State.resyncAllOff_tended (s : State) (x : Station) : Tended s (s.resyncAllOff x) := by
  unfold State.resyncAllOff
  split
  · exact (s.postNotice_linksOnly _ _).tended.trans State.counters_tended
  · exact Tended.refl s

theorem unmarkFirst_pend (x : Station) : ∀ (held : List HeldEntry) (e : HeldEntry), e ∈ unmarkFirst x held →
    ∃ f ∈ held, ∀ y, e.pend.get y = true → f.pend.get y = true
  | [], _, he => nomatch he
  | g :: r, e, he => by
    unfold unmarkFirst at he
    split at he
    · rcases List.mem_cons.1 he with rfl | he
      · refine ⟨g, List.mem_cons_self, fun y hy => ?_⟩
        rw [PerStation.get_set] at hy
        split at hy
        · cases hy
        · exact hy
      · exact ⟨e, List.mem_cons_of_mem _ he, fun _ => id⟩
    · rcases List.mem_cons.1 he with rfl | he
      · exact ⟨e, List.mem_cons_self, fun _ => id⟩
      · obtain ⟨f, hf, h⟩ := unmarkFirst_pend x r e he
        exact ⟨f, List.mem_cons_of_mem _ hf, h⟩

/-- The first entry pending for a station is pending for it no more. -/
theorem State.unmarkFirst_tended (s : State) (x : Station) :
    Tended s { s with lr := { s.lr with held := unmarkFirst x s.lr.held } } := by
  refine .of_promise rfl rfl rfl fun p => ⟨fun y a e he => ?_, p.served⟩
  obtain ⟨f, hf, h⟩ := unmarkFirst_pend x _ e he
  rw [← Bool.not_eq_true]
  exact fun hy => absurd ((p.owed y a f hf).symm.trans (h y hy)) (by decide)

theorem State.resyncReplay_tended (s : State) (x : Station) : Tended s (s.resyncReplay x) := by
  unfold State.resyncReplay
  split
  · split
    · exact Tended.refl s
    · exact (State.postEach_linksOnly x.link (fun t => .event t.replayOn) _ s).tended.trans (State.unmarkFirst_tended _ x)
  · exact Tended.refl s

/-- A station whose walk is over is owed nothing (R173). -/
theorem State.resyncJoined_tended (s : State) (x : Station) : Tended s (s.resyncJoined x) := by
  unfold State.resyncJoined
  split
  · next h =>
    simp only [State.joinedReady, Bool.and_eq_true, decide_eq_true_eq, Option.isNone_iff_eq_none] at h
    obtain ⟨⟨⟨⟨hstate, -⟩, hcursor⟩, -⟩, -⟩ := h
    refine (s.postNotice_linksOnly _ _).tended.trans ((State.changeStation_watchOnly _ _ _ _).tended fun p => ?_)
    exact State.changeStation_up_promised p ((s.cursor_eq_none_iff x).1 hcursor) (.inl hstate)
  · exact Tended.refl s

theorem State.limitStation_tended (s : State) (x : Station) : Tended s (s.limitStation x) := by
  unfold State.limitStation
  split
  · exact (s.changeStation_tended x _ rfl).ite
  · exact (s.changeStation_tended x _ rfl).ite
  · exact Tended.refl s
  · exact Tended.refl s
  · exact Tended.refl s

/-- A change of the watch's counters and limit, and of the count of free choices. -/
theorem State.watch_tended (s : State) (p : Nat) (d : Stamp) (n c : Nat) :
    Tended s { s with sw := { s.sw with pulse := p, deadline := d, limit := n }, choices := c } :=
  .of_promise rfl rfl rfl fun h => ⟨h.owed, h.served⟩

theorem State.setLimit_tended (s : State) (n : Nat) : Tended s (s.setLimit n) := by
  have h := s.watch_tended s.sw.pulse s.sw.deadline n
  unfold State.setLimit
  simp only
  split
  · split
    · exact ((h _).trans (State.limitStation_tended _ .a)).trans (State.limitStation_tended _ .b)
    · exact ((h _).trans (State.limitStation_tended _ .b)).trans (State.limitStation_tended _ .a)
  · exact ((h _).trans (State.limitStation_tended _ .a)).trans (State.limitStation_tended _ .b)

theorem State.missCheck_tended (s : State) (x : Station) : Tended s (s.missCheck x) := by
  unfold State.missCheck
  simp only
  split
  · exact Tended.refl s
  · have hmiss : Tended s (s.setStation x { s.station x with miss := min 255 ((s.station x).miss + 1) }) :=
      State.counters_tended
    have hdown := hmiss.trans (State.changeStation_tended _ x (some .lost) (new := .down) rfl)
    split
    · next hup =>
      split
      · exact hdown
      · refine Tended.trans hmiss (Tended.ite ((State.changeStation_watchOnly _ _ _ _).tended fun p => ?_))
        refine State.changeStation_suspect_promised _ p ?_
        rw [State.station_setStation, if_pos rfl]
        exact hup
    · split
      · exact hdown
      · exact hmiss
    · split
      · exact hdown
      · exact hmiss
    · exact hmiss
    · exact hmiss

theorem State.pulseStation_tended (s : State) (x : Station) : Tended s (s.pulseStation x) := by
  unfold State.pulseStation
  split
  · exact Tended.refl s
  · exact ((s.missCheck_tended x).trans (State.offerNotice_linksOnly _ _ _).tended).trans State.counters_tended

theorem State.pulse_tended (s : State) : Tended s s.pulse := by
  have h := s.watch_tended ((s.sw.pulse + 1) % 256) (stampAfter s.sw.deadline 50000) s.sw.limit
  unfold State.pulse
  simp only
  split
  · exact ((h _).trans (State.pulseStation_tended _ .a)).trans (State.pulseStation_tended _ .b)
  · split
    · exact ((h _).trans (State.pulseStation_tended _ .a)).trans (State.pulseStation_tended _ .b)
    · exact ((h _).trans (State.pulseStation_tended _ .b)).trans (State.pulseStation_tended _ .a)

theorem State.echoed_tended (s : State) (x : Station) (n : Nat) : Tended s (s.echoed x n) := by
  have hecho : Tended s (s.setStation x { s.station x with echoed := true, miss := 0 }) := State.counters_tended
  unfold State.echoed
  split
  · simp only
    split
    · exact hecho.trans (State.changeStation_tended _ x _ rfl)
    · next hs =>
      refine hecho.trans ((State.changeStation_watchOnly _ _ _ _).tended fun p => ?_)
      have hstate : ((s.setStation x { s.station x with echoed := true, miss := 0 }).station x).state = .suspect := by
        rw [State.station_setStation, if_pos rfl]
        exact hs
      exact State.changeStation_up_promised p (p.owed x (by rw [hstate]; rfl)) (.inr hstate)
    · exact hecho
    · exact hecho
    · exact hecho
  · exact Tended.refl s

theorem State.stationRise_tended (s : State) (x : Station) : Tended s (s.stationRise x) := by
  have hreset : Tended s (s.setStation x { s.station x with miss := 0, awaited := none, echoed := false }) :=
    State.counters_tended
  exact hreset.trans (State.changeStation_tended _ x _ rfl)

theorem State.stationFall_tended (s : State) (x : Station) : Tended s (s.stationFall x) := by
  have hreset : Tended s (s.setStation x { s.station x with miss := 0, awaited := none, echoed := false }) :=
    State.counters_tended
  exact hreset.trans (State.changeStation_tended _ x _ rfl)

/-! ## Tempo Engine -/

theorem State.setTempo_tended (s : State) (t : Nat) : Tended s (s.setTempo t) :=
  (s.withTe_tended _).trans (State.tempoNotice_tended _).ite

theorem State.rampTempo_tended (s : State) (t b : Nat) : Tended s (s.rampTempo t b) := by
  unfold State.rampTempo
  split <;> exact (s.withTe_tended _).trans (State.tempoNotice_tended _)

theorem State.rampStep_tended (s : State) : Tended s s.rampStep := by
  unfold State.rampStep
  split
  · exact Tended.refl s
  · simp only
    split
    · exact (s.withTe_tended _).trans (State.tempoNotice_tended _)
    · exact s.withTe_tended _

theorem State.setMeter_tended (s : State) (b : Nat) : Tended s (s.setMeter b) := by
  unfold State.setMeter
  split <;> exact s.withTe_tended _

theorem State.stopNotices_tended (s : State) (b : Bool) : Tended s (s.stopNotices b) := by
  have hn : ∀ u : State, Tended u ((if b then u.tempoNotice else u).transportNotice) := fun u =>
    u.tempoNotice_tended.ite.trans (State.transportNotice_tended _)
  exact (s.handRealTime_tended _).trans (hn _)

theorem State.stopNow_tended (s : State) : Tended s s.stopNow := by
  have hstop : ∀ te, Tended s { s with te := te, cs := { s.cs with goPending := false, segue := none } } := fun te =>
    (s.withTe_tended te).trans (State.sequencer_tended (s := s.withTe te))
  unfold State.stopNow
  split
  · exact (hstop _).trans (State.stopNotices_tended _ _)
  · exact Tended.refl s

theorem State.stopAtBar_tended (s : State) : Tended s s.stopAtBar := by
  unfold State.stopAtBar
  split
  · exact (s.withTe_tended _).trans (State.transportNotice_tended _)
  · exact s.stopNow_tended
  · exact Tended.refl s
  · exact Tended.refl s

theorem State.engineSong_tended (s : State) (g : Song) : Tended s (s.engineSong g) :=
  ((s.withTe_tended _).trans (State.tempoNotice_tended _).ite).trans (State.transportNotice_tended _)

theorem State.restartTempo_tended (s : State) : Tended s s.restartTempo :=
  (((s.withTe_tended _).trans (State.handRealTime_tended _ _).ite).trans (State.transportNotice_tended _).ite).trans
    (State.tempoNotice_tended _).ite

/-! ## Cue Sequencer -/

theorem State.leadCheck_tended (s : State) : Tended s s.leadCheck := by
  unfold State.leadCheck
  split
  · exact Tended.refl s
  · split
    · simp only
      split
      · exact Tended.trans State.sequencer_tended (State.cueNotice_tended _ _)
      · exact Tended.refl s
    · exact Tended.refl s
    · exact Tended.refl s

theorem State.endSong_tended (s : State) : Tended s s.endSong := State.sequencer_tended

theorem State.stageCommand_tended (s : State) (c n : Nat) : Tended s (s.stageCommand c n) :=
  (s.stageCommand_routerOnly c n).tended (s.stageCommand_promiseKept c n)

theorem State.becomeCurrent_tended (s : State) (n : Nat) (b : Bool) (q : Option BarBeat) :
    Tended s (s.becomeCurrent n b q) := by
  unfold State.becomeCurrent
  split
  · exact s.endSong_tended.trans (State.reportCue_tended _ _ _)
  · next slot _ =>
    have hcs : Tended s (s.withCs { s.cs with
        state := .waiting, current := some { cue := n, record := slot.record }, chained := b, leadSent := false,
        cues := Table.put s.cs.cues n { slot with done := false, result := .none } }) :=
      State.withCs_tended rfl rfl fun k => Table.put_sorted k _ _
    simp only
    refine Tended.trans ?_ (State.leadCheck_tended _)
    split
    · exact hcs.trans (State.stageCommand_tended _ _ _)
    · exact hcs

theorem State.dropCurrent_tended (s : State) : Tended s s.dropCurrent := by
  unfold State.dropCurrent
  refine Tended.trans ?_ State.sequencer_tended
  split
  · split
    · exact (s.withdraw_routerOnly _).tended (s.withdraw_promiseKept _)
    · exact Tended.refl s
  · exact Tended.refl s

theorem State.songSelect_tended (s : State) (p n : Nat) (g : Song) (q : Option BarBeat) :
    Tended s (s.songSelect p n g q) := by
  have hset : Tended s (s.dropCurrent.withCs { s.dropCurrent.cs with setPos := some p, song := some n }) :=
    s.dropCurrent_tended.trans State.sequencer_tended
  have h := (hset.trans (State.engineSong_tended _ g)).trans (State.askPatterns_tended _ (some g.band) (some g.keys))
  unfold State.songSelect
  simp only
  split
  · exact h.trans (State.endSong_tended _)
  · exact h.trans (State.becomeCurrent_tended _ _ _ _)

theorem State.nextSong_tended (s : State) (c : Bool) (q : Option BarBeat) : Tended s (s.nextSong c q).1 := by
  unfold State.nextSong
  simp only
  split
  · exact s.endSong_tended
  · split
    · exact (s.reportCue_tended _ _).trans (State.endSong_tended _)
    · split
      · exact s.songSelect_tended _ _ _ _
      · split
        · exact Tended.trans State.sequencer_tended (State.endSong_tended _)
        · exact ((s.withTe_tended _).trans State.sequencer_tended).trans (State.endSong_tended _)

theorem State.doAction_tended (s : State) (c : Latched) (b : Bool) (q : Option BarBeat) : Tended s (s.doAction c b q).1 := by
  unfold State.doAction
  split
  · exact Tended.refl s
  · exact (s.swapCommand_routerOnly _ _).tended (s.swapCommand_promiseKept _ _)
  · split
    · exact Tended.refl s
    · exact s.setTempo_tended _
  · split
    · exact Tended.refl s
    · exact s.rampTempo_tended _ _
  · exact s.setMeter_tended _
  · exact s.askPatterns_tended _ _
  · exact (s.sendPrograms_routerOnly _).tended (s.sendPrograms_promiseKept _)
  · exact s.cueNotice_tended _
  · exact s.stopNow_tended
  · exact s.stopAtBar_tended
  · exact s.nextSong_tended _ _

theorem State.writeStatus_tended (s : State) (n : Nat) (r : CueResult) : Tended s (s.writeStatus n r) := by
  unfold State.writeStatus
  split
  · exact Tended.refl s
  · exact State.withCs_tended rfl rfl fun k => Table.put_sorted k _ _

theorem State.moveOn_tended (s : State) (c : Cue) (q : Option BarBeat) : Tended s (s.moveOn c q) := by
  have hcount : Tended s (s.withCs { s.cs with boundary := s.cs.boundary + 1 }) := State.sequencer_tended
  unfold State.moveOn
  simp only
  split
  · exact hcount.trans (State.endSong_tended _)
  · split
    · split
      · exact (hcount.trans (State.endSong_tended _)).trans (State.reportCue_tended _ _ _)
      · exact hcount.trans State.sequencer_tended
    · exact hcount.trans (State.becomeCurrent_tended _ _ _ _)

theorem State.completeCue_tended (s : State) (c : Latched) (late closing : Bool) (q : Option BarBeat) :
    Tended s (s.completeCue c late closing q) := by
  have hnext : ∀ u : State, Tended u (match c.record.action with | .nextSong => u | _ => u.moveOn c.record q) := by
    intro u
    split
    · exact Tended.refl u
    · exact u.moveOn_tended _ _
  exact ((((s.doAction_tended c closing q).trans (State.writeStatus_tended _ _ _)).trans
    (State.reportCue_tended _ _ _).ite).trans (State.cueNotice_tended _ _).ite).trans (hnext _)

theorem State.chain_tended (closing : Bool) (q : Option BarBeat) :
    ∀ (n : Nat) (s : State), Tended s (State.chain closing q n s)
  | 0, s => Tended.refl s
  | n + 1, s => by
    unfold State.chain
    split
    · exact Tended.refl s
    · split
      · exact (s.completeCue_tended _ _ _ _).trans (State.chain_tended closing q n _)
      · exact s.reportCue_tended _ _

theorem State.fire_tended (s : State) (c : Latched) (late closing : Bool) (q : Option BarBeat) :
    Tended s (s.fire c late closing q) := by
  have hgo : Tended s (s.withCs { s.cs with goPending := false }) := State.sequencer_tended
  exact (hgo.trans (State.completeCue_tended _ _ _ _ _)).trans (State.chain_tended _ _ _ _)

theorem State.applySegueRecord_tended (s : State) (q : Option BarBeat) : Tended s (s.applySegueRecord q) := by
  unfold State.applySegueRecord
  split
  · exact Tended.refl s
  · simp only
    split
    · exact Tended.trans State.sequencer_tended (State.askPatterns_tended _ _ _)
    · exact (Tended.trans State.sequencer_tended (State.askPatterns_tended _ _ _)).trans
        (State.becomeCurrent_tended _ _ _ _)

theorem State.sequencerBeat_tended (s : State) (ev : BeatEvent) : Tended s (s.sequencerBeat ev) := by
  have hstart : Tended s (s.withCs { s.cs with boundary := 0, chained := false }) := State.sequencer_tended
  have hfire : ∀ u : State, Tended u
      (if u.cs.state = .waiting ∧ (ev.transport = .running ∨ ev.transport = .stopping) then
        match u.cs.current with
        | none => u
        | some c =>
          match firing u.cs c.record ev.bar ev.beat with
          | some late => u.fire c late ev.closing (some ⟨ev.bar, ev.beat⟩)
          | none => u
      else u) := by
    intro u
    split
    · split
      · exact Tended.refl u
      · split
        · exact u.fire_tended _ _ _ _
        · exact Tended.refl u
    · exact Tended.refl u
  exact ((hstart.trans (State.applySegueRecord_tended _ _).ite).trans (State.leadCheck_tended _).ite).trans (hfire _)

theorem State.sequencerClosed_tended (s : State) : Tended s s.sequencerClosed := by
  have hclear : Tended s (s.withCs { s.cs with goPending := false, deferred := none }) := State.sequencer_tended
  unfold State.sequencerClosed
  simp only
  split
  · exact hclear
  · split
    · exact hclear
    · split
      · exact hclear
      · exact hclear.trans (State.songSelect_tended _ _ _ _ _)

theorem State.goStopped_tended (s : State) (c : Latched) : Tended s (s.goStopped c) := by
  have hzero : Tended s (s.withCs { s.cs with boundary := 0 }) := State.sequencer_tended
  exact hzero.trans (State.fire_tended _ _ _ _ _)

theorem State.chaseCue_tended (s : State) (c : Latched) (b : Bool) : Tended s (s.chaseCue c b) := by
  unfold State.chaseCue
  simp only
  refine Tended.trans ?_ (State.writeStatus_tended _ _ _)
  split
  · split
    · exact Tended.refl s
    · exact s.doAction_tended _ _ _
  · exact Tended.refl s
  · exact Tended.refl s
  · exact Tended.refl s
  · exact Tended.refl s
  · exact s.doAction_tended _ _ _
  · exact s.doAction_tended _ _ _
  · exact s.doAction_tended _ _ _
  · exact s.doAction_tended _ _ _
  · exact s.doAction_tended _ _ _

theorem State.chaseCues_tended : ∀ (cs : List Latched) (s : State), Tended s (s.chaseCues cs)
  | [], s => Tended.refl s
  | c :: r, s => (s.chaseCue_tended c _).trans (State.chaseCues_tended r _)

theorem State.chase_tended (s : State) (bar : Nat) : Tended s (s.chase bar) := by
  have hfault : ∀ (u : State) (f : Option FaultKind), Tended u (match f with | some k => u.report k none | none => u) := by
    intro u f
    split
    · exact u.report_tended _ _
    · exact Tended.refl u
  unfold State.chase
  split
  · exact Tended.refl s
  · simp only
    split
    · exact s.dropCurrent_tended.trans (State.endSong_tended _)
    · next n _ =>
      have hcues := (s.dropCurrent_tended.trans (hfault _ (walk s.dropCurrent.cs.cues bar 64 n true []).fault)).trans
        (State.chaseCues_tended (walk s.dropCurrent.cs.cues bar 64 n true []).chosen _)
      split
      · exact hcues.trans (State.endSong_tended _)
      · exact hcues.trans (State.becomeCurrent_tended _ _ _ _)

theorem State.restartSequencer_tended (s : State) : Tended s s.restartSequencer := State.sequencer_tended

/-! ## Beats and ticks -/

theorem State.takeBeat_tended (s : State) (ev : BeatEvent) (t : Taker) : Tended s (s.takeBeat ev t) := by
  cases t with
  | click => exact State.click_tended
  | router => exact (s.routerBeat_routerOnly _).tended (s.routerBeat_promiseKept _)
  | sequencer => exact s.sequencerBeat_tended ev
  | notice => exact (s.beatNotice_linksOnly _ _ _ _).tended

theorem State.takeBeatAll_tended (s : State) (ev : BeatEvent) (o : List Taker) : Tended s (s.takeBeatAll ev o) :=
  foldl_rel Tended Tended.refl Tended.trans (fun s t => s.takeBeat_tended ev t) o s

theorem State.handOn_tended (s : State) (ev : BeatEvent) : Tended s (s.handOn ev) := by
  unfold State.handOn
  split
  · exact s.choose_tended.trans (State.takeBeatAll_tended _ _ _)
  · exact s.takeBeatAll_tended _ _

theorem State.beatBytes_tended (s : State) (b : Bool) : Tended s (s.beatBytes b) :=
  ((s.handRealTime_tended _).ite.trans (State.handRealTime_tended _ _)).trans (State.withTe_tended _ _)

theorem State.tickBytes_tended (s : State) (t : Nat) : Tended s (s.tickBytes t) :=
  ((s.handRealTime_tended _).trans (State.withTe_tended _ _)).ite

theorem State.close_tended (s : State) : Tended s s.close := by
  unfold State.close
  exact (((s.withTe_tended _).trans (State.stopNotices_tended _ _)).trans (State.sequencerClosed_tended _)).ite

theorem State.barNotices_tended (s : State) : Tended s s.barNotices :=
  ((s.withTe_tended _).trans (State.tempoNotice_tended _).ite).trans (State.transportNotice_tended _).ite

theorem State.beatOccurs_tended (s : State) : Tended s s.beatOccurs := by
  by_cases hb : s.te.meter ≤ s.te.pos.beat
  · by_cases hst : s.te.transport = .stopping
    · rw [State.beatOccurs_closing hb hst]
      exact (s.barNotices_tended.trans (State.handOn_tended _ _)).trans (State.close_tended _)
    · rw [State.beatOccurs_bar hb hst]
      exact (s.barNotices_tended.trans (State.beatBytes_tended _ _)).trans (State.handOn_tended _ _)
  · rw [State.beatOccurs_beat (Nat.lt_of_not_le hb)]
    exact ((s.withTe_tended _).trans (State.beatBytes_tended _ _)).trans (State.handOn_tended _ _)

theorem State.tickOccurs_tended (s : State) : Tended s s.tickOccurs := by
  unfold State.tickOccurs
  simp only
  split
  · exact s.rampStep_tended.trans (State.beatOccurs_tended _)
  · exact ((s.rampStep_tended.trans (State.withTe_tended _ _)).trans State.click_tended).trans
      (State.tickBytes_tended _ _)

theorem State.tick_tended (s : State) : Tended s s.tick := by
  unfold State.tick
  split
  · exact (s.withTe_tended _).trans (State.tickOccurs_tended _)
  · exact s.withTe_tended _

theorem State.startTransport_tended (s : State) : Tended s s.startTransport :=
  (((s.withTe_tended _).trans (State.transportNotice_tended _)).trans (State.beatBytes_tended _ _)).trans
    (State.handOn_tended _ _)

/-! ## The follower -/

theorem State.setFollow_tended (s : State) (src : FollowSource) : Tended s (s.setFollow src) := by
  cases src <;> exact (s.withTe_tended _).trans (State.tempoNotice_tended _)

theorem State.phaseCorrect_tended (s : State) : Tended s s.phaseCorrect := by
  unfold State.phaseCorrect
  split
  · split
    · exact Tended.refl s
    · split
      · exact s.withTe_tended _
      · exact (s.withTe_tended _).trans (State.beatOccurs_tended _)
  · exact Tended.refl s

theorem State.estimate_tended (s : State) : Tended s s.estimate :=
  ((s.withTe_tended _).trans (State.tempoNotice_tended _).ite).trans (State.phaseCorrect_tended _)

theorem State.takeMark_tended (s : State) : Tended s s.takeMark := by
  unfold State.takeMark
  split
  · split
    · exact (s.withTe_tended _).trans (State.tempoNotice_tended _)
    · exact s.withTe_tended _
  · simp only
    split
    · exact (s.withTe_tended _).trans (State.estimate_tended _).ite
    · exact (s.withTe_tended _).trans ((State.withTe_tended _ _).trans (State.tempoNotice_tended _)).ite

theorem State.markFrom_tended (s : State) (src : FollowSource) : Tended s (s.markFrom src) := s.takeMark_tended.ite

theorem State.lostDeadline_tended (s : State) : Tended s s.lostDeadline := by
  unfold State.lostDeadline
  split
  · exact Tended.refl s
  · exact ((s.withTe_tended _).trans (State.tempoNotice_tended _)).trans (State.report_tended _ _ _).ite

end Sys2Proof.Machine
end

section
/-! PROOFS. Every request, telegram, end of a store operation, change of DETECT and passing of time keeps the tables in their one
canonical form and the stations' promise. -/

namespace Sys2Proof.Machine

/-! ## The canonical form of the tables -/

/-- New data in every slot leave the slots in order. -/
theorem Table.map_sorted {α β : Type} (f : Nat × α → β) : ∀ t : Table α,
    Table.sorted (t.map (fun e => (e.1, f e))) = Table.sorted t
  | [] => rfl
  | [_] => rfl
  | _ :: e :: r => by
    have ih := Table.map_sorted f (e :: r)
    simp only [List.map_cons, Table.sorted] at ih ⊢
    rw [ih]

theorem Table.mem_of_mem_erase {α : Type} {t : Table α} {k : Nat} {e : Nat × α} (h : e ∈ Table.erase t k) : e ∈ t := by
  induction t with
  | nil => exact h
  | cons d r ih =>
    unfold Table.erase at h
    split at h
    · exact List.mem_cons_of_mem _ h
    · rcases List.mem_cons.1 h with h | h
      · exact h ▸ List.mem_cons_self
      · exact List.mem_cons_of_mem _ (ih h)

/-- The default pattern is held by not listing it. -/
theorem setPattern_plain {t : Table Pattern} (h : ∀ e ∈ t, e.2 ≠ defaultPattern) (n : Nat) (p : Pattern) :
    ∀ e ∈ setPattern t n p, e.2 ≠ defaultPattern := by
  intro e he
  unfold setPattern at he
  split at he
  · exact h e (Table.mem_of_mem_erase he)
  · next hp =>
    rcases Table.mem_put he with rfl | he
    · exact hp
    · exact h e he

/-- A loaded pattern table is in its one canonical form, whatever the image lists (R26, R183). -/
theorem loadPatterns_canonical (t : Table (Option Pattern)) :
    Table.sorted (loadPatterns t) = true ∧ ∀ e ∈ loadPatterns t, e.2 ≠ defaultPattern :=
  List.foldlRecOn t _ (motive := fun a : Table Pattern => Table.sorted a = true ∧ ∀ e ∈ a, e.2 ≠ defaultPattern)
    ⟨rfl, fun _ h => nomatch h⟩
    (fun _ ⟨hsorted, hplain⟩ _ _ => ⟨setPattern_sorted hsorted _ _, setPattern_plain hplain _ _⟩)

theorem ShowImage.tidy_iff (g : ShowImage) : g.tidy = true ↔
    Table.sorted g.scenes = true ∧ Table.sorted g.cues = true ∧ Table.sorted g.songs = true ∧
      Table.sorted g.patterns = true := by
  simp only [ShowImage.tidy, Bool.and_eq_true, and_assoc]

/-- The copy that a save takes of tidy tables is tidy (R181). -/
theorem State.Tidied.image {s : State} (h : s.Tidied) : s.image.tidy = true :=
  s.image.tidy_iff.2 ⟨h.scenes, (Table.map_sorted _ _).trans h.cues, h.songs, (Table.map_sorted _ _).trans h.patterns⟩

/-- An image that a read finds VALID is the one in the flash. -/
theorem Flash.read_tidy {f : Flash} {g : ShowImage} (h : f.tidy = true) (k : f.read.2 = some g) : g.tidy = true := by
  cases f with
  | blank => exact nomatch k
  | garbled => exact nomatch k
  | image g' c =>
    unfold Flash.read at k
    simp only at k
    split at k
    · exact Option.some.inj k ▸ h
    · exact nomatch k

/-- What a save leaves in the flash is its copy, or no image (R181). -/
theorem saveOutcome_tidy {copy : ShowImage} (e : SaveEnd) (h : copy.tidy = true) : (saveOutcome e copy).2.2.tidy = true := by
  unfold saveOutcome
  split
  · exact h
  · rfl
  · rfl
  · rfl

theorem State.flashAfterReset_tidy {s : State} (h : s.st.flash.tidy = true) : s.flashAfterReset.tidy = true := by
  unfold State.flashAfterReset
  split
  · split <;> rfl
  · exact h
  · exact h

/-! ## Effects of requests -/

theorem State.withStore_tended {s : State} {x : ShowStore} (hop : s.Tidied → x.op.tidy = true)
    (hflash : s.Tidied → x.flash.tidy = true) : Tended s (s.withStore x) :=
  ⟨fun k => { k with copy := hop k, flash := hflash k }, fun p => ⟨p.owed, p.served⟩⟩

theorem State.writeScene_tended (s : State) (n : Nat) (g : Scene) :
    Tended s (s.withCs { s.cs with scenes := Table.put s.cs.scenes n g }) :=
  ⟨fun k => { k with scenes := Table.put_sorted k.scenes n g }, fun p => ⟨p.owed, p.served⟩⟩

theorem State.writeSong_tended (s : State) (n : Nat) (g : Song) :
    Tended s (s.withCs { s.cs with songs := Table.put s.cs.songs n g }) :=
  ⟨fun k => { k with songs := Table.put_sorted k.songs n g }, fun p => ⟨p.owed, p.served⟩⟩

theorem State.writePattern_tended (s : State) (n : Nat) (p : Pattern) :
    Tended s { s with ck := { s.ck with patterns := setPattern s.ck.patterns n p } } :=
  ⟨fun k => { k with patterns := setPattern_sorted k.patterns n p, plain := setPattern_plain k.plain n p },
    fun p => ⟨p.owed, p.served⟩⟩

theorem State.answer_tended (s : State) (l : Link) (c : Nat) (r : ResultCode) (d : List Byte) : Tended s (s.answer l c r d) :=
  s.setLink_tended l _

theorem State.log_tended (s : State) (f : FaultLog) : Tended s { s with fl := f } := .of_eq rfl rfl rfl rfl rfl

theorem State.takeLock_tended (s : State) (l : Link) : Tended s (s.takeLock l) :=
  Tended.trans (t := { s with lr := { s.lr with lock := some l } }) (.of_eq rfl rfl rfl rfl rfl)
    (State.sceneNotice_linksOnly _ _ _ _).tended

theorem State.releaseLock_tended (s : State) : Tended s s.releaseLock :=
  s.releaseLock_watchOnly.tended s.releaseLock_promiseKept.promise

theorem State.loadScene_tended {s : State} (h : s.lr.lock = none) (l : Link) (n : Nat) (q : SwapPoint) :
    Tended s (s.loadScene l n q) := by
  have hstage : Tended s (s.stage n q (.link l)) := (s.stage_routerOnly _ _ _).tended (s.stage_promiseKept _ _ _)
  unfold State.loadScene
  cases q with
  | now => exact hstage.trans ((State.swap_routerOnly (s.stage n .now (.link l)) _ h).tended (State.swap_promiseKept _ _))
  | nextBeat => exact hstage
  | nextBar => exact hstage
  | cue => exact hstage

theorem State.restart_tended (s : State) : Tended s s.restart :=
  (((s.restartTempo_tended.trans (State.restartSequencer_tended _)).trans
    ((State.restartMap_routerOnly _).tended (State.restartMap_promiseKept _))).trans
    ((State.restartNotes_routerOnly _).tended (State.releaseAll_promiseKept _ _ _))).trans State.click_tended

theorem State.goHeld_tended (s : State) (n : Nat) : Tended s (s.goHeld n) := by
  have hclear : Tended s (s.withCs { s.cs with latchedNext := none }) := State.sequencer_tended
  exact hclear.trans (State.becomeCurrent_tended _ _ _ _)

theorem State.applyInput_tended (s : State) (i : InPort) (t : InSettings) : Tended s (s.applyInput i t) :=
  (s.applyInput_portsOnly i t).tended (s.applyInput_promiseKept i t)

theorem State.setOut_tended (s : State) (o : OutPort) (x : MidiOut) : Tended s (s.setOut o x) := .of_eq rfl rfl rfl rfl rfl

theorem State.panic_tended (s : State) : Tended s s.panic := s.panic_portsOnly.tended s.panic_promiseKept

theorem State.locate_tended (s : State) (bar : Nat) : Tended s (s.locate bar) :=
  ((s.withTe_tended _).trans (State.transportNotice_tended _)).trans (State.chase_tended _ _)

/-! ## Every request -/

/-- Every request that is handed to its block. -/
theorem State.perform_tended (s : State) (l : Link) (k : ReqKind) (p : List Byte) : Tended s (s.perform l k p) := by
  have rep : ∀ k r, Tended s (s.reply l k r) := fun _ _ => s.answer_tended _ _ _ _
  have rng : ∀ k e, Tended s (s.replyRange l k e) := fun _ _ => s.answer_tended _ _ _ _
  cases k
  case start =>
    simp only [State.perform, State.reqStart]
    split
    · exact rep _ _
    · split
      · exact (rep _ _).trans (State.startTransport_tended _)
      · exact rep _ _
  case stop =>
    simp only [State.perform, State.reqStop]
    split
    · unfold State.reqStopNow
      split
      · exact (rep _ _).trans (State.stopNow_tended _)
      · exact rep _ _
    · split
      · unfold State.reqStopAtBar
        split
        · exact (rep _ _).trans (State.stopAtBar_tended _)
        · exact (rep _ _).trans (State.stopAtBar_tended _)
        · exact rep _ _
        · exact rep _ _
      · exact rng _ _
  case locate =>
    simp only [State.perform, State.reqLocate]
    split
    · exact rng _ _
    · split
      · exact (rep _ _).trans (State.locate_tended _ _)
      · exact rep _ _
  case setTempo =>
    simp only [State.perform, State.reqSetTempo]
    split
    · exact rep _ _
    · exact (rep _ _).trans (State.setTempo_tended _ _)
  case rampTempo =>
    simp only [State.perform, State.reqRampTempo]
    split
    · exact rep _ _
    · split
      · exact rng _ _
      · exact (rep _ _).trans (State.rampTempo_tended _ _ _)
  case setMeter =>
    simp only [State.perform, State.reqSetMeter]
    split
    · exact rng _ _
    · exact (rep _ _).trans (State.setMeter_tended _ _)
  case setFollow =>
    simp only [State.perform, State.reqSetFollow]
    split
    · exact rng _ _
    · split
      · exact rep _ _
      · exact (rep _ _).trans (State.setFollow_tended _ _)
  case writePattern =>
    simp only [State.perform, State.reqWritePattern]
    split
    · exact rep _ _
    · split
      · exact rng _ _
      · exact (rep _ _).trans (State.writePattern_tended _ _ _)
  case setClick =>
    simp only [State.perform, State.reqSetClick]
    split
    · exact rep _ _
    · split
      · exact rng _ _
      · exact (rep _ _).trans (State.setBus_tended _ _ _)
  case muteClick =>
    simp only [State.perform, State.reqMuteClick]
    split
    · exact rng _ _
    · split
      · exact rep _ _
      · exact (rep _ _).trans (State.setBus_tended _ _ _)
  case writeScene =>
    simp only [State.perform, State.reqWriteScene]
    split
    · exact rep _ _
    · split
      · exact rng _ _
      · split
        · exact rep _ _
        · split
          · exact rng _ _
          · exact (rep _ _).trans (State.writeScene_tended _ _ _)
  case readScene =>
    simp only [State.perform, State.reqReadScene]
    split
    · exact rng _ _
    · split
      · exact rep _ _
      · split
        · exact s.answer_tended _ _ _ _
        · exact s.answer_tended _ _ _ _
  case loadSceneNow =>
    simp only [State.perform, State.reqLoadScene]
    split
    · exact rng _ _
    · split
      · exact rep _ _
      · split
        · exact rep _ _
        · next hl =>
          split
          · exact rep _ _
          · exact (rep _ _).trans (State.loadScene_tended (s := s.reply l .loadSceneNow .done) (not_not.mp hl) _ _ _)
  case lock =>
    simp only [State.perform, State.reqLock]
    split
    · split
      · exact (rep _ _).trans (State.takeLock_tended _ _)
      · exact rep _ _
    · split
      · exact rep _ _
      · exact rep _ _
  case unlock =>
    simp only [State.perform, State.reqUnlock]
    split
    · split
      · exact rep _ _
      · exact (rep _ _).trans (State.releaseLock_tended _)
    · split
      · exact (rep _ _).trans (State.releaseLock_tended _)
      · exact rep _ _
  case writeCue =>
    simp only [State.perform, State.reqWriteCue]
    split
    · exact rep _ _
    · split
      · exact rep _ _
      · split
        · exact rng _ _
        · exact (rep _ _).trans (State.withCs_tended rfl rfl fun k => Table.put_sorted k _ _)
  case readCue =>
    simp only [State.perform, State.reqReadCue]
    split
    · exact rep _ _
    · split
      · exact s.answer_tended _ _ _ _
      · exact s.answer_tended _ _ _ _
  case writeSong =>
    simp only [State.perform, State.reqWriteSong]
    split
    · exact rep _ _
    · split
      · exact rng _ _
      · split
        · exact rng _ _
        · exact (rep _ _).trans (State.writeSong_tended _ _ _)
  case readSong =>
    simp only [State.perform, State.reqReadSong]
    split
    · exact rng _ _
    · split
      · exact rep _ _
      · split
        · exact s.answer_tended _ _ _ _
        · exact s.answer_tended _ _ _ _
  case writeSetlist =>
    simp only [State.perform, State.reqWriteSetlist]
    split
    · exact rep _ _
    · split
      · exact rep _ _
      · split
        · exact rng _ _
        · exact (rep _ _).trans State.sequencer_tended
  case readSetlist =>
    simp only [State.perform, State.reqReadSetlist]
    split
    · exact rep _ _
    · exact s.answer_tended _ _ _ _
  case selectSong =>
    simp only [State.perform, State.reqSelectSong]
    split
    · exact rep _ _
    · split
      · exact rng _ _
      · split
        · exact rep _ _
        · split
          · exact rep _ _
          · exact (rep _ _).trans (State.songSelect_tended _ _ _ _ _)
  case go =>
    simp only [State.perform, State.reqGo]
    split
    · split
      · split
        · exact rep _ _
        · exact (rep _ _).trans State.sequencer_tended
      · exact (rep _ _).trans (State.goStopped_tended _ _)
    · exact (rep _ _).trans (State.goHeld_tended _ _)
    · exact rep _ _
  case setInput =>
    simp only [State.perform, State.reqSetInput]
    split
    · exact rep _ _
    · split
      · exact rng _ _
      · exact (rep _ _).trans (State.applyInput_tended _ _ _)
  case setOutput =>
    simp only [State.perform, State.reqSetOutput]
    split
    · exact rep _ _
    · split
      · exact rng _ _
      · exact (rep _ _).trans (State.setOut_tended _ _ _)
  case setWatch =>
    simp only [State.perform, State.reqSetWatch]
    split
    · exact rep _ _
    · exact (rep _ _).trans (State.setLimit_tended _ _)
  case setActive =>
    simp only [State.perform, State.reqSetActive]
    split
    · exact rng _ _
    · split
      · next hup =>
        split
        · exact rep _ _
        · exact (rep _ _).trans (State.makeActive_tended _ hup)
      · exact rep _ _
  case resync =>
    simp only [State.perform, State.reqResync]
    split
    · exact rng _ _
    · split
      · exact (rep _ _).trans (State.changeStation_tended _ _ _ rfl)
      · exact rep _ _
  case restart => exact (rep _ _).trans (State.restart_tended _)
  case panic => exact (rep _ _).trans (State.panic_tended _)
  case saveShow =>
    simp only [State.perform, State.reqSaveShow]
    split
    · exact rep _ _
    · refine (rep .saveShow .accepted).trans (State.withStore_tended (fun k => ?_) (fun k => k.flash))
      exact k.image
  case loadShow =>
    simp only [State.perform, State.reqLoadShow]
    split
    · exact rep _ _
    · split
      · exact rep _ _
      · exact (rep _ _).trans (State.withStore_tended (fun _ => rfl) (fun k => k.flash))
  case setFaultMode =>
    simp only [State.perform, State.reqSetFaultMode]
    split
    · exact rep _ _
    · split
      · exact rng _ _
      · split
        · exact rep _ _
        · exact (rep _ _).trans (State.log_tended _ _)
  case ackFaults => exact (rep _ _).trans (State.log_tended _ _)
  case readStatus => exact s.answer_tended _ _ _ _
  case readFaults =>
    simp only [State.perform, State.reqReadFaults]
    split
    · exact rng _ _
    · exact s.answer_tended _ _ _ _
  case subscribe => exact (s.answer_tended _ _ _ _).trans (State.setLink_tended _ _ _)

/-! ## Requests, reports, telegrams -/

theorem State.checkRequest_tended (s : State) (l : Link) (k : ReqKind) (p : List Byte) : Tended s (s.checkRequest l k p) := by
  unfold State.checkRequest
  split
  · exact s.answer_tended _ _ _ _
  · split
    · exact s.answer_tended _ _ _ _
    · split
      · exact s.answer_tended _ _ _ _
      · split
        · exact s.answer_tended _ _ _ _
        · exact s.perform_tended l k p

theorem State.takeRequest_tended (s : State) (l : Link) (n : Nat) (p : List Byte) : Tended s (s.takeRequest l n p) := by
  unfold State.takeRequest
  split
  · exact s.report_tended _ _
  · split
    · exact s.answer_tended _ _ _ _
    · exact s.checkRequest_tended _ _ _

theorem State.holdLink_tended (s : State) (l : Link) (ms : Nat) : Tended s (s.holdLink l ms) := by
  unfold State.holdLink
  split
  · exact s.setLink_tended _ _
  · exact s.setLink_tended _ _

theorem State.performReport_tended (s : State) (l : Link) (k : RepKind) (p : List Byte) : Tended s (s.performReport l k p) := by
  unfold State.performReport
  split
  · exact s.markFrom_tended _
  · split
    · exact s.echoed_tended _ _
    · exact Tended.refl s
  · exact s.holdLink_tended _ _
  · exact s.setLink_tended _ _

theorem State.takeReport_tended (s : State) (l : Link) (n : Nat) (p : List Byte) : Tended s (s.takeReport l n p) := by
  unfold State.takeReport
  split
  · exact s.report_tended _ _
  · split
    · exact s.report_tended _ _
    · split
      · exact s.report_tended _ _
      · exact s.performReport_tended _ _ _

theorem State.takeTelegram_tended (s : State) (l : Link) (k : Byte) (p : List Byte) : Tended s (s.takeTelegram l k p) := by
  unfold State.takeTelegram
  split
  · exact s.takeRequest_tended _ _ _
  · split
    · exact s.takeReport_tended _ _ _
    · exact s.report_tended _ _

theorem State.telegram_tended (s : State) (l : Link) (k : Byte) (p : List Byte) : Tended s (s.telegram l k p) := by
  unfold State.telegram
  split
  · exact (s.setLink_tended _ _).trans (State.takeTelegram_tended _ _ _ _)
  · exact Tended.refl s

/-! ## The receiver -/

theorem State.discard_tended (s : State) (l : Link) (k : FaultKind) : Tended s (s.discard l k) :=
  (s.report_tended _ _).trans (State.setLink_tended _ _ _)

theorem State.complete_tended (s : State) (l : Link) : Tended s (s.complete l) := by
  unfold State.complete
  simp only
  split
  · exact (s.setLink_tended _ _).trans (State.takeTelegram_tended _ _ _ _)
  · exact s.discard_tended _ _

theorem State.takeByte_tended (s : State) (l : Link) (b : Byte) : Tended s (s.takeByte l b) := by
  unfold State.takeByte
  simp only
  split
  · split
    · exact (s.setLink_tended _ _).trans (State.discard_tended _ _ _)
    · split
      · exact (s.setLink_tended _ _).trans (State.complete_tended _ _)
      · exact s.setLink_tended _ _
  · split
    · exact s.setLink_tended _ _
    · exact Tended.refl s

theorem State.rescan_tended : ∀ (n : Nat) (s : State) (l : Link), Tended s (State.rescan n s l)
  | 0, s, _ => Tended.refl s
  | n + 1, s, l => by
    unfold State.rescan
    split
    · exact Tended.refl s
    · exact ((s.setLink_tended _ _).trans (State.takeByte_tended _ _ _)).trans (State.rescan_tended n _ l)

theorem State.lineByte_tended (s : State) (l : Link) (b : Byte) : Tended s (s.lineByte l b) :=
  ((s.takeByte_tended _ _).trans (State.rescan_tended _ _ _)).ite

theorem State.badStop_tended (s : State) (l : Link) : Tended s (s.badStop l) :=
  ((s.discard_tended _ _).trans (State.rescan_tended _ _ _)).ite

theorem State.gapDeadline_tended (s : State) (l : Link) : Tended s (s.gapDeadline l) :=
  ((s.discard_tended _ _).trans (State.rescan_tended _ _ _)).ite

/-! ## Transmission, hold, DETECT -/

theorem State.telegramSent_tended (s : State) (l : Link) : Tended s (s.telegramSent l) := by
  unfold State.telegramSent
  split
  · exact Tended.refl s
  · exact s.setLink_tended _ _

theorem State.holdExpiry_tended (s : State) (l : Link) : Tended s (s.holdExpiry l) := by
  unfold State.holdExpiry
  split
  · exact Tended.refl s
  · exact s.setLink_tended _ _

theorem State.detectRises_tended (s : State) (l : Link) : Tended s (s.detectRises l) := by
  unfold State.detectRises
  split
  · exact Tended.refl s
  · simp only
    split
    · exact (s.setLink_tended _ _).trans (State.stationRise_tended _ _)
    · exact s.setLink_tended _ _

theorem State.detectFalls_tended (s : State) (l : Link) : Tended s (s.detectFalls l) := by
  unfold State.detectFalls
  split
  · simp only
    split
    · exact (s.setLink_tended _ _).trans (State.stationFall_tended _ _)
    · exact (s.setLink_tended _ _).trans (State.stationFall_tended _ _)
    · exact s.setLink_tended _ _
    · exact (s.setLink_tended _ _).trans (State.releaseLock_tended _).ite
  · exact Tended.refl s

/-! ## Show Store -/

theorem State.storeNotice_tended (s : State) (o : StoreOccasion) (b : Bool) : Tended s (s.storeNotice o b) :=
  (s.storeNotice_linksOnly o b).tended

theorem State.reportStore_tended (s : State) (k : Option FaultKind) : Tended s (s.reportStore k) := by
  unfold State.reportStore
  split
  · exact s.report_tended _ _
  · exact Tended.refl s

theorem State.loadTables_tended {s : State} {g : ShowImage} (h : s.Tidied → g.tidy = true) : Tended s (s.loadTables g) := by
  refine ⟨fun k => ?_, fun p => ⟨p.owed, p.served⟩⟩
  obtain ⟨hscenes, hcues, hsongs, -⟩ := g.tidy_iff.1 (h k)
  obtain ⟨hsorted, hplain⟩ := loadPatterns_canonical g.patterns
  exact ⟨hscenes, (Table.map_sorted _ _).trans hcues, hsongs, hsorted, hplain, k.copy, k.flash⟩

theorem State.loadSettings_tended (s : State) (g : ShowImage) : Tended s (s.loadSettings g) := by
  have hin : Tended s (allIns.foldl (fun s i => s.applyInput i (g.inputs.get i)) s) :=
    foldl_rel Tended Tended.refl Tended.trans (fun s i => s.applyInput_tended i _) _ s
  have hout : ∀ u : State, Tended u (allOuts.foldl (fun s o => s.setOut o ((s.midiOut o).applySettings (g.outputs.get o))) u) :=
    fun u => foldl_rel Tended Tended.refl Tended.trans (fun s o => s.setOut_tended o _) _ u
  exact (hin.trans (hout _)).trans (State.setLimit_tended _ _)

theorem State.saveEnds_tended (s : State) (e : SaveEnd) : Tended s (s.saveEnds e) := by
  unfold State.saveEnds
  split
  · next copy hcopy =>
    have hend : Tended s (s.withStore ⟨(saveOutcome e copy).1, .none, (saveOutcome e copy).2.2⟩) :=
      State.withStore_tended (fun _ => rfl) (fun k => by
        have htidy := k.copy
        rw [hcopy] at htidy
        exact saveOutcome_tidy e htidy)
    exact (hend.trans (State.storeNotice_tended _ _ _)).trans (State.reportStore_tended _ _)
  · exact Tended.refl s
  · exact Tended.refl s

theorem State.loadEnds_tended (s : State) : Tended s s.loadEnds := by
  unfold State.loadEnds
  split
  · have hst : Tended s (s.withStore { s.st with status := s.st.flash.read.1, op := .none }) :=
      State.withStore_tended (fun _ => rfl) (fun k => k.flash)
    simp only
    split
    · next g hg =>
      have hload := hst.trans (State.loadTables_tended (g := g) fun k => Flash.read_tidy k.flash hg)
      exact ((hload.trans (State.loadSettings_tended _ _)).trans (State.log_tended _ _)).trans (State.storeNotice_tended _ _ _)
    · exact (hst.trans (State.storeNotice_tended _ _ _)).trans (State.reportStore_tended _ _)
  · exact Tended.refl s
  · exact Tended.refl s

theorem State.startupLoad_tended {s : State} {g : Option ShowImage} (h : s.Tidied → ∀ x, g = some x → x.tidy = true) :
    Tended s (s.startupLoad g) := by
  unfold State.startupLoad
  split
  · next g =>
    have hmodes : Tended (s.setModes g.modes) s := .of_eq rfl rfl rfl rfl rfl
    exact ((s.log_tended _).trans (State.loadTables_tended fun k => h (hmodes.tidied k) g rfl)).trans
      (State.loadSettings_tended _ _)
  · exact Tended.refl s

theorem State.startupEnds_tended (s : State) : Tended s s.startupEnds := by
  unfold State.startupEnds
  split
  · exact Tended.refl s
  · have hst : Tended s (s.withStore { s.st with status := s.st.flash.read.1 }) :=
      State.withStore_tended (fun k => k.copy) (fun k => k.flash)
    have hload := hst.trans (State.startupLoad_tended (g := s.st.flash.read.2) fun k x hx => Flash.read_tidy k.flash hx)
    have hready : ∀ u : State, Tended u { u with ready := true } := fun _ => .of_eq rfl rfl rfl rfl rfl
    exact (((hload.trans (State.report_tended _ _ _)).trans (State.reportStore_tended _ _)).trans
      (State.storeNotice_tended _ .startup _)).trans (hready _)

/-! ## Outputs and time -/

theorem State.outputDrained_tended (s : State) (o : OutPort) : Tended s (s.outputDrained o) := by
  unfold State.outputDrained
  split
  · exact s.setOut_tended _ _
  · exact Tended.refl s

theorem State.advance_tended (s : State) : Tended s s.advance := by
  have hsample : Tended s (if sampleBoundary s.micros then s.sampleBuses else s) := Tended.ite State.click_tended
  have hbytes : ∀ u : State, Tended u u.shiftBytes := fun u =>
    foldl_rel Tended Tended.refl Tended.trans (fun s l => s.setLink_tended l _) allLinks u
  have hclock : ∀ (u : State) (te : TempoEngine) (n : Nat), Tended u { u.withTe te with micros := n } := fun _ _ _ =>
    .of_eq rfl rfl rfl rfl rfl
  exact (hsample.trans (hbytes _)).trans (hclock _ _ _)

/-! ## Resets, and every deed -/

/-- Before the rises: the reset tables, and the flash as it is left. -/
theorem State.resets_tended (s : State) (c : ResetCause) (d : PerLink Bool) :
    Tended { State.reset with
      st := { State.reset.st with flash := s.flashAfterReset }, cause := c, choices := s.choices + 1, pending := s.pending }
      (s.resets c d) := by
  have hrises : ∀ u : State, Tended u (allLinks.foldl (fun u l => if d.get l then u.detectRises l else u) u) := fun u =>
    foldl_rel Tended Tended.refl Tended.trans (fun u l => (u.detectRises_tended l).ite) allLinks u
  exact hrises _

theorem State.resets_tidied (s : State) (c : ResetCause) (d : PerLink Bool) (h : s.Tidied) : (s.resets c d).Tidied := by
  obtain ⟨-, -, -, htidy, -⟩ := resetMeetsTheInvariants
  have hreset := State.reset.tidy_iff.1 htidy
  exact (s.resets_tended c d).tidied ⟨hreset.scenes, hreset.cues, hreset.songs, hreset.patterns, hreset.plain, rfl,
    State.flashAfterReset_tidy h.flash⟩

theorem State.resets_promised (s : State) (c : ResetCause) (d : PerLink Bool) : (s.resets c d).Promised := by
  obtain ⟨-, -, -, -, hpromise⟩ := resetMeetsTheInvariants
  have hreset := State.reset.promised_iff.1 hpromise
  exact (s.resets_tended c d).promise ⟨hreset.owed, hreset.served⟩

/-- Every deed keeps both promises. -/
theorem Deed.tended {s t : State} (d : Deed s t) : Tended s t := by
  cases d with
  | resets c d => exact ⟨s.resets_tidied c d, fun _ => s.resets_promised c d⟩
  | startupEnds => exact s.startupEnds_tended
  | tick => exact s.tick_tended
  | sampleBuses => exact State.click_tended
  | beatEdge => exact s.markFrom_tended .line
  | lastMarkExpiry => exact s.withTe_tended _
  | lostDeadline => exact s.lostDeadline_tended
  | telegram l k p => exact s.telegram_tended l k p
  | saveEnds e => exact s.saveEnds_tended e
  | loadEnds => exact s.loadEnds_tended
  | holdExpiry l => exact s.holdExpiry_tended l
  | lineByte l b => exact s.lineByte_tended l b
  | badStop l => exact s.badStop_tended l
  | gapDeadline l => exact s.gapDeadline_tended l
  | telegramSent l => exact s.telegramSent_tended l
  | detectFalls l => exact s.detectFalls_tended l
  | detectRises l => exact s.detectRises_tended l
  | pulse => exact s.pulse_tended
  | resyncAllOff x => exact s.resyncAllOff_tended x
  | resyncReplay x => exact s.resyncReplay_tended x
  | resyncJoined x => exact s.resyncJoined_tended x
  | message i c m => exact (s.messageArrives_portsOnly i c m).tended (s.messageArrives_promiseKept i c m)
  | midiByte i b => exact (s.midiByte_portsOnly i b).tended (s.midiByte_promiseKept i b)
  | midiBytes i bs => exact (s.midiBytes_portsOnly i bs).tended (s.midiBytes_promiseKept i bs)
  | sensingLoss i => exact (s.sensingLoss_portsOnly i).tended (s.sensingLoss_promiseKept i)
  | framingError i => exact (s.framingError_portsOnly i).tended (s.framingError_promiseKept i)
  | slotExpiry k => exact (s.slotExpiry_routerOnly k).tended (s.slotExpiry_promiseKept k)
  | forwardTimeExpiry k => exact (s.forwardTimeExpiry_routerOnly k).tended (s.forwardTimeExpiry_promiseKept k)
  | outputByteSent o => exact s.setOut_tended _ _
  | outputDrained o => exact s.outputDrained_tended o

/-- Settles O8: a step is a deed or the passing of a microsecond, and each keeps the tables in order. -/
theorem everyStepKeepsTheTablesInOrder : Obligations.EveryStepKeepsTheTablesInOrder := by
  intro s t hs h
  have hqueue : ∀ (u : State) q, Tended u { u with pending := q } := fun _ _ => .of_eq rfl rfl rfl rfl rfl
  exact t.tidy_iff.2 (step_keeps (P := State.Tidied) (fun u q => (hqueue u q).tidied) (fun u => u.choose_tended.tidied)
    (fun u => u.advance_tended.tidied) (fun _ _ d => d.tended.tidied) (s.tidy_iff.1 hs) h)

/-! ## The live map under a held lock (R74, R75) -/

theorem State.resets_mapHeld (s : State) (c : ResetCause) (d : PerLink Bool) : MapHeld s.lr (s.resets c d).lr := by
  have hrises : ∀ u : State, LockKept u (allLinks.foldl (fun u l => if d.get l then u.detectRises l else u) u) := fun u =>
    foldl_rel LockKept LockKept.refl LockKept.trans (fun u l => by
      split
      · exact ⟨u.detectRises_mapKept l⟩
      · exact LockKept.refl u) allLinks u
  have hfree : (s.resets c d).lr.lock = none := (hrises _).map.elim id (fun h => h.1)
  exact .inr (.inl hfree)

/-- A command that brings at most one telegram: the live map stays under a lock held before and after it. -/
theorem exec_mapHeld (c : Instr) (s : State) (hbyte : ∀ l b, c ≠ .linkByte l b) (hdiscard : ∀ l e, c ≠ .telegramDiscard l e)
    (hgap : ∀ l, c ≠ .gapDeadline l) : ∃ t, exec c s = .next t ∧ MapHeld s.lr t.lr := by
  have hrefl : MapHeld s.lr s.lr := .inr (MapKept.refl _)
  cases c with
  | reset c d => exact ⟨_, rfl, s.resets_mapHeld c d⟩
  | startupImageRead => exact ⟨_, rfl, .inr s.startupEnds_lockKept.map⟩
  | tick => exact ⟨_, rfl, s.tick_whole.mapHeld⟩
  | samplePeriod => exact ⟨_, rfl, hrefl⟩
  | beatEdge => exact ⟨_, rfl, (s.markFrom_whole .line).mapHeld⟩
  | lastMarkExpiry => exact ⟨_, rfl, hrefl⟩
  | lostDeadline => exact ⟨_, rfl, s.lostDeadline_whole.mapHeld⟩
  | saveDone e => exact ⟨_, rfl, .inr (s.saveEnds_lockKept e).map⟩
  | loadDone => exact ⟨_, rfl, .inr s.loadEnds_lockKept.map⟩
  | holdExpiry l => exact ⟨_, rfl, .inr (s.holdExpiry_mapKept l)⟩
  | telegramDiscard l e => exact absurd rfl (hdiscard l e)
  | gapDeadline l => exact absurd rfl (hgap l)
  | linkByte l b => exact absurd rfl (hbyte l b)
  | telegramSent l => exact ⟨_, rfl, .inr (s.telegramSent_mapKept l)⟩
  | detectFall l => exact ⟨_, rfl, .inr (s.detectFalls_mapKept l)⟩
  | detectRise l => exact ⟨_, rfl, .inr (s.detectRises_mapKept l)⟩
  | pulseDeadline => exact ⟨_, rfl, s.pulse_whole.mapHeld⟩
  | resyncAllOff x => exact ⟨_, rfl, (s.resyncAllOff_watchOnly x).whole.mapHeld⟩
  | resyncReplay x => exact ⟨_, rfl, (s.resyncReplay_whole x).mapHeld⟩
  | resyncJoined x => exact ⟨_, rfl, (s.resyncJoined_whole x).mapHeld⟩
  | sensingDeadline i => exact ⟨_, rfl, (s.sensingLoss_portsOnly i).whole.mapHeld⟩
  | inputFramingError i => exact ⟨_, rfl, (s.framingError_portsOnly i).whole.mapHeld⟩
  | systemExclusive i d => exact ⟨_, rfl, (s.midiBytes_portsOnly i _).whole.mapHeld⟩
  | systemCommon i m => exact ⟨_, rfl, (s.midiBytes_portsOnly i _).whole.mapHeld⟩
  | activeSensing i | realTimeDiscard i _ | partialMessageByte i _ => exact ⟨_, rfl, (s.midiByte_portsOnly i _).whole.mapHeld⟩
  | noteOn i c _ _ | noteOff i c _ _ | sustainChange i c _ | allNotesOff i c _ | channelMessageDiscard i c _
  | controlChange i c _ _ | channelPressure i c _ | pitchBend i c _ _ | programChange i c _ =>
    exact ⟨_, rfl, (s.messageArrives_portsOnly i c _).whole.mapHeld⟩
  | filterExpiry k => exact ⟨_, rfl, (s.slotExpiry_routerOnly k).whole.mapHeld⟩
  | forwardTimeExpiry k => exact ⟨_, rfl, (s.forwardTimeExpiry_routerOnly k).whole.mapHeld⟩
  | outputByteSent o => exact ⟨_, rfl, hrefl⟩
  | outputDisabled o =>
    refine ⟨_, rfl, ?_⟩
    unfold State.outputDrained
    split
    · exact hrefl
    · exact hrefl
  | _ => exact ⟨_, rfl, s.telegram_mapHeld _ _ _⟩

/-- Settles O9: every deed and the passing of time keep the stations' promise; and what one command that brings at most one
telegram does to the map state leaves the live map under a lock held before and after it. -/
theorem everyStepKeepsTheStationsPromise : Obligations.EveryStepKeepsTheStationsPromise := by
  refine ⟨fun s t hs h => ?_, fun c s t h hc hheld hsame => ?_⟩
  · have hqueue : ∀ (u : State) q, Tended u { u with pending := q } := fun _ _ => .of_eq rfl rfl rfl rfl rfl
    exact t.promised_iff.2 (step_keeps (P := State.Promised) (fun u q => (hqueue u q).promise) (fun u => u.choose_tended.promise)
      (fun u => u.advance_tended.promise) (fun _ _ d => d.tended.promise) (s.promised_iff.1 hs) h)
  · obtain ⟨u, hu, hmap⟩ := exec_mapHeld c s (fun _ _ e => by simp only [e] at hc) (fun _ _ e => by simp only [e] at hc)
      (fun _ e => by simp only [e] at hc)
    obtain rfl : u = t := Host.Outcome.next.inj (hu.symm.trans h)
    rcases hmap with hfree | hfree | ⟨-, hlive⟩
    · exact absurd hfree hheld
    · exact absurd (hsame ▸ hfree) hheld
    · exact hlive

end Sys2Proof.Machine
end

section
/-! PROOFS. The writes and reads of the scene, song, cue and set list tables (R62, R63, R119, R120, R122, R182). -/

namespace Sys2Proof.Machine

/-! ## Writes -/

theorem State.reqWriteScene_eq {s : State} {n : Nat} {r : Scene} (l : Link) (hs : s.st.op = .none) (hn : n ≤ 127)
    (hr : r.ok = true) : (s.heard l).reqWriteScene l (byte n :: sceneBytes r) =
      if s.lr.staged.map Staging.scene = some n then s.answered l .writeScene .retry []
      else { s.answered l .writeScene .done [] with cs := { s.cs with scenes := Table.put s.cs.scenes n r } } := by
  simp only [State.reqWriteScene, State.heard_storeBusy, storeBusy_of_none hs, byteAt_byte_cons (Nat.lt_of_le_of_lt hn (by decide)),
    within_ok (Nat.zero_le n) hn, (scene_readsBack n hr).2, State.heard_lr, State.heard_reply]
  rfl

theorem State.reqWriteSong_eq {s : State} {n : Nat} {g : Song} (l : Link) (hs : s.st.op = .none) (hn : n ≤ 63)
    (hg : g.ok = true) : (s.heard l).reqWriteSong l (byte n :: songBytes g) =
      { s.answered l .writeSong .done [] with cs := { s.cs with songs := Table.put s.cs.songs n g } } := by
  simp only [State.reqWriteSong, State.heard_storeBusy, storeBusy_of_none hs, byteAt_byte_cons (Nat.lt_of_le_of_lt hn (by decide)),
    within_ok (Nat.zero_le n) hn, (song_readsBack n hg).2, State.heard_reply]
  rfl

theorem State.reqWriteCue_eq {s : State} {n : Nat} {c : Cue} (l : Link) (hs : s.st.op = .none) (hn : n ≤ 255)
    (hc : c.ok = true) : (s.heard l).reqWriteCue l (byte n :: cueBytes c) =
      if s.cs.current.map Latched.cue = some n ∨ s.cs.latchedNext.map Latched.cue = some n then
        s.answered l .writeCue .retry []
      else { s.answered l .writeCue .done [] with
        cs := { s.cs with cues := Table.put s.cs.cues n { record := c, done := false, result := .none } } } := by
  simp only [State.reqWriteCue, State.heard_storeBusy, storeBusy_of_none hs, byteAt_byte_cons (Nat.lt_succ_of_le hn),
    (cue_readsBack n hc).2, State.heard_cs, State.heard_reply, CueSeq.latched, Bool.or_eq_true, decide_eq_true_eq]
  rfl

/-- The set-list position is kept while it is below the new length (R120). -/
theorem keptPosition_eq (v : Option Nat) (len : Nat) :
    keptPosition v len = match v with | some p => if p < len then some p else none | none => none := by
  cases v with
  | none => rfl
  | some p => simp [keptPosition, Option.filter]

theorem State.reqWriteSetlist_eq {s : State} {ns : List Nat} (l : Link) (hs : s.st.op = .none) (hlen : ns.length ≤ 64)
    (hns : ∀ n ∈ ns, n ≤ 63) : (s.heard l).reqWriteSetlist l (byte ns.length :: ns.map byte) =
      if s.cs.segue.isSome then s.answered l .writeSetlist .retry []
      else { s.answered l .writeSetlist .done [] with
        cs := { s.cs with setlist := ns, setPos := keptPosition s.cs.setPos ns.length } } := by
  simp only [State.reqWriteSetlist, State.heard_storeBusy, storeBusy_of_none hs, (setlist_readsBack hlen hns).2, State.heard_cs,
    State.heard_reply, ← Option.isSome_iff_ne_none]
  rfl

/-- Settles O37: each write's payload reads back, and its own lemma says what it does. -/
theorem writesReplaceOneSlot : Obligations.WritesReplaceOneSlot := by
  refine ⟨fun s l hs => ⟨fun n r hn hr ht => ?_, fun n g hn hg ht => ?_, fun n c hn hc ht => ?_, fun ns hlen hns ht => ?_⟩,
    fun t k m x => Table.look_put t k m x, fun t k m x => Table.look_put t k m x, fun t k m x => Table.look_put t k m x⟩
  · rw [exec_of_takes (i := .writeScene l (byte n :: sceneBytes r)) rfl ht]
    exact congrArg _ (State.reqWriteScene_eq l hs hn hr)
  · rw [exec_of_takes (i := .writeSong l (byte n :: songBytes g)) rfl ht]
    exact congrArg _ (State.reqWriteSong_eq l hs hn hg)
  · rw [exec_of_takes (i := .writeCue l (byte n :: cueBytes c)) rfl ht]
    exact congrArg _ (State.reqWriteCue_eq l hs hn hc)
  · rw [exec_of_takes (i := .writeSetlist l (byte ns.length :: ns.map byte)) rfl ht]
    refine congrArg _ ((State.reqWriteSetlist_eq l hs hlen hns).trans ?_)
    rw [keptPosition_eq] <;> rfl

/-! ## Reads -/

theorem State.reqReadScene_eq (s : State) (l : Link) {n : Nat} (hn : n ≤ 255) : (s.heard l).reqReadScene l [byte n] =
    if 127 < n then s.answered l .readScene .range [0, 0, 255]
    else if s.st.op = .loading then s.answered l .readScene .busy []
    else match Table.look s.cs.scenes n with
      | some r => s.answered l .readScene .done (sceneBytes r)
      | none => s.answered l .readScene .empty [0, 0, 0] := by
  simp only [State.reqReadScene, byteAt_byte_cons (Nat.lt_succ_of_le hn)]
  by_cases h : 127 < n
  · rw [within_error (.inr h), if_pos h]
    exact State.heard_replyRange s l _ _
  · rw [within_ok (Nat.zero_le n) (Nat.le_of_not_lt h), if_neg h]
    simp only [State.heard_loading, State.loading_iff, State.heard_cs, State.heard_reply, State.heard_answer]
    rfl

theorem State.reqReadSong_eq (s : State) (l : Link) {n : Nat} (hn : n ≤ 255) : (s.heard l).reqReadSong l [byte n] =
    if 63 < n then s.answered l .readSong .range [0, 0, 255]
    else if s.st.op = .loading then s.answered l .readSong .busy []
    else match Table.look s.cs.songs n with
      | some g => s.answered l .readSong .done (songBytes g)
      | none => s.answered l .readSong .empty (0 :: 0xFF :: 0xFF :: be16 12000 ++ [4, 0, 0, 0]) := by
  simp only [State.reqReadSong, byteAt_byte_cons (Nat.lt_succ_of_le hn)]
  by_cases h : 63 < n
  · rw [within_error (.inr h), if_pos h]
    exact State.heard_replyRange s l _ _
  · rw [within_ok (Nat.zero_le n) (Nat.le_of_not_lt h), if_neg h]
    simp only [State.heard_loading, State.loading_iff, State.heard_cs, State.heard_reply, State.heard_answer]
    rfl

theorem State.reqReadCue_eq (s : State) (l : Link) {n : Nat} (hn : n ≤ 255) : (s.heard l).reqReadCue l [byte n] =
    if s.st.op = .loading then s.answered l .readCue .busy []
    else match Table.look s.cs.cues n with
      | some c => s.answered l .readCue .done (cueBytes c.record ++ [flag c.done, byte c.result.code])
      | none => s.answered l .readCue .empty [2, 0, 0, 0, 0, 0, 0, 0, 0, 0] := by
  simp only [State.reqReadCue, byteAt_byte_cons (Nat.lt_succ_of_le hn), State.heard_loading, State.loading_iff, State.heard_cs,
    State.heard_reply, State.heard_answer]
  rfl

theorem State.reqReadSetlist_eq (s : State) (l : Link) : (s.heard l).reqReadSetlist l =
    if s.st.op = .loading then s.answered l .readSetlist .busy []
    else s.answered l .readSetlist .done
      (byte s.cs.setlist.length :: s.cs.setlist.map byte ++ [byte (s.cs.setPos.getD 255), byte (s.cs.song.getD 255)]) := by
  simp only [State.reqReadSetlist, State.heard_loading, State.loading_iff, State.heard_cs, State.heard_reply, State.heard_answer]
  rfl

/-- Settles O38: each read's own lemma. -/
theorem readsReturnTheTables : Obligations.ReadsReturnTheTables := by
  intro s l
  refine ⟨fun n hn ht => ?_, fun n hn ht => ?_, fun n hn ht => ?_, fun ht => ?_⟩
  · rw [exec_of_takes (i := .readScene l [byte n]) rfl ht]
    exact congrArg _ (s.reqReadScene_eq l hn)
  · rw [exec_of_takes (i := .readSong l [byte n]) rfl ht]
    exact congrArg _ (s.reqReadSong_eq l hn)
  · rw [exec_of_takes (i := .readCue l [byte n]) rfl ht]
    exact congrArg _ (s.reqReadCue_eq l hn)
  · rw [exec_of_takes (i := .readSetlist l []) rfl ht]
    exact congrArg _ (s.reqReadSetlist_eq l)

end Sys2Proof.Machine
end

section
/-! PROOFS. LOCK and UNLOCK (R75, R76). -/

namespace Sys2Proof.Machine

/-! ## The checks of R149 -/

/-- While READY, a request that its link may send, that fits and that holds no field denied to the link, is taken. -/
theorem State.takes_of_ready {s : State} {l : Link} {k : ReqKind} {p : List Byte} (h : s.hearsRequest l = true)
    (hr : s.ready = true) (ha : k.allowed (Link.role l) = true) (hf : k.fits p = true) (hd : k.fieldDenied l p = false) :
    s.takes l k p = true := by
  simp only [State.takes, h, ha, hr, hf, hd, Bool.true_or, Bool.not_false, Bool.and_self]

/-- A request that its link may not send is DENIED (R149). -/
theorem State.request_notAllowed {s : State} {l : Link} {k : ReqKind} (h : s.hearsRequest l = true)
    (ha : k.allowed (Link.role l) = false) (p : List Byte) : s.request l k p = s.answered l k .denied [] := by
  rw [State.request_heard h, State.checkRequest, ha, Bool.not_false, if_pos rfl, State.heard_reply]

/-- A request that fits and holds a field denied to its link is DENIED (R151). -/
theorem State.request_fieldDenied {s : State} {l : Link} {k : ReqKind} {p : List Byte} (h : s.hearsRequest l = true)
    (hr : s.ready = true) (ha : k.allowed (Link.role l) = true) (hf : k.fits p = true) (hd : k.fieldDenied l p = true) :
    s.request l k p = s.answered l k .denied [] := by
  rw [State.request_heard h]
  simp only [State.checkRequest, ha, State.heard_ready, hr, hf, hd, Bool.not_true, Bool.false_and, Bool.false_eq_true, if_false,
    if_true, State.heard_reply]

/-! ## The lock (R75, R76) -/

/-- No position is carried while STOPPED (R70). -/
theorem State.barBeat_eq (s : State) :
    s.barBeat = if s.te.transport = .stopped then none else some ⟨s.te.pos.bar, s.te.pos.beat⟩ := by
  unfold State.barBeat State.ticking
  cases s.te.transport <;> rfl

/-- The lock changes hands: the new holder, and a SCENE notice of cause LOCK that shows it. -/
def State.lockTo (s : State) (h : Option Link) : State :=
  State.broadcast { s with lr := { s.lr with lock := h } } Mask.scene (.scene .lock s.lr.live.scene none none h s.barBeat)

theorem State.takeLock_lockTo (s : State) (l : Link) : s.takeLock l = s.lockTo (some l) := rfl

theorem State.releaseLock_lockTo (s : State) : s.releaseLock = s.lockTo none := rfl

theorem State.mayLock_control (s : State) : s.mayLock .s3 = true := rfl

theorem State.mayLock_station (s : State) (x : Station) : s.mayLock x.link = (s.station x).state.onAir := by
  cases x <;> rfl

theorem StationState.onAir_iff (a : StationState) : a.onAir = true ↔ a = .up ∨ a = .suspect := by
  cases a <;> decide

/-- LOCK on a FREE lock, by a link with a right to it. -/
theorem State.reqLock_free {s : State} {l : Link} (h : s.lr.lock = none) : (s.heard l).reqLock l =
    if s.mayLock l then (s.answered l .lock .done []).lockTo (some l) else s.answered l .lock .state [] := by
  have hmay : (s.heard l).mayLock l = s.mayLock l := rfl
  simp only [State.reqLock, State.heard_lr, h, hmay, State.heard_reply, State.takeLock_lockTo]

theorem State.reqLock_held {s : State} {l h : Link} (hs : s.lr.lock = some h) : (s.heard l).reqLock l =
    if h = l then s.answered l .lock .already [] else s.answered l .lock .denied [] := by
  simp only [State.reqLock, State.heard_lr, hs, State.heard_reply]

theorem bitAt_flag (f : Bool) (r : List Byte) : bitAt (flag f :: r) 0 0 = f := (byteAt_flag (p := flag f :: r) (o := 0) rfl).2

theorem State.reqUnlock_eq (s : State) (l : Link) (f : Bool) : (s.heard l).reqUnlock l [flag f] =
    if f then (if s.lr.lock = none then s.answered l .unlock .done [] else (s.answered l .unlock .done []).lockTo none)
    else if s.lr.lock = some l then (s.answered l .unlock .done []).lockTo none
    else s.answered l .unlock .denied [] := by
  simp only [State.reqUnlock, bitAt_flag, State.heard_lr, State.heard_reply, State.releaseLock_lockTo]

/-- Every link but the timing station's may send LOCK and UNLOCK. -/
theorem allowed_lock_iff (l : Link) : ReqKind.allowed .lock (Link.role l) = decide (l ≠ .s2) := by cases l <;> rfl

theorem allowed_unlock_iff (l : Link) : ReqKind.allowed .unlock (Link.role l) = decide (l ≠ .s2) := by cases l <;> rfl

/-- Only the control station may force. -/
theorem fieldDenied_unlock {l : Link} (h : l ≠ .s2) (f : Bool) :
    ReqKind.fieldDenied .unlock l [flag f] = (f && decide (l ≠ .s3)) := by
  cases l with
  | s0 | s1 | s3 => cases f <;> rfl
  | s2 => exact absurd rfl h

theorem exec_lock {s : State} {l : Link} (h : s.hearsRequest l = true) (hr : s.ready = true) (hl : l ≠ .s2) :
    exec (.lock l []) s = .next ((s.heard l).reqLock l) :=
  exec_of_takes (i := .lock l []) rfl
    (State.takes_of_ready h hr (by rw [allowed_lock_iff, decide_eq_true hl]) rfl (by cases l <;> rfl))

theorem exec_unlock {s : State} {l : Link} {f : Bool} (h : s.hearsRequest l = true) (hr : s.ready = true) (hl : l ≠ .s2)
    (hf : f = true → l = .s3) : exec (.unlock l [flag f]) s = .next ((s.heard l).reqUnlock l [flag f]) := by
  refine exec_of_takes (i := .unlock l [flag f]) rfl
    (State.takes_of_ready h hr (by rw [allowed_unlock_iff, decide_eq_true hl]) (by cases f <;> rfl) ?_)
  rw [fieldDenied_unlock hl]
  cases f with
  | false => rfl
  | true => rw [Bool.true_and, decide_eq_false (fun hn => hn (hf rfl))]

/-- Settles O39: the checks decide who is heard, and the holder and the sender's state decide the rest. -/
theorem lockTable : Obligations.LockTable := by
  intro s l h hr notice taken released
  have htaken : (s.answered l .lock .done []).lockTo (some l) = taken := by
    rw [State.lockTo, State.barBeat_eq]
    rfl
  have hreleased : (s.answered l .unlock .done []).lockTo none = released := by
    rw [State.lockTo, State.barBeat_eq]
    rfl
  refine ⟨fun hl => ⟨?_, fun f => ?_⟩, fun hl => ⟨fun hfree hs3 => ?_, fun x hfree hx => ?_, fun hown => ?_,
    fun j hj hne => ?_, ?_, fun hs3 => ?_, fun hs3 => ?_⟩⟩
  · rw [exec_of_asRequest (i := .lock l []) rfl, State.request_notAllowed h (by rw [allowed_lock_iff, hl]; rfl)]
  · rw [exec_of_asRequest (i := .unlock l [flag f]) rfl, State.request_notAllowed h (by rw [allowed_unlock_iff, hl]; rfl)]
  · rw [exec_lock h hr hl, State.reqLock_free hfree, if_pos (by rw [hs3, State.mayLock_control]), htaken]
  · rw [exec_lock h hr hl, State.reqLock_free hfree]
    have hmay : s.mayLock l = true ↔ (s.station x).state = .up ∨ (s.station x).state = .suspect := by
      rw [hx, State.mayLock_station, StationState.onAir_iff]
    simp only [hmay, htaken]
  · rw [exec_lock h hr hl, State.reqLock_held hown, if_pos rfl]
  · rw [exec_lock h hr hl, State.reqLock_held hj, if_neg hne]
  · rw [exec_unlock (f := false) h hr hl (fun hf => nomatch hf), State.reqUnlock_eq, hreleased]
    rfl
  · rw [exec_unlock h hr hl (fun _ => hs3), State.reqUnlock_eq, hreleased]
    rfl
  · rw [exec_of_asRequest (i := .unlock l [flag true]) rfl, State.request_fieldDenied h hr
      (by rw [allowed_unlock_iff, decide_eq_true hl]) rfl (by rw [fieldDenied_unlock hl, decide_eq_true hs3]; rfl)]

end Sys2Proof.Machine
end

section
/-! PROOFS. SET_ACTIVE and RESYNC (R100, R174 to R176, R178). -/

namespace Sys2Proof.Machine

theorem stationOf_code (x : Station) (r : List Byte) : stationOf (byteAt (byte (Station.code x) :: r) 0) = some x := by
  cases x <;> rfl

theorem stationOf_none {n : Nat} (h : 2 ≤ n) : stationOf n = none := by
  unfold stationOf
  split
  · omega
  · omega
  · rfl

theorem State.aired_iff (s : State) (x : Station) :
    s.aired x = true ↔ (s.station x).state = .up ∨ (s.station x).state = .suspect := decide_eq_true_iff

/-! ## SET_ACTIVE -/

theorem State.reqSetActive_eq (s : State) (l : Link) (x : Station) :
    (s.heard l).reqSetActive l [byte (Station.code x)] =
      if (s.station x).state = .up then
        if s.sw.active = some x then s.answered l .setActive .already []
        else (s.answered l .setActive .done []).nowActive x .request
      else s.answered l .setActive .state [] := by
  simp only [State.reqSetActive, stationOf_code, field_some, State.heard_station, State.heard_sw, State.heard_reply,
    State.makeActive_eq]

theorem State.reqSetActive_range (s : State) (l : Link) {b : Byte} (h : 2 ≤ b.toNat) :
    (s.heard l).reqSetActive l [b] = s.answered l .setActive .range [0, 0, 255] := by
  have hstation : stationOf (byteAt [b] 0) = none := stationOf_none h
  simp only [State.reqSetActive, hstation, field, State.heard_replyRange]
  rfl

/-! ## RESYNC -/

theorem State.reqResync_eq (s : State) (l : Link) (x : Station) : (s.heard l).reqResync l [byte (Station.code x)] =
    if s.aired x then ((s.answered l .resync .done []).moved x .joining).report .requested (some (.link x.link))
    else s.answered l .resync .state [] := by
  simp only [State.reqResync, stationOf_code, field_some, State.heard_station, ← State.aired_eq, State.heard_reply,
    State.changeStation_eq]

theorem State.reqResync_range (s : State) (l : Link) {b : Byte} (h : 2 ≤ b.toNat) :
    (s.heard l).reqResync l [b] = s.answered l .resync .range [0, 0, 255] := by
  have hstation : stationOf (byteAt [b] 0) = none := stationOf_none h
  simp only [State.reqResync, hstation, field, State.heard_replyRange]
  rfl

/-- A station on the air that goes to JOINING begins its resync, and leaves the air. -/
theorem State.moved_joining_of_aired {s : State} {x : Station} (h : s.aired x = true) : s.moved x .joining =
    (((s.setStation x { s.station x with state := .joining, phase := .clearing }).marked x).clears x).offAir x true := by
  rw [State.moved, h]

/-- A resync of a station that neither holds the lock nor is active is the station's own affair. -/
theorem State.moved_joining_of_neither {s : State} {x : Station} (hl : s.lr.lock ≠ some x.link) (ha : s.sw.active ≠ some x) :
    s.moved x .joining =
      ((s.setStation x { s.station x with state := .joining, phase := .clearing }).marked x).clears x := by
  refine State.offAir_of_neither _ _ _ ?_ (.inl ?_)
  · rw [State.clears_lr]; exact hl
  · rw [State.clears_active]; exact ha

/-- Settles O48: each request's own lemma, and what a move of a station on the air to JOINING comes to. -/
theorem activeAndResyncRequestsAct : Obligations.ActiveAndResyncRequestsAct := by
  intro s l x
  refine ⟨fun ht => ?_, fun ht => ?_, fun b hb => ⟨fun ht => ?_, fun ht => ?_⟩⟩
  · have hexec : exec (.setActive l [byte (Station.code x)]) s = .next ((s.heard l).reqSetActive l [byte (Station.code x)]) :=
      exec_of_takes rfl ht
    rw [hexec, State.reqSetActive_eq]
    refine ⟨fun hup ha => ?_, fun hup ha => ?_, fun hup => ?_⟩
    · rw [if_pos hup, if_pos ha]
    · rw [if_pos hup, if_neg ha]
      rfl
    · rw [if_neg hup]
  · have hexec : exec (.resync l [byte (Station.code x)]) s = .next ((s.heard l).reqResync l [byte (Station.code x)]) :=
      exec_of_takes rfl ht
    rw [hexec, State.reqResync_eq]
    refine ⟨fun hup hsuspect => ?_, fun h hlock hactive => ?_, fun h => ?_⟩
    · rw [if_neg (fun h => ((s.aired_iff x).1 h).elim hup hsuspect)]
    · rw [if_pos ((s.aired_iff x).2 h), State.moved_joining_of_neither (s := s.answered l .resync .done []) hlock hactive]
      rfl
    · have haired : (s.answered l .resync .done []).aired x = true := (s.aired_iff x).2 h
      rw [if_pos ((s.aired_iff x).2 h), State.moved_joining_of_aired haired]
      rfl
  · rw [exec_of_takes (i := .setActive l [b]) rfl ht]
    exact congrArg _ (s.reqSetActive_range l hb)
  · rw [exec_of_takes (i := .resync l [b]) rfl ht]
    exact congrArg _ (s.reqResync_range l hb)

end Sys2Proof.Machine
end

section
/-! PROOFS. DETECT: sessions end and begin, and the stations behind them (R77, R160, R161, R167, R168, R174). -/

namespace Sys2Proof.Machine

/-- The record of a station whose link has just fallen or risen: nothing missed, awaited, echoed or to be replayed. -/
def StationRec.cleared (st : StationState) : StationRec :=
  { state := st, miss := 0, awaited := none, echoed := false, phase := .none }

/-- Whatever it was, a station whose link falls is ABSENT and off the air (R167, R168). -/
theorem State.stationFall_eq (s : State) (x : Station) : s.stationFall x =
    if s.hears x then
      (((s.setStation x (.cleared .absent)).unmarked x).offAir x (s.aired x)).report .disconnected (some (.link x.link))
    else ((s.setStation x (.cleared .absent)).unmarked x).offAir x (s.aired x) := by
  have hmoved : (s.setStation x { s.station x with miss := 0, awaited := none, echoed := false }).moved x .absent =
      ((s.setStation x (.cleared .absent)).unmarked x).offAir x (s.aired x) := by
    simp only [State.moved, State.aired, State.station_setStation, if_true, State.setStation_setStation]
    rfl
  rw [State.stationFall, State.changeStation_eq, hmoved]
  cases s.hears x <;> rfl

/-- A station whose link rises is DOWN (R161, R167). -/
theorem State.stationRise_eq (s : State) (x : Station) : s.stationRise x =
    ((s.setStation x (.cleared .down)).unmarked x).offAir x (s.aired x) := by
  rw [State.stationRise, State.changeStation_eq]
  simp only [State.moved, State.aired, State.station_setStation, if_true, State.setStation_setStation]
  rfl

/-- Neither a holder of the lock nor active, a station leaves with its own record and marks alone. -/
theorem State.leaves_of_neither {s : State} {x : Station} {was : Bool} (r : StationRec) (hl : s.lr.lock ≠ some x.link)
    (ha : s.sw.active ≠ some x ∨ was = false) :
    ((s.setStation x r).unmarked x).offAir x was = (s.setStation x r).unmarked x := State.offAir_of_neither _ _ _ hl ha

theorem State.detectFalls_low {s : State} {l : Link} (h : (s.link l).high = false) : s.detectFalls l = s := by
  rw [State.detectFalls, h]; rfl

theorem State.detectRises_high {s : State} {l : Link} (h : (s.link l).high = true) : s.detectRises l = s := by
  rw [State.detectRises, h]; rfl

/-- A sound station's link falls: the session ends, then the station (R160, R167). -/
theorem State.detectFalls_station {s : State} {x : Station} (h : (s.link x.link).high = true) :
    s.detectFalls x.link = (s.setLink x.link LinkState.reset).stationFall x := by
  rw [State.detectFalls, if_pos h]
  cases x <;> rfl

theorem State.detectRises_station {s : State} {x : Station} (h : (s.link x.link).high = false) :
    s.detectRises x.link = (s.setLink x.link { s.link x.link with high := true }).stationRise x := by
  rw [State.detectRises, h]
  cases x <;> rfl

/-- Settles O53: by the link, and what the fall and the rise of a station's link make of the station. -/
theorem detectEndsAndOpensSessions : Obligations.DetectEndsAndOpensSessions := by
  intro s gone
  refine ⟨fun l h => congrArg _ (State.detectFalls_low h), fun l h => congrArg _ (State.detectRises_high h), fun h => ?_,
    fun h => ?_, fun x h hlock hactive => ?_, fun l hl h => ?_, fun x h hstate hlock => ?_, fun x h => ?_⟩
  · exact congrArg _ (show s.detectFalls .s2 = _ by rw [State.detectFalls, if_pos h]; rfl)
  · exact congrArg _ (show s.detectFalls .s3 = _ by rw [State.detectFalls, if_pos h]; rfl)
  · refine congrArg _ ((State.detectFalls_station h).trans ?_)
    rw [State.stationFall_eq, State.leaves_of_neither (s := s.setLink x.link LinkState.reset) _ hlock (.inl hactive)]
    have hhears : (s.setLink x.link LinkState.reset).hears x = true ↔
        ¬((s.station x).state = .down ∨ (s.station x).state = .absent) := by
      rw [State.hears_iff, State.station_setLink]
      cases (s.station x).state <;> simp
    simp only [hhears, ite_not]
    rfl
  · rcases hl with rfl | rfl
    · exact congrArg _ (show s.detectRises .s2 = _ by rw [State.detectRises, h]; rfl)
    · exact congrArg _ (show s.detectRises .s3 = _ by rw [State.detectRises, h]; rfl)
  · refine congrArg _ ((State.detectRises_station h).trans ?_)
    have haired : (s.setLink x.link { s.link x.link with high := true }).aired x = false := by
      rw [State.aired_eq, State.station_setLink, hstate]
      rfl
    rw [State.stationRise_eq, State.leaves_of_neither (s := s.setLink x.link _) _ hlock (.inr haired)]
    rfl
  · refine congrArg _ ((State.detectFalls_station h).trans ?_)
    rw [State.stationFall_eq]
    simp only [State.hears_iff, State.station_setLink]
    rfl

end Sys2Proof.Machine
end

section
/-! PROOFS. The pulse deadline: what each station's miss check, PULSE and awaited pulse come to (R77, R153, R154, R164, R165, R168,
R177). -/

namespace Sys2Proof.Machine

/-! ## One station's share -/

/-- The pulse, the miss limit and the next deadline stay, and every link's hold. -/
structure PulseKept (s t : State) : Prop where
  pulse : t.sw.pulse = s.sw.pulse
  limit : t.sw.limit = s.sw.limit
  deadline : t.sw.deadline = s.sw.deadline
  hold : ∀ l, (t.link l).hold = (s.link l).hold

theorem PulseKept.trans {s t u : State} (h : PulseKept s t) (k : PulseKept t u) : PulseKept s u :=
  ⟨k.pulse.trans h.pulse, k.limit.trans h.limit, k.deadline.trans h.deadline, fun l => (k.hold l).trans (h.hold l)⟩

theorem WatchOnly.pulseKept {s t : State} (h : WatchOnly s t) : PulseKept s t :=
  ⟨h.pulse, h.limit, h.deadline, fun l => (h.link l).hold⟩

theorem State.setStation_pulseKept (s : State) (x : Station) (r : StationRec) : PulseKept s (s.setStation x r) :=
  ⟨rfl, rfl, rfl, fun _ => rfl⟩

/-- A station's last pulse was awaited and not echoed, and its link is not held (R165). -/
def State.missed (s : State) (x : Station) : Bool :=
  (s.station x).awaited.isSome && !(s.station x).echoed && decide ((s.link x.link).hold = none)

theorem State.missed_iff (s : State) (x : Station) : s.missed x = true ↔
    ¬((s.station x).awaited = none ∨ (s.station x).echoed = true ∨ (s.link x.link).hold ≠ none) := by
  simp only [State.missed, Bool.and_eq_true, decide_eq_true_eq, Bool.not_eq_true', Option.isSome_iff_ne_none, not_or, not_not,
    Bool.not_eq_true, and_assoc, ne_eq]

/-- The miss check (R165): a station on its link goes DOWN at the limit, and one that is UP is SUSPECT from 2 on. -/
theorem State.missCheck_eq (s : State) (x : Station) : s.missCheck x =
    if (s.station x).awaited = none ∨ (s.station x).echoed = true ∨ (s.link x.link).hold ≠ none then s
    else
      let miss := min 255 ((s.station x).miss + 1)
      let m := s.setStation x { s.station x with miss := miss }
      if ((s.station x).state = .up ∨ (s.station x).state = .suspect ∨ (s.station x).state = .joining) ∧ s.sw.limit ≤ miss then
        (m.moved x .down).report .lost (some (.link x.link))
      else if (s.station x).state = .up ∧ 2 ≤ miss then (m.moved x .suspect).report .suspect (some (.link x.link))
      else m := by
  unfold State.missCheck
  simp only [State.changeStation_eq]
  congr 1
  cases (s.station x).state <;> simp

theorem State.missCheck_pulseKept (s : State) (x : Station) : PulseKept s (s.missCheck x) := by
  have hmiss : ∀ m, PulseKept s (s.setStation x { s.station x with miss := m }) := fun _ => s.setStation_pulseKept x _
  have hmoved : ∀ (u : State) new k, PulseKept u (u.changeStation x new k) := fun u new k =>
    (u.changeStation_watchOnly x new k).pulseKept
  unfold State.missCheck
  simp only
  split
  · exact ⟨rfl, rfl, rfl, fun _ => rfl⟩
  · split
    · split
      · exact (hmiss _).trans (hmoved _ _ _)
      · split
        · exact (hmiss _).trans (hmoved _ _ _)
        · exact hmiss _
    · split
      · exact (hmiss _).trans (hmoved _ _ _)
      · exact hmiss _
    · split
      · exact (hmiss _).trans (hmoved _ _ _)
      · exact hmiss _
    · exact hmiss _
    · exact hmiss _

theorem State.pulseStation_pulseKept (s : State) (x : Station) : PulseKept s (s.pulseStation x) := by
  unfold State.pulseStation
  split
  · exact ⟨rfl, rfl, rfl, fun _ => rfl⟩
  · exact ((s.missCheck_pulseKept x).trans (State.offerNotice_linksOnly _ _ _).watchOnly.pulseKept).trans
      (State.setStation_pulseKept _ _ _)

/-! ## The stations' records -/

/-- A station's record after a pulse that was not echoed. -/
def StationRec.overdue (r : StationRec) (limit : Nat) : StationRec :=
  let miss := min 255 (r.miss + 1)
  if (r.state = .up ∨ r.state = .suspect ∨ r.state = .joining) ∧ limit ≤ miss then
    { r with miss := miss, state := .down, phase := .none }
  else if r.state = .up ∧ 2 ≤ miss then { r with miss := miss, state := .suspect, phase := .none }
  else { r with miss := miss }

theorem State.report_stations (s : State) (k : FaultKind) (p : Option FaultPort) : (s.report k p).sw.stations = s.sw.stations :=
  congrArg Watch.stations (s.report_linksOnly k p).watch

theorem State.missCheck_stations (s : State) (x : Station) : (s.missCheck x).sw.stations =
    if s.missed x then s.sw.stations.set x ((s.station x).overdue s.sw.limit) else s.sw.stations := by
  have hdown : ∀ r : StationRec, ((s.setStation x r).moved x .down).sw.stations =
      s.sw.stations.set x { r with state := .down, phase := .none } := fun r => by
    refine (State.offAir_stations _ _ _).trans ?_
    rw [State.setStation_setStation, State.station_setStation_same]
    rfl
  rw [State.missCheck_eq]
  by_cases h : s.missed x = true
  · rw [if_neg ((s.missed_iff x).1 h), if_pos h]
    simp only [StationRec.overdue]
    split
    · rw [State.report_stations, hdown]
    · split
      · rw [State.report_stations, State.moved, State.setStation_setStation, State.station_setStation_same]
        rfl
      · rfl
  · rw [if_pos (not_not.1 fun k => h ((s.missed_iff x).2 k)), if_neg h]

/-- A station's record after its share of a pulse deadline. -/
def StationRec.pulsed (r : StationRec) (missed : Bool) (limit n : Nat) : StationRec :=
  if r.state = .absent then r
  else { (if missed then r.overdue limit else r) with awaited := some n, echoed := false }

theorem State.pulseStation_station (s : State) (x y : Station) : (s.pulseStation x).station y =
    if y = x then (s.station x).pulsed (s.missed x) s.sw.limit s.sw.pulse else s.station y := by
  have hoffered : ∀ z, ((s.missCheck x).offerNotice x.link (.pulse s.sw.pulse)).station z =
      if z = x then (if s.missed x then (s.station x).overdue s.sw.limit else s.station x) else s.station z := fun z => by
    have hstations := congrArg Watch.stations (State.offerNotice_linksOnly (s.missCheck x) x.link (.pulse s.sw.pulse)).watch
    rw [State.missCheck_stations] at hstations
    rw [State.station, hstations]
    split
    · exact PerStation.get_set _ _ _ _
    · split
      · next h => rw [h]; rfl
      · rfl
  unfold State.pulseStation StationRec.pulsed
  split
  · split
    · next h => rw [h]
    · rfl
  · rw [State.station_setStation]
    split
    · rw [hoffered x, if_pos rfl]
    · next h => rw [hoffered y, if_neg h]

theorem State.pulseStation_missed (s : State) {x y : Station} (h : y ≠ x) : (s.pulseStation x).missed y = s.missed y := by
  rw [State.missed, State.pulseStation_station, if_neg h, (s.pulseStation_pulseKept x).hold]
  rfl

/-- Both shares, in either order: each station's record depends on its own alone. -/
theorem State.pulseStations_station (s : State) {x y : Station} (h : y ≠ x) (z : Station) :
    ((s.pulseStation x).pulseStation y).station z = (s.station z).pulsed (s.missed z) s.sw.limit s.sw.pulse := by
  have hkept := s.pulseStation_pulseKept x
  rw [State.pulseStation_station, hkept.limit, hkept.pulse, State.pulseStation_missed s h]
  split
  · next hz => rw [State.pulseStation_station, if_neg h, hz]
  · next hz =>
    have hzx : z = x := (Station.eq_other_of_ne hz).trans (Station.eq_other_of_ne h.symm).symm
    rw [State.pulseStation_station, if_pos hzx, hzx]

end Sys2Proof.Machine
end

section
/-! PROOFS. The pulse deadline whole, and the ECHO report (R164, R166, R171, R174). -/

namespace Sys2Proof.Machine

/-! ## The pulse deadline -/

/-- A station's record after its share, field by field: only a change of state ends a resync. -/
theorem StationRec.pulsed_eq {r : StationRec} (h : r.state ≠ .absent) (missed : Bool) (limit n : Nat) :
    let miss := if missed then min 255 (r.miss + 1) else r.miss
    let state := if missed = false then r.state
      else match r.state with
        | .up => if limit ≤ miss then StationState.down else if 2 ≤ miss then .suspect else .up
        | .suspect => if limit ≤ miss then .down else .suspect
        | .joining => if limit ≤ miss then .down else .joining
        | .down => .down
        | .absent => .absent
    r.pulsed missed limit n =
      { state := state, miss := miss, awaited := some n, echoed := false,
        phase := if state = r.state then r.phase else .none } := by
  rw [StationRec.pulsed, if_neg h]
  cases missed with
  | false => simp
  | true =>
    simp only [StationRec.overdue, if_true, Bool.true_eq_false, if_false]
    by_cases hlimit : limit ≤ min 255 (r.miss + 1)
    · cases hs : r.state <;> simp [hlimit]
    · by_cases hsuspect : 2 ≤ min 255 (r.miss + 1)
      · cases hs : r.state <;> simp [hlimit, hsuspect]
      · cases hs : r.state <;> simp [hlimit, hsuspect]

/-- The next deadline and the new pulse number (R164). -/
def State.nextPulse (s : State) : State :=
  { s with sw := { s.sw with deadline := s.sw.deadline + 50000#32, pulse := (s.sw.pulse + 1) % 256 } }

/-- The two shares come in either order where it shows. -/
theorem State.pulse_cases (s : State) :
    s.pulse = (s.nextPulse.pulseStation .a).pulseStation .b ∨
      s.pulse = if Config.aFirst s.choices then (s.nextPulse.choose.pulseStation .a).pulseStation .b
        else (s.nextPulse.choose.pulseStation .b).pulseStation .a := by
  unfold State.pulse
  simp only
  split
  · exact .inl rfl
  · exact .inr rfl

/-- What a pulse deadline leaves of the watch, whatever the order. -/
theorem State.pulse_watch (s : State) : PulseKept s.nextPulse s.pulse ∧
    ∀ x, s.pulse.station x = (s.station x).pulsed (s.missed x) s.sw.limit ((s.sw.pulse + 1) % 256) := by
  have hshares : ∀ (u : State) {x y : Station}, y ≠ x → PulseKept s.nextPulse u →
      (∀ z, u.station z = s.station z ∧ u.missed z = s.missed z) →
      PulseKept s.nextPulse ((u.pulseStation x).pulseStation y) ∧
        ∀ z, ((u.pulseStation x).pulseStation y).station z =
          (s.station z).pulsed (s.missed z) s.sw.limit ((s.sw.pulse + 1) % 256) := fun u x y hne hu hsame =>
    ⟨(hu.trans (u.pulseStation_pulseKept x)).trans (State.pulseStation_pulseKept _ y), fun z => by
      rw [State.pulseStations_station u hne, (hsame z).1, (hsame z).2, hu.limit, hu.pulse]
      rfl⟩
  have hquiet := hshares s.nextPulse (x := .a) (y := .b) (by decide) ⟨rfl, rfl, rfl, fun _ => rfl⟩ (fun _ => ⟨rfl, rfl⟩)
  have hfree : PulseKept s.nextPulse s.nextPulse.choose := ⟨rfl, rfl, rfl, fun _ => rfl⟩
  rcases s.pulse_cases with h | h
  · rw [h]; exact hquiet
  · rw [h]
    split
    · exact hshares s.nextPulse.choose (by decide) hfree (fun _ => ⟨rfl, rfl⟩)
    · exact hshares s.nextPulse.choose (by decide) hfree (fun _ => ⟨rfl, rfl⟩)

theorem State.offerNotice_eq (s : State) (l : Link) (n : Notice) : s.offerNotice l n =
    if (s.link l).high = false then s
    else if 16 ≤ (s.link l).free then s.post l (.notice n) else s.report .noticeDrop (some (.link l)) := by
  rw [State.offerNotice]
  cases (s.link l).high <;> rfl

/-! ## Echoes -/

/-- A report that its link may send and that fits is taken by the state that heard it (R153). -/
theorem State.reportTelegram_taken {s : State} {l : Link} {k : RepKind} {p : List Byte} (h : (s.link l).high = true)
    (ha : k.allowed (Link.role l) = true) (hf : k.fits p = true) :
    s.reportTelegram l k p = (s.heard l).performReport l k p := by
  have hcode : reportOfCode ((byte (64 + k.code)).toNat - 64) = some k := by cases k <;> rfl
  have hclass : 64 ≤ (byte (64 + k.code)).toNat ∧ (byte (64 + k.code)).toNat < 128 := by cases k <;> decide
  rw [State.reportTelegram, State.telegram, if_pos h, State.takeTelegram, if_neg (Nat.not_lt.2 hclass.1), if_pos hclass.2,
    State.takeReport, hcode]
  simp only [ha, hf, Bool.not_true, Bool.false_eq_true, if_false]
  rfl

theorem exec_echo {s : State} {x : Station} {n : Nat} (h : (s.link x.link).high = true) (hn : n < 256) :
    exec (.echo x.link [byte n]) s = .next ((s.heard x.link).echoed x n) := by
  have htaken : s.reportTelegram x.link .echo [byte n] = (s.heard x.link).performReport x.link .echo [byte n] :=
    State.reportTelegram_taken h (by cases x <;> rfl) rfl
  refine congrArg _ (htaken.trans ?_)
  have hstation : x.link.station = some x := by cases x <;> rfl
  simp only [State.performReport, hstation, byteAt_byte_cons hn]

/-- An ECHO of another pulse is stale (R166). -/
theorem State.echoed_stale {s : State} {x : Station} {n : Nat} (h : (s.station x).awaited ≠ some n) : s.echoed x n = s :=
  if_neg h

/-- An ECHO of the awaited pulse of a station that it brings nowhere. -/
theorem State.echoed_stays {s : State} {x : Station} {n : Nat} (h : (s.station x).awaited = some n)
    (hs : (s.station x).state = .up ∨ (s.station x).state = .joining ∨ (s.station x).state = .absent) :
    s.echoed x n = s.setStation x { s.station x with echoed := true, miss := 0 } := by
  rw [State.echoed, if_pos h]
  rcases hs with hs | hs | hs <;> rw [hs]

/-- An ECHO of the awaited pulse of a SUSPECT station brings it back to UP. -/
theorem State.echoed_suspect {s : State} {x : Station} {n : Nat} (h : (s.station x).awaited = some n)
    (hs : (s.station x).state = .suspect) : s.echoed x n =
      (s.setStation x { s.station x with echoed := true, miss := 0, state := .up, phase := .none }).joinsAir x := by
  rw [State.echoed, if_pos h]
  simp only [hs, State.changeStation_eq, State.moved, State.station_setStation_same, State.setStation_setStation, or_true, if_true]

/-- An ECHO of the awaited pulse of a station that is DOWN begins its resync. -/
theorem State.echoed_down {s : State} {x : Station} {n : Nat} (h : (s.station x).awaited = some n)
    (hs : (s.station x).state = .down) : s.echoed x n =
      (((s.setStation x { s.station x with echoed := true, miss := 0, state := .joining, phase := .clearing }).marked x).clears
        x).offAir x false := by
  have haired : (s.setStation x { s.station x with echoed := true, miss := 0 }).aired x = false := by
    rw [State.aired_eq, State.station_setStation_same]
    exact congrArg StationState.onAir hs
  rw [State.echoed, if_pos h]
  simp only [State.changeStation_eq, State.moved, haired, State.station_setStation_same, State.setStation_setStation]
  rw [hs]

/-- The active station keeps its place beside one that has become UP, where it is that one or on the air (R174). -/
theorem State.joinsAir_of_served {s : State} {x y : Station} (ha : s.sw.active = some y)
    (hy : y = x ∨ (s.station y).state.onAir = true) : s.joinsAir x = s := by
  simp only [State.joinsAir, ha]
  refine if_neg fun ⟨hne, hup, hsuspect⟩ => ?_
  rcases hy with hy | hy
  · exact hne hy
  · exact ((StationState.onAir_iff _).1 hy).elim hup hsuspect

/-- Settles O54: a station's record after its share, the shares in their order, and the ECHO by the station's state. -/
theorem pulsesAndEchoesDriveTheStations : Obligations.PulsesAndEchoesDriveTheStations := by
  refine ⟨fun s => ⟨s.pulse, rfl, ?_⟩, ?_, ?_⟩
  · obtain ⟨hkept, hstation⟩ := s.pulse_watch
    refine ⟨hkept.deadline, hkept.pulse, hkept.limit, fun x => ?_⟩
    rw [hstation]
    intro r missed miss state
    split
    · next habsent => exact if_pos habsent
    · next habsent => exact StationRec.pulsed_eq habsent _ _ _
  · intro s n s1 checked pulsed share
    have hshare : ∀ (v : State) (x : Station), PulseKept s1 v → share v x = v.pulseStation x := fun v x hv => by
      have hlimit : v.sw.limit = s.sw.limit := hv.limit
      have hpulse : v.sw.pulse = n := hv.pulse
      rw [State.pulseStation, State.missCheck_eq, State.offerNotice_eq, hlimit, hpulse]
    have hboth : ∀ (v : State) (x y : Station), PulseKept s1 v →
        share (share v x) y = (v.pulseStation x).pulseStation y := fun v x y hv => by
      rw [hshare v x hv, hshare _ y (hv.trans (v.pulseStation_pulseKept x))]
    have hsame : PulseKept s1 s1 := ⟨rfl, rfl, rfl, fun _ => rfl⟩
    have hfree : PulseKept s1 s1.choose := ⟨rfl, rfl, rfl, fun _ => rfl⟩
    rw [hboth s1 _ _ hsame, hboth s1.choose _ _ hfree, hboth s1.choose _ _ hfree]
    exact s.pulse_cases.imp (congrArg _) (congrArg _)
  · intro s x n hn h l u r
    rw [exec_echo h hn]
    refine ⟨fun hstale => congrArg _ (State.echoed_stale hstale), fun hawaited => ⟨fun hs => ?_, fun y hs hy hserved => ?_,
      fun hs hlock => ?_, fun hs => ?_, fun hs => ?_⟩⟩
    · exact congrArg _ (State.echoed_stays (s := s.heard l) hawaited hs)
    · refine congrArg _ ((State.echoed_suspect (s := s.heard l) hawaited hs).trans ?_)
      refine State.joinsAir_of_served (y := y) hy (hserved.imp id fun hair => ?_)
      rw [State.station_setStation]
      split
      · rfl
      · exact hair
    · refine congrArg _ ((State.echoed_down (s := s.heard l) hawaited hs).trans ?_)
      refine State.offAir_of_neither _ _ _ ?_ (.inr rfl)
      rw [State.clears_lr]
      exact hlock
    · exact congrArg _ (State.echoed_suspect (s := s.heard l) hawaited hs)
    · exact congrArg _ (State.echoed_down (s := s.heard l) hawaited hs)

end Sys2Proof.Machine
end

section
/-! PROOFS. LOAD_SCENE_NOW, the commands of a cue to the staged map, program entries, and what a swap leaves as it was (R61, R65,
R66, R68 to R74, R98). -/

namespace Sys2Proof.Machine

/-! ## LOAD_SCENE_NOW (R66) -/

/-- The swap point of LOAD_SCENE_NOW's second field. -/
def requestedPoint (q : Nat) : SwapPoint := if q = 0 then .now else if q = 1 then .nextBeat else .nextBar

theorem parseLoadScene_badScene {n : Nat} (q : Byte) (hn : n ≤ 255) (h : 127 < n) :
    parseLoadScene [byte n, q] = .error ⟨0, none⟩ := by
  rw [parseLoadScene, byteAt_byte_cons (Nat.lt_succ_of_le hn), within_error (.inr h)]
  rfl

theorem parseLoadScene_badPoint {n q : Nat} (hn : n ≤ 127) (hq : q ≤ 255) (h : 2 < q) :
    parseLoadScene [byte n, byte q] = .error ⟨1, none⟩ := by
  have bscene : byteAt [byte n, byte q] 0 = n := byteAt_byte_cons (by omega) _
  have bpoint : byteAt [byte n, byte q] 1 = q := byteAt_of_getD rfl (by omega)
  rw [parseLoadScene, bscene, bpoint, within_ok (Nat.zero_le n) hn, Parse.ok_bind]
  match q, h with
  | _ + 3, _ => rfl

theorem parseLoadScene_ok {n q : Nat} (hn : n ≤ 127) (hq : q ≤ 2) :
    parseLoadScene [byte n, byte q] = .ok (n, requestedPoint q) := by
  have bscene : byteAt [byte n, byte q] 0 = n := byteAt_byte_cons (by omega) _
  have bpoint : byteAt [byte n, byte q] 1 = q := byteAt_of_getD rfl (by omega)
  rw [parseLoadScene, bscene, bpoint, within_ok (Nat.zero_le n) hn, Parse.ok_bind]
  match q, hq with
  | 0, _ => rfl
  | 1, _ => rfl
  | 2, _ => rfl

theorem State.reqLoadScene_bad {s : State} {l : Link} {p : List Byte} {e : BadField} (h : parseLoadScene p = .error e) :
    (s.heard l).reqLoadScene l p = s.answered l .loadSceneNow .range (be16 e.offset ++ [optByte e.place]) := by
  rw [State.reqLoadScene, h]
  exact State.heard_replyRange s l _ _

/-- The checks of LOAD_SCENE_NOW in turn, and the staging. -/
theorem State.reqLoadScene_eq {s : State} {l : Link} {p : List Byte} {n : Nat} {point : SwapPoint}
    (h : parseLoadScene p = .ok (n, point)) : (s.heard l).reqLoadScene l p =
      if s.st.op = .loading then s.answered l .loadSceneNow .busy []
      else if s.lr.lock ≠ none then s.answered l .loadSceneNow .denied []
      else if s.lr.staged ≠ none then s.answered l .loadSceneNow .busy []
      else (s.answered l .loadSceneNow .done []).loadScene l n point := by
  simp only [State.reqLoadScene, h, State.heard_loading, State.loading_iff, State.heard_lr, State.heard_reply]

/-- A staging of a full copy of scene `n` (R65). -/
def State.sceneCopy (s : State) (n : Nat) (point : SwapPoint) (o : Origin) : Staging :=
  { record := (Table.look s.cs.scenes n).getD ⟨[], [], []⟩, scene := n, point := point, origin := o }

theorem State.loadScene_now (s : State) (l : Link) (n : Nat) : s.loadScene l n .now =
    State.swapped { s with lr := { s.lr with staged := some (s.sceneCopy n .now (.link l)) } } (s.sceneCopy n .now (.link l)) :=
  State.swap_eq_swapped _ _

theorem State.loadScene_later (s : State) (l : Link) (n : Nat) {q : Nat} (h : 1 ≤ q) :
    s.loadScene l n (requestedPoint q) =
      { s with lr := { s.lr with
        staged := some (s.sceneCopy n (if q = 1 then .nextBeat else .nextBar) (.link l)) } } := by
  rw [requestedPoint, if_neg (Nat.one_le_iff_ne_zero.1 h)]
  split
  · rfl
  · rfl

/-- A swap without programs and claim: the live map, and its notice. -/
theorem State.swapped_bare {s : State} {g : Staging} (hprograms : g.record.programs = []) (hclaim : s.lr.claim = none) :
    s.swapped g = { State.tellsScene { s with lr := { s.lr with live := ⟨g.record.layers, some g.scene⟩ } } .swapped
        g.scene g.origin with
      lr := { s.lr with live := ⟨g.record.layers, some g.scene⟩, staged := none, claim := none } } := by
  have hprogrammed : s.programmed g = { s with lr := { s.lr with live := ⟨g.record.layers, some g.scene⟩ } } := by
    rw [State.programmed, hprograms]
    rfl
  have hlr : ∀ u : State, (u.tellsScene .swapped g.scene g.origin).lr = u.lr := fun u => (u.broadcast_linksOnly _ _).lr
  rw [State.swapped, hprogrammed, State.emptied, hlr]
  simp only [hclaim, Option.map_none]

/-! ## A cue's commands (R71 to R74) -/

theorem State.stageCommand_waits {s : State} {h : Staging} {j : Link} (hs : s.lr.staged = some h) (ho : h.origin = .link j)
    (cue n : Nat) : s.stageCommand cue n = { s with lr := { s.lr with claim := some ⟨cue, n⟩ } } := by
  rw [State.stageCommand, hs]
  simp only [ho]

theorem State.stageCommand_stages {s : State} (h : ∀ g, s.lr.staged = some g → ∃ j, g.origin = .cue j) (cue n : Nat) :
    s.stageCommand cue n = { s with lr := { s.lr with claim := none, staged := some (s.sceneCopy n .cue (.cue cue)) } } := by
  rw [State.stageCommand]
  cases hs : s.lr.staged with
  | none => rfl
  | some g =>
    obtain ⟨j, hj⟩ := h g hs
    simp only [hj]
    rfl

theorem State.swapCommand_own {s : State} {h : Staging} {cue : Nat} (hl : s.lr.lock = none) (hs : s.lr.staged = some h)
    (ho : h.origin = .cue cue) (n : Nat) : s.swapCommand cue n = (s.swapped h, .ok) := by
  rw [State.swapCommand, if_pos hl, hs]
  simp only [ho, if_true, State.swap_eq_swapped]

theorem State.swapCommand_other {s : State} {cue : Nat} (hl : s.lr.lock = none)
    (ho : ∀ h, s.lr.staged = some h → h.origin ≠ .cue cue) (n : Nat) : s.swapCommand cue n =
      (State.swapped { s with lr := { s.lr with claim := none, staged := some (s.sceneCopy n .cue (.cue cue)) } }
        (s.sceneCopy n .cue (.cue cue)), .ok) := by
  rw [State.swapCommand, if_pos hl]
  cases hs : s.lr.staged with
  | none => exact congrArg (·, CueResult.ok) (State.swap_eq_swapped _ _)
  | some h =>
    simp only [if_neg (ho h hs)]
    exact congrArg (·, CueResult.ok) (State.swap_eq_swapped _ _)

theorem State.swapCommand_locked {s : State} (hl : s.lr.lock ≠ none) (cue n : Nat) : s.swapCommand cue n =
    (State.tellsScene { s with lr := { s.lr with claim := none, staged := none } } .skippedLock n (.cue cue), .skippedLock) :=
  if_neg hl

/-- The claim of a cue is cleared; another's stays. -/
def State.unclaimed (s : State) (cue : Nat) : State :=
  { s with lr := { s.lr with claim := if s.lr.claim.map CueClaim.cue = some cue then none else s.lr.claim } }

theorem State.withdraw_eq (s : State) (cue : Nat) : s.withdraw cue =
    if s.lr.staged.map Staging.origin = some (.cue cue) then (s.unclaimed cue).emptied else s.unclaimed cue := by
  have hclear : (if s.lr.claim.map CueClaim.cue = some cue then { s with lr := { s.lr with claim := none } } else s) =
      s.unclaimed cue := by
    unfold State.unclaimed
    split
    · rfl
    · rfl
  rw [State.withdraw, hclear, ← State.unstage_eq_emptied]
  rfl

/-! ## Programs, and what a swap leaves (R68, R69, R98) -/

theorem programGroup_eq (c : Chan) (msb lsb : Option Nat) (p : Nat) : programGroup c msb lsb p =
    (match msb with | some v => [.control c 0 v] | none => []) ++ (match lsb with | some v => [.control c 32 v] | none => []) ++
      [.program c p] := by
  cases msb <;> cases lsb <;> rfl

theorem State.sendProgram_out (s : State) {e : ProgEntry} {o : OutPort} (h : e.dest = .out o) :
    s.sendProgram e = ((s.offerGroup o (programGroup e.chan e.msb e.lsb e.program)).1,
      decide ((s.offerGroup o (programGroup e.chan e.msb e.lsb e.program)).2 = .dropped)) := by
  rw [State.sendProgram, h]

theorem State.sendProgram_sound (s : State) {e : ProgEntry} (h : e.dest = .sound) :
    s.sendProgram e =
      ((s.mirrorLive { replay := false, chan := e.chan, kind := .program e.program e.msb e.lsb }).1, false) := by
  rw [State.sendProgram, h]

/-- The live map and the filter slots stay, and the held-note table but for its replay-pending marks. -/
structure MapStays (s t : State) : Prop where
  live : t.lr.live = s.lr.live
  slots : t.lr.slots = s.lr.slots
  held : t.lr.held.map HeldEntry.bare = s.lr.held.map HeldEntry.bare

theorem MapStays.refl (s : State) : MapStays s s := ⟨rfl, rfl, rfl⟩

theorem MapStays.trans {s t u : State} (h : MapStays s t) (k : MapStays t u) : MapStays s u :=
  ⟨k.live.trans h.live, k.slots.trans h.slots, k.held.trans h.held⟩

theorem WatchOnly.mapStays {s t : State} (h : WatchOnly s t) : MapStays s t := ⟨h.live, h.slots, h.held⟩

theorem State.offerGroup_mapStays (s : State) (o : OutPort) (ms : List OutMsg) : MapStays s (s.offerGroup o ms).1 := by
  unfold State.offerGroup
  simp only
  split
  · split
    · exact ⟨rfl, rfl, rfl⟩
    · exact (s.report_linksOnly _ _).watchOnly.mapStays
  · exact MapStays.refl s

theorem State.sendProgram_mapStays (s : State) (e : ProgEntry) : MapStays s (s.sendProgram e).1 := by
  cases h : e.dest with
  | out o => rw [State.sendProgram_out s h]; exact s.offerGroup_mapStays _ _
  | sound => rw [State.sendProgram_sound s h]; exact (s.mirrorLive_watchOnly _).mapStays

/-- A swap sets the live map; its programs and its notice leave the rest of the map state. -/
theorem State.swapped_mapStays (s : State) (g : Staging) :
    MapStays { s with lr := { s.lr with live := ⟨g.record.layers, some g.scene⟩ } } (s.swapped g) := by
  have hprograms : MapStays { s with lr := { s.lr with live := ⟨g.record.layers, some g.scene⟩ } } (s.programmed g) :=
    foldl_rel MapStays MapStays.refl MapStays.trans (fun u e => u.sendProgram_mapStays e) g.record.programs _
  have hnotice : ∀ u : State, MapStays u (u.tellsScene .swapped g.scene g.origin) := fun u =>
    (u.broadcast_linksOnly _ _).watchOnly.mapStays
  have hempty : ∀ u : State, MapStays u u.emptied := fun _ => ⟨rfl, rfl, rfl⟩
  exact (hprograms.trans (hnotice _)).trans (hempty _)

/-- Settles O40: the request by its checks, each command of a cue by what is staged, and what a swap leaves. -/
theorem loadSceneNowStagesOrSwaps : Obligations.LoadSceneNowStagesOrSwaps := by
  intro s
  refine ⟨fun l n q hn hq ht => ?_, fun cue m => ⟨fun hs => ?_, fun h hs => ⟨fun j hj => ?_, fun j hj => ?_⟩,
    fun hl => ⟨fun h hs ho => ?_, fun ho => ?_⟩, fun hl => ?_, ?_⟩, fun e => ⟨fun o ho => ?_, fun ho => ?_⟩, fun g => ?_⟩
  · have hexec : exec (.loadSceneNow l [byte n, byte q]) s = .next ((s.heard l).reqLoadScene l [byte n, byte q]) :=
      exec_of_takes rfl ht
    rw [hexec]
    refine ⟨fun h => congrArg _ (State.reqLoadScene_bad (parseLoadScene_badScene _ hn h)), fun h127 h =>
      congrArg _ (State.reqLoadScene_bad (parseLoadScene_badPoint h127 hq h)), fun h127 h2 => ?_⟩
    rw [State.reqLoadScene_eq (parseLoadScene_ok h127 h2)]
    refine ⟨fun hop => ?_, fun hop hlock => ?_, fun hop hlock hstaged => ?_, fun hop hlock hstaged => ?_⟩
    · rw [if_pos hop]
    · rw [if_neg hop, if_pos hlock]
    · rw [if_neg hop, if_neg (not_not.2 hlock), if_pos hstaged]
    · rw [if_neg hop, if_neg (not_not.2 hlock), if_neg (not_not.2 hstaged)]
      intro r g
      refine ⟨fun h1 => ?_, fun h0 hprograms hclaim => ?_, fun h0 => ?_⟩
      · rw [State.loadScene_later _ _ _ h1]
        rfl
      · intro live
        have hbare := State.swapped_bare (s := { s.answered l .loadSceneNow .done [] with
          lr := { s.lr with staged := some (g .now) } }) (g := g .now) hprograms hclaim
        rw [h0]
        refine congrArg _ ((State.loadScene_now _ l n).trans (hbare.trans ?_))
        simp only [State.tellsScene, live, hlock, hstaged, hclaim]
        rfl
      · rw [h0]
        exact congrArg _ (State.loadScene_now _ l n)
  · exact State.stageCommand_stages (fun g hg => nomatch hs.symm.trans hg) cue m
  · exact State.stageCommand_stages (fun g hg => ⟨j, by rw [← Option.some.inj (hs.symm.trans hg)]; exact hj⟩) cue m
  · exact State.stageCommand_waits hs hj cue m
  · exact State.swapCommand_own hl hs ho m
  · exact State.swapCommand_other hl ho m
  · exact State.swapCommand_locked hl cue m
  · exact s.withdraw_eq cue
  · have hgroup := s.sendProgram_out ho
    rw [programGroup_eq] at hgroup
    exact hgroup
  · exact s.sendProgram_sound ho
  · have h := s.swapped_mapStays g
    exact ⟨h.live, h.slots, h.held⟩

end Sys2Proof.Machine
end

section
/-! PROOFS. The velocity of a layer: curve, trim, crossfade and clamp (R84, R85). -/

namespace Sys2Proof.Machine

/-! ## The whole root of SOFT -/

theorem isqrt_le (r n : Nat) : isqrt r n ≤ r := by
  induction r with
  | zero => exact Nat.le_refl 0
  | succ k ih =>
    rw [isqrt]
    split
    · exact Nat.le_refl _
    · exact Nat.le_succ_of_le ih

theorem isqrt_mul_self_le (r n : Nat) : isqrt r n * isqrt r n ≤ n := by
  induction r with
  | zero => exact Nat.zero_le n
  | succ k ih =>
    rw [isqrt]
    split
    case isTrue hfits => exact hfits
    case isFalse => exact ih

/-- The search from r down misses no root, as long as the root it seeks is not above r. -/
theorem lt_succ_isqrt_mul_self {r n : Nat} (hn : n < (r + 1) * (r + 1)) : n < (isqrt r n + 1) * (isqrt r n + 1) := by
  induction r with
  | zero => exact hn
  | succ k ih =>
    rw [isqrt]
    split
    case isTrue => exact hn
    case isFalse hexceeds => exact ih (Nat.lt_of_not_le hexceeds)

theorem one_le_isqrt {r n : Nat} (h1 : 1 ≤ n) (hn : n < (r + 1) * (r + 1)) : 1 ≤ isqrt r n := by
  by_contra hzero
  have hroot := lt_succ_isqrt_mul_self hn
  rw [Nat.lt_one_iff.1 (Nat.lt_of_not_le hzero)] at hroot
  omega

/-! ## The curves (R84) -/

theorem Curve.apply_soft_lt {v : Nat} (h : v ≤ 127) :
    127 * v < (Curve.apply .soft v + 1) * (Curve.apply .soft v + 1) :=
  lt_succ_isqrt_mul_self (r := 127) (by omega)

theorem Curve.apply_hard_le {v : Nat} (h : v ≤ 127) : Curve.apply .hard v ≤ 127 :=
  have hsquare : v * v ≤ 127 * 127 := Nat.mul_le_mul h h
  Nat.max_le.2 ⟨by decide, Nat.div_le_of_le_mul hsquare⟩

/-- A curve with its fixed velocity in range takes played velocities to velocities (R60, R84). -/
theorem Curve.apply_within {c : Curve} (hc : c.ok = true) {v : Nat} (h1 : 1 ≤ v) (h : v ≤ 127) :
    1 ≤ c.apply v ∧ c.apply v ≤ 127 := by
  cases c with
  | linear => exact ⟨h1, h⟩
  | soft => exact ⟨one_le_isqrt (by omega) (by omega), isqrt_le 127 _⟩
  | hard => exact ⟨Nat.le_max_left 1 _, Curve.apply_hard_le h⟩
  | fixed f => exact of_decide_eq_true hc

/-! ## Crossfade and clamp (R85) -/

theorem Layer.velocity_within (y : Layer) (v : Nat) : 1 ≤ y.velocity v ∧ y.velocity v ≤ 127 :=
  ⟨Nat.le_max_left 1 _, Nat.max_le.2 ⟨by decide, Nat.min_le_left 127 _⟩⟩

theorem Layer.velocity_unfaded {y : Layer} {v : Nat} (h : y.fade = 0 ∨ y.fade ≤ min (v - y.vmin) (y.vmax - v)) :
    y.velocity v = max 1 (min 127 ((y.curve.apply v * Config.multiplier y.trim + 128) / 256)) := by
  rw [Layer.velocity, if_neg]
  rintro ⟨hfades, hnear⟩
  exact h.elim (Nat.ne_of_gt hfades) (Nat.not_le_of_lt hnear)

theorem Layer.velocity_faded {y : Layer} {v : Nat} (h : min (v - y.vmin) (y.vmax - v) < y.fade) :
    y.velocity v = max 1 (min 127 ((y.curve.apply v * Config.multiplier y.trim + 128) / 256
      * (min (v - y.vmin) (y.vmax - v) + 1) / (y.fade + 1))) := by
  rw [Layer.velocity, if_pos ⟨Nat.zero_lt_of_lt h, h⟩]

/-- Settles O19: the gain table by evaluation, each curve by its rule, and the layer by whether its crossfade acts. -/
theorem velocityOfALayer : Obligations.VelocityOfALayer :=
  ⟨by decide, fun v h1 h127 =>
    ⟨rfl, isqrt_mul_self_le 127 _, Curve.apply_soft_lt h127, rfl, fun _ => rfl,
      fun _ hc => Curve.apply_within hc h1 h127,
      fun y => ⟨(y.velocity_within v).1, (y.velocity_within v).2, Layer.velocity_unfaded, Layer.velocity_faded⟩⟩⟩

end Sys2Proof.Machine
end

section
/-! PROOFS. The arithmetic of the controllers: the filtered value and the scaled value (R108, R112). -/

namespace Sys2Proof.Machine

/-! ## The mean of the latest values (R108) -/

/-- A history that holds a value has a latest value to take the mean of, so the mean divides by no zero. -/
theorem one_le_latestCount {h : List Nat} {n : Nat} (hh : h ≠ []) (hn : 1 ≤ n) : 1 ≤ min n h.length :=
  Nat.le_min.2 ⟨hn, List.length_pos_iff.2 hh⟩

theorem filtered_mul_le (h : List Nat) (n : Nat) :
    filtered h n * min n h.length ≤ (h.drop (h.length - min n h.length)).sum + min n h.length / 2 :=
  Nat.div_mul_le_self _ _

theorem lt_succ_filtered_mul {h : List Nat} {n : Nat} (hh : h ≠ []) (hn : 1 ≤ n) :
    (h.drop (h.length - min n h.length)).sum + min n h.length / 2 < (filtered h n + 1) * min n h.length :=
  Nat.lt_mul_of_div_lt (Nat.lt_succ_self (filtered h n)) (one_le_latestCount hh hn)

/-- The mean of one value is the value: the latest one, whatever stands before it. -/
theorem filtered_append_one (h : List Nat) (v : Nat) : filtered (h ++ [v]) 1 = v := by
  have hcount : min 1 (h ++ [v]).length = 1 := Nat.min_eq_left (by simp)
  have hlatest : (h ++ [v]).drop ((h ++ [v]).length - 1) = [v] := by simp
  simp only [filtered, hcount, hlatest, List.sum_singleton]
  omega

/-! ## The line from lo to hi (R112) -/

/-- 127 times the height at f of the straight line from lo at 0 to hi at 127, before it is rounded. -/
def Layer.line (y : Layer) (f : Nat) : Nat := y.lo * (127 - f) + y.hi * f

theorem Layer.scale_eq_line (y : Layer) (f : Nat) : y.scale f = (y.line f + 63) / 127 := rfl

theorem Layer.mul_scale_le (y : Layer) (f : Nat) : 127 * y.scale f ≤ y.line f + 63 :=
  Nat.mul_div_le _ 127

theorem Layer.lt_mul_succ_scale (y : Layer) (f : Nat) : y.line f + 63 < 127 * (y.scale f + 1) :=
  Nat.lt_mul_div_succ _ (by decide)

/-- A point of the line that is a whole number needs no rounding. -/
theorem Layer.scale_of_line {y : Layer} {f v : Nat} (h : y.line f = 127 * v) : y.scale f = v := by
  rw [Layer.scale_eq_line, h]
  omega

/-- The two weights of the line add up to 127. -/
theorem weights_sum {f : Nat} (hf : f ≤ 127) (a : Nat) : a * (127 - f) + a * f = 127 * a := by
  rw [← Nat.mul_add, Nat.sub_add_cancel hf, Nat.mul_comm]

theorem Layer.le_line (y : Layer) {f : Nat} (hf : f ≤ 127) : 127 * min y.lo y.hi ≤ y.line f :=
  calc 127 * min y.lo y.hi
      = min y.lo y.hi * (127 - f) + min y.lo y.hi * f := (weights_sum hf _).symm
    _ ≤ y.lo * (127 - f) + y.hi * f :=
      Nat.add_le_add (Nat.mul_le_mul_right _ (Nat.min_le_left _ _)) (Nat.mul_le_mul_right _ (Nat.min_le_right _ _))

theorem Layer.line_le (y : Layer) {f : Nat} (hf : f ≤ 127) : y.line f ≤ 127 * max y.lo y.hi :=
  calc y.lo * (127 - f) + y.hi * f
      ≤ max y.lo y.hi * (127 - f) + max y.lo y.hi * f :=
      Nat.add_le_add (Nat.mul_le_mul_right _ (Nat.le_max_left _ _)) (Nat.mul_le_mul_right _ (Nat.le_max_right _ _))
    _ = 127 * max y.lo y.hi := weights_sum hf _

theorem Layer.min_le_scale (y : Layer) {f : Nat} (hf : f ≤ 127) : min y.lo y.hi ≤ y.scale f := by
  have hline := y.le_line hf
  have hround := y.lt_mul_succ_scale f
  omega

theorem Layer.scale_le_max (y : Layer) {f : Nat} (hf : f ≤ 127) : y.scale f ≤ max y.lo y.hi := by
  have hline := y.line_le hf
  have hround := y.mul_scale_le f
  omega

theorem Layer.scale_zero (y : Layer) : y.scale 0 = y.lo :=
  Layer.scale_of_line (by simp [Layer.line, Nat.mul_comm])

theorem Layer.scale_top (y : Layer) : y.scale 127 = y.hi :=
  Layer.scale_of_line (by simp [Layer.line, Nat.mul_comm])

theorem Layer.scale_full {y : Layer} (hlo : y.lo = 0) (hhi : y.hi = 127) (f : Nat) : y.scale f = f :=
  Layer.scale_of_line (by simp [Layer.line, hlo, hhi])

/-- Settles O20: the mean and the line are each pinned by the division that rounds them, and the line by its two weights. -/
theorem controllerArithmetic : Obligations.ControllerArithmetic :=
  ⟨fun h n hh hn => ⟨filtered_mul_le h n, lt_succ_filtered_mul hh hn⟩, filtered_append_one,
    fun y f hf => ⟨y.mul_scale_le f, y.lt_mul_succ_scale f, y.min_le_scale hf, y.scale_le_max hf, y.scale_zero,
      y.scale_top, fun hlo hhi => Layer.scale_full hlo hhi f⟩⟩

end Sys2Proof.Machine
end

section
/-! PROOFS. The walk of a chase, and what a chosen cue does (R139, R140). -/

namespace Sys2Proof.Machine

/-! ## Outcomes and statuses -/

/-- An outcome that an action can have: LATE and NONE are results of a completion alone (R121, R127). -/
structure CueResult.IsOutcome (r : CueResult) : Prop where
  not_late : r ≠ .late
  not_none : r ≠ .none

theorem State.swapCommand_outcome (s : State) (cue n : Nat) : (s.swapCommand cue n).2.IsOutcome := by
  unfold State.swapCommand
  split
  · split
    · split <;> exact ⟨nofun, nofun⟩
    · exact ⟨nofun, nofun⟩
  · exact ⟨nofun, nofun⟩

theorem State.nextSong_outcome (s : State) (closing : Bool) (pos : Option BarBeat) :
    (s.nextSong closing pos).2.IsOutcome := by
  unfold State.nextSong
  dsimp only
  split
  · exact ⟨nofun, nofun⟩
  · split
    · exact ⟨nofun, nofun⟩
    · split
      · exact ⟨nofun, nofun⟩
      · split <;> exact ⟨nofun, nofun⟩

theorem State.doAction_outcome (s : State) (c : Latched) (closing : Bool) (pos : Option BarBeat) :
    (s.doAction c closing pos).2.IsOutcome := by
  unfold State.doAction
  cases c.record.action with
  | nop | meter | click | marker => exact ⟨nofun, nofun⟩
  | scene n => exact s.swapCommand_outcome c.cue n
  | tempo | ramp | program => dsimp only; split <;> exact ⟨nofun, nofun⟩
  | stop m => cases m <;> exact ⟨nofun, nofun⟩
  | nextSong => exact s.nextSong_outcome closing pos

/-- The result of a completion whose action has had an outcome (R127). -/
theorem completionResult_of_outcome {r : CueResult} (h : r.IsOutcome) (late : Bool) :
    completionResult r late = if r = .ok then (if late then .late else .ok) else r := by
  cases r with
  | late => exact absurd rfl h.not_late
  | none => exact absurd rfl h.not_none
  | ok | skippedLock | following | endOfSet | fault => rfl

theorem completionResult_on_time {r : CueResult} (h : r.IsOutcome) : completionResult r false = r := by
  rw [completionResult_of_outcome h]
  split
  · next hr => exact hr.symm
  · rfl

/-! ## The walk, cue by cue (R139) -/

theorem Cue.stopsWalk_iff (c : Cue) (bar : Nat) (first : Bool) : c.stopsWalk bar first = true ↔
    c.trigger = .onGo ∨ c.isHold = true ∨ (∃ p q, c.trigger = .at p q ∧ bar ≤ p) ∨
      (c.trigger = .afterPrevious ∧ first = true ∧ bar ≤ 1) := by
  unfold Cue.stopsWalk
  cases c.trigger <;> simp

/-- A song's first cue is never chosen for bar 1: an AT position has a bar of at least 1 (R121). -/
theorem Cue.stopsWalk_at_bar_one {c : Cue} (h : c.trigger.ok = true) : c.stopsWalk 1 true = true := by
  rw [Cue.stopsWalk_iff]
  match ht : c.trigger with
  | .onGo => exact .inl rfl
  | .afterPrevious => exact .inr (.inr (.inr ⟨rfl, rfl, Nat.le_refl 1⟩))
  | .at p q =>
    have hp : 1 ≤ p := by simp only [ht, Trigger.ok, decide_eq_true_eq] at h; omega
    exact .inr (.inr (.inl ⟨p, q, rfl, hp⟩))

section
variable {cues : Table CueSlot} {n : Nat} {slot : CueSlot} {bar : Nat} {first : Bool}

theorem walk_empty (h : Table.look cues n = none) (bar k : Nat) (first : Bool) (chosen : List Latched) :
    walk cues bar (k + 1) n first chosen = ⟨chosen, none, some .emptyCue⟩ := by
  rw [walk, h]

theorem walk_stops (h : Table.look cues n = some slot) (hs : slot.record.stopsWalk bar first = true) (k : Nat)
    (chosen : List Latched) : walk cues bar (k + 1) n first chosen = ⟨chosen, some n, none⟩ := by
  rw [walk, h]
  exact if_pos hs

theorem walk_ends (h : Table.look cues n = some slot) (hs : ¬slot.record.stopsWalk bar first = true)
    (he : slot.record.isEnd = true) (k : Nat) (chosen : List Latched) :
    walk cues bar (k + 1) n first chosen = ⟨chosen ++ [⟨n, slot.record⟩], none, none⟩ := by
  rw [walk, h]
  exact (if_neg hs).trans (if_pos he)

theorem walk_goesOn (h : Table.look cues n = some slot) (hs : ¬slot.record.stopsWalk bar first = true)
    (he : slot.record.isEnd = false) (k : Nat) (chosen : List Latched) :
    walk cues bar (k + 1) n first chosen = walk cues bar k slot.record.next false (chosen ++ [⟨n, slot.record⟩]) := by
  rw [walk, h]
  exact (if_neg hs).trans (if_neg (by rw [he]; decide))

end

/-! ## What a walk chooses -/

/-- A cue that a walk to a bar may choose: the record of a WRITTEN slot, not ON_GO, without HOLD, not AT the bar or later
(R139). -/
structure PastCue (cues : Table CueSlot) (bar : Nat) (c : Latched) : Prop where
  written : ∃ slot, Table.look cues c.cue = some slot ∧ slot.record = c.record
  not_onGo : c.record.trigger ≠ .onGo
  no_hold : c.record.isHold = false
  before : ∀ p q, c.record.trigger = .at p q → p < bar

theorem PastCue.of_not_stopsWalk {cues : Table CueSlot} {n bar : Nat} {slot : CueSlot} {first : Bool}
    (h : Table.look cues n = some slot) (hs : ¬slot.record.stopsWalk bar first = true) :
    PastCue cues bar ⟨n, slot.record⟩ := by
  rw [Cue.stopsWalk_iff] at hs
  simp only [not_or, not_exists, not_and] at hs
  obtain ⟨hgo, hhold, hat, -⟩ := hs
  exact ⟨⟨slot, h, rfl⟩, hgo, Bool.eq_false_iff.2 hhold, fun p q ht => Nat.lt_of_not_le (hat p q ht)⟩

/-- A walk adds at most as many cues as it has room for, exactly as many under CHASE_LIMIT, and past ones alone. -/
theorem walk_adds (cues : Table CueSlot) (bar room n : Nat) (first : Bool) (chosen : List Latched) :
    ∃ new, (walk cues bar room n first chosen).chosen = chosen ++ new ∧ new.length ≤ room ∧
      ((walk cues bar room n first chosen).fault = some .chaseLimit → new.length = room) ∧
      ∀ c ∈ new, PastCue cues bar c := by
  induction room generalizing n first chosen with
  | zero => exact ⟨[], (List.append_nil _).symm, Nat.le_refl 0, fun _ => rfl, nofun⟩
  | succ k ih =>
    cases h : Table.look cues n with
    | none => exact ⟨[], by simp [walk_empty h]⟩
    | some slot =>
      by_cases hs : slot.record.stopsWalk bar first = true
      · exact ⟨[], by simp [walk_stops h hs]⟩
      · have hpast : PastCue cues bar ⟨n, slot.record⟩ := .of_not_stopsWalk h hs
        cases he : slot.record.isEnd with
        | true => exact ⟨[⟨n, slot.record⟩], by simpa [walk_ends h hs he] using hpast⟩
        | false =>
          obtain ⟨new, hchosen, hlen, hfull, hnew⟩ := ih slot.record.next false (chosen ++ [⟨n, slot.record⟩])
          rw [walk_goesOn h hs he]
          refine ⟨⟨n, slot.record⟩ :: new, by rw [hchosen, List.append_assoc]; rfl, Nat.succ_le_succ hlen,
            fun hf => congrArg (· + 1) (hfull hf), fun c hc => ?_⟩
          rcases List.mem_cons.1 hc with rfl | hc
          · exact hpast
          · exact hnew c hc

/-- The walk to bar 1 chooses nothing: it stops at the song's first cue, or finds it EMPTY. -/
theorem walk_to_bar_one {cues : Table CueSlot} {n : Nat}
    (h : ∀ slot, Table.look cues n = some slot → slot.record.trigger.ok = true) (k : Nat) (chosen : List Latched) :
    (walk cues 1 (k + 1) n true chosen).chosen = chosen := by
  cases hn : Table.look cues n with
  | none => rw [walk_empty hn]
  | some slot => rw [walk_stops hn (Cue.stopsWalk_at_bar_one (h slot hn))]

/-! ## What a chosen cue does (R140) -/

/-- The action of a chosen cue, and its outcome. -/
def State.chosenAction (s : State) (c : Latched) (later : Bool) : State × CueResult :=
  match c.record.action with
  | .scene _ => if later then (s, .ok) else s.doAction c false none
  | .marker _ | .stop _ | .nextSong | .nop => (s, .ok)
  | .tempo _ | .ramp _ _ | .meter _ | .click _ _ | .program _ => s.doAction c false none

theorem State.chosenAction_outcome (s : State) (c : Latched) (later : Bool) :
    (s.chosenAction c later).2.IsOutcome := by
  have hact := s.doAction_outcome c false none
  unfold State.chosenAction
  cases c.record.action with
  | marker | stop | nextSong | nop => exact ⟨nofun, nofun⟩
  | tempo | ramp | meter | click | program => exact hact
  | scene n =>
    cases later with
    | true => exact ⟨nofun, nofun⟩
    | false => exact hact

theorem State.chaseCue_eq (s : State) (c : Latched) (later : Bool) :
    s.chaseCue c later = (s.chosenAction c later).1.writeStatus c.cue (s.chosenAction c later).2 :=
  congrArg ((s.chosenAction c later).1.writeStatus c.cue) (completionResult_on_time (s.chosenAction_outcome c later))

/-- Settles O22: the bounds from what a walk adds, the walk's four steps, and the action of each chosen cue. -/
theorem chaseWalkChoosesPastCuesOnly : Obligations.ChaseWalkChoosesPastCuesOnly := by
  intro cues bar n first
  obtain ⟨new, hchosen, hlen, hfull, hnew⟩ := walk_adds cues bar 64 n first []
  rw [List.nil_append] at hchosen
  rw [hchosen]
  refine ⟨hlen, hfull, fun c hc => ?_, fun h => walk_to_bar_one h _ _, fun k chosen =>
    ⟨rfl, fun h => walk_empty h _ _ _ _, fun x hx => ?_⟩, fun s c later => ⟨?_, rfl⟩⟩
  · obtain ⟨hwritten, hgo, hhold, hbefore⟩ := hnew c hc
    exact ⟨hwritten, hgo, hhold, hbefore⟩
  · have hstops := x.record.stopsWalk_iff bar first
    exact ⟨fun h => walk_stops hx (hstops.2 h) k chosen, fun h he => walk_ends hx (mt hstops.1 h) he k chosen,
      fun h he => walk_goesOn hx (mt hstops.1 h) he k chosen⟩
  · obtain ⟨m, trigger, action, isEnd, isHold, isNotify, lead, next⟩ := c
    refine congrArg (State.chaseCues · later) ((s.chaseCue_eq _ (laterScene later)).trans ?_)
    cases action <;> rfl

end Sys2Proof.Machine
end

section
/-! PROOFS. How a cue becomes current, takes its action, completes and chains on (R124, R127, R128, R131 to R136). -/

namespace Sys2Proof.Machine

/-! ## Statuses, and becoming current (R121, R124) -/

/-- A slot that is written twice holds the second record. -/
theorem Table.put_put {α : Type} (t : Table α) (k : Nat) (x y : α) : Table.put (Table.put t k x) k y = Table.put t k y := by
  induction t with
  | nil => simp [Table.put]
  | cons e r ih =>
    obtain ⟨j, z⟩ := e
    rcases Nat.lt_trichotomy k j with h | rfl | h
    · simp [Table.put, h]
    · simp [Table.put]
    · simp [Table.put, Nat.not_lt_of_gt h, Nat.ne_of_gt h, ih]

theorem State.writeStatus_empty {s : State} {n : Nat} (h : Table.look s.cs.cues n = none) (r : CueResult) :
    s.writeStatus n r = s := by
  rw [State.writeStatus, h]

theorem State.writeStatus_written {s : State} {n : Nat} {x : CueSlot} (h : Table.look s.cs.cues n = some x) (r : CueResult) :
    s.writeStatus n r = { s with cs := { s.cs with cues := Table.put s.cs.cues n { x with done := true, result := r } } } := by
  rw [State.writeStatus, h]
  rfl

/-- A WRITTEN cue latched as the current one, its status cleared (R124). -/
def State.latched (s : State) (n : Nat) (x : CueSlot) (chained : Bool) : State := { s with cs := { s.cs with
  state := .waiting, current := some ⟨n, x.record⟩, chained := chained, leadSent := false,
  cues := Table.put s.cs.cues n { x with done := false, result := .none } } }

theorem State.becomeCurrent_empty {s : State} {n : Nat} (h : Table.look s.cs.cues n = none) (chained : Bool)
    (pos : Option BarBeat) : s.becomeCurrent n chained pos = s.endSong.reportCue .emptyCue pos := by
  rw [State.becomeCurrent, h]

theorem State.becomeCurrent_scene {s : State} {n m : Nat} {x : CueSlot} (h : Table.look s.cs.cues n = some x)
    (ha : x.record.action = .scene m) (chained : Bool) (pos : Option BarBeat) :
    s.becomeCurrent n chained pos = ((s.latched n x chained).stageCommand n m).leadCheck := by
  simp only [State.becomeCurrent, h, ha]
  rfl

/-- A cue without a SCENE action is latched, and the lead check follows. -/
theorem State.becomeCurrent_no_scene {s : State} {n : Nat} {x : CueSlot} (h : Table.look s.cs.cues n = some x)
    (hs : x.record.action.sceneNumber = none) (chained : Bool) (pos : Option BarBeat) :
    s.becomeCurrent n chained pos = (s.latched n x chained).leadCheck := by
  simp only [State.becomeCurrent, h]
  split
  · next ha => rw [ha] at hs; exact nomatch hs
  · rfl

theorem State.leadCheck_of_no_lead {s : State} {c : Latched} (hc : s.cs.current = some c) (hl : c.record.lead = 0) :
    s.leadCheck = s := by
  unfold State.leadCheck
  simp only [hc]
  split
  · exact if_neg (by omega)
  · rfl
  · rfl

/-- A cue without a SCENE action and without a lead is latched, and that is all. -/
theorem State.becomeCurrent_plain {s : State} {n : Nat} {x : CueSlot} (h : Table.look s.cs.cues n = some x)
    (hs : x.record.action.sceneNumber = none) (hl : x.record.lead = 0) (chained : Bool) (pos : Option BarBeat) :
    s.becomeCurrent n chained pos = s.latched n x chained :=
  (State.becomeCurrent_no_scene h hs chained pos).trans (State.leadCheck_of_no_lead rfl hl)

/-! ## Completion (R127) -/

/-- Steps 1 to 3 of a completion: action, status, LATE fault, CUE_DONE under NOTIFY. -/
def State.completed (s : State) (c : Latched) (late closing : Bool) (pos : Option BarBeat) : State :=
  let r := s.doAction c closing pos
  let result : CueResult := if r.2 = .ok then (if late then .late else .ok) else r.2
  let u := r.1.writeStatus c.cue result
  let v := if late then u.reportCue .late pos else u
  if c.record.isNotify then v.cueNotice (.cueDone c.cue result c.record.action.code pos) else v

section
variable {s : State} {c : Latched} {late closing : Bool} {pos : Option BarBeat}

theorem State.completeCue_nextSong (h : c.record.action = .nextSong) :
    s.completeCue c late closing pos = s.completed c late closing pos := by
  unfold State.completeCue State.completed
  simp only [completionResult_of_outcome (s.doAction_outcome c closing pos)]
  split
  · rfl
  · next ha => exact absurd h ha

theorem State.completeCue_movesOn (h : c.record.action ≠ .nextSong) :
    s.completeCue c late closing pos = (s.completed c late closing pos).moveOn c.record pos := by
  unfold State.completeCue State.completed
  simp only [completionResult_of_outcome (s.doAction_outcome c closing pos)]

end

/-- One more completion at the boundary (R127, step 4). -/
def State.counted (s : State) : State := { s with cs := { s.cs with boundary := s.cs.boundary + 1 } }

section
variable {s : State} {c : Cue} {pos : Option BarBeat}

theorem State.moveOn_end (h : c.isEnd = true) : s.moveOn c pos = s.counted.endSong := if_pos h

theorem State.moveOn_hold_empty (he : c.isEnd = false) (hh : c.isHold = true)
    (hx : Table.look s.counted.cs.cues c.next = none) : s.moveOn c pos = s.counted.endSong.reportCue .emptyCue pos := by
  have hx' : Table.look s.cs.cues c.next = none := hx
  simp only [State.moveOn, he, hh, State.withCs_cs, hx']
  rfl

theorem State.moveOn_hold (he : c.isEnd = false) (hh : c.isHold = true) {x : CueSlot}
    (hx : Table.look s.counted.cs.cues c.next = some x) : s.moveOn c pos = { s.counted with cs := { s.counted.cs with
      state := .held, current := none, chained := false, leadSent := false, latchedNext := some ⟨c.next, x.record⟩ } } := by
  have hx' : Table.look s.cs.cues c.next = some x := hx
  simp only [State.moveOn, he, hh, State.withCs_cs, hx']
  rfl

theorem State.moveOn_next (he : c.isEnd = false) (hh : c.isHold = false) :
    s.moveOn c pos = s.counted.becomeCurrent c.next true pos := by
  unfold State.moveOn
  rw [if_neg (by rw [he]; decide), if_neg (by rw [hh]; decide)]
  rfl

end

/-! ## Chains (R128) -/

theorem CueSeq.chainDue_eq_some {cs : CueSeq} {c : Latched} (hw : cs.state = .waiting) (hc : cs.current = some c)
    (ht : c.record.trigger = .afterPrevious) (hch : cs.chained = true) : cs.chainDue = some c := by
  simp [CueSeq.chainDue, hw, hc, ht, hch]

theorem CueSeq.chainDue_eq_none {cs : CueSeq} (h : ∀ c, cs.state = .waiting → cs.current = some c → cs.chained = true →
    c.record.trigger ≠ .afterPrevious) : cs.chainDue = none := by
  unfold CueSeq.chainDue
  split
  · next c hw hc => exact if_neg fun ⟨ht, hch⟩ => h c hw hc hch ht
  · rfl

section
variable {s : State} {closing : Bool} {pos : Option BarBeat}

theorem State.chain_over (h : s.cs.chainDue = none) (k : Nat) : s.chain closing pos k = s := by
  cases k with
  | zero => rfl
  | succ k => rw [State.chain, h]

theorem State.chain_due {c : Latched} (h : s.cs.chainDue = some c) (k : Nat) : s.chain closing pos (k + 1) =
    if s.cs.boundary < 8 then (s.completeCue c false closing pos).chain closing pos k else s.reportCue .chainLimit pos := by
  rw [State.chain, h]

/-! ## A cue that is its own next cue -/

/-- A cue without effect, notice and lead that comes AFTER_PREVIOUS and is its own next cue. -/
def Latched.loops (c : Latched) : Prop :=
  c.record = ⟨.afterPrevious, .nop, false, false, false, c.record.lead, c.cue⟩

/-- The looping cue current and chained, with `b` completions at the boundary. -/
def State.looped (s : State) (c : Latched) (x : CueSlot) (b : Nat) : State :=
  State.latched { s with cs := { s.cs with goPending := false, boundary := b } } c.cue x true

/-- A completion of the looping cue makes it current again, with one completion more. -/
theorem State.completeCue_of_loops {c : Latched} {x : CueSlot} (h : Table.look s.cs.cues c.cue = some x)
    (hx : x.record = c.record) (hc : c.loops) : s.completeCue c false closing pos = State.latched s.counted c.cue x true := by
  obtain ⟨n, r⟩ := c
  obtain ⟨trigger, action, isEnd, isHold, isNotify, lead, next⟩ := r
  simp only [Latched.loops, Cue.mk.injEq, true_and] at hc
  obtain ⟨rfl, rfl, rfl, rfl, rfl, rfl⟩ := hc
  have hdone : s.completed ⟨next, ⟨.afterPrevious, .nop, false, false, false, lead, next⟩⟩ false closing pos =
      s.writeStatus next .ok := rfl
  have hlook : ∀ u : State, u.cs.cues = Table.put s.cs.cues next { x with done := true, result := .ok } →
      Table.look u.cs.cues next = some { x with done := true, result := .ok } := fun u hu => by
    rw [hu, Table.look_put, if_pos rfl]
  rw [State.completeCue_movesOn (by simp), hdone, State.writeStatus_written h, State.moveOn_next rfl rfl,
    State.becomeCurrent_no_scene (hlook _ rfl) (by rw [hx]; rfl)]
  refine (State.leadCheck_of_no_position rfl (.inr (by rw [hx]))).trans ?_
  simp only [State.latched, State.counted, Table.put_put]

/-- The looping cue chained at the boundary completes again until there have been 8 completions, then CHAIN_LIMIT. -/
theorem State.chain_looped {c : Latched} {x : CueSlot} (hx : x.record = c.record) (hc : c.loops) (k b : Nat) (hb : b ≤ 8)
    (hk : 8 ≤ b + k) : (s.looped c x b).chain closing pos (k + 1) = (s.looped c x 8).reportCue .chainLimit pos := by
  have hdue : ∀ b, (s.looped c x b).cs.chainDue = some ⟨c.cue, x.record⟩ := fun b =>
    CueSeq.chainDue_eq_some rfl rfl (by rw [hx, hc]) rfl
  induction k generalizing b with
  | zero =>
    obtain rfl : b = 8 := by omega
    rw [State.chain_due (hdue 8)]
    exact if_neg (Nat.lt_irrefl 8)
  | succ k ih =>
    rcases Nat.lt_or_eq_of_le hb with h8 | rfl
    · have hstep : (s.looped c x b).completeCue ⟨c.cue, x.record⟩ false closing pos = s.looped c x (b + 1) := by
        have hlook : Table.look (s.looped c x b).cs.cues c.cue = some { x with done := false, result := .none } := by
          rw [State.looped, State.latched, Table.look_put, if_pos rfl]
        rw [State.completeCue_of_loops (c := ⟨c.cue, x.record⟩) hlook rfl (by rw [hx]; exact hc)]
        simp only [State.looped, State.latched, State.counted, Table.put_put]
      rw [State.chain_due (hdue b), hstep]
      exact (if_pos h8).trans (ih (b + 1) h8 (by omega))
    · rw [State.chain_due (hdue 8)]
      exact if_neg (Nat.lt_irrefl 8)

theorem State.fire_of_loops {c : Latched} {x : CueSlot} (h0 : s.cs.boundary = 0) (h : Table.look s.cs.cues c.cue = some x)
    (hx : x.record = c.record) (hc : c.loops) :
    s.fire c false closing pos = (s.looped c x 8).reportCue .chainLimit pos := by
  have hfirst : State.completeCue (s.withCs { s.cs with goPending := false }) c false closing pos = s.looped c x 1 := by
    rw [State.completeCue_of_loops (s := s.withCs { s.cs with goPending := false }) h hx hc]
    simp only [State.looped, State.counted, State.withCs, h0]
  rw [State.fire, hfirst]
  exact State.chain_looped hx hc 8 1 (by omega) (by omega)

end

end Sys2Proof.Machine
end

section
/-! PROOFS. The actions of cues, and a song selected (R131 to R136, R138). -/

namespace Sys2Proof.Machine

section
variable (s : State)

/-! ## Tempo, meter, patterns and programs (R132, R133) -/

/-- The tempo set and the ramp cleared, before any notice (R5). -/
def State.tempoSet (t : Nat) : State := { s with te := { s.te with tempo := t, ramp := none } }

theorem State.setTempo_of_free {s : State} (h : s.te.follow = .free) (t : Nat) : s.setTempo t =
    if s.te.tempo = t ∧ s.te.ramp = none then s.tempoSet t
    else (s.tempoSet t).broadcastQuiet Mask.tempo (.tempo t none s.te.source .free) := by
  have hnotice : (s.tempoSet t).tempoNotice = (s.tempoSet t).broadcastQuiet Mask.tempo (.tempo t none s.te.source .free) := by
    rw [← h]
    rfl
  have hchange : (s.te.tempo ≠ t ∨ s.te.ramp ≠ none) ↔ ¬(s.te.tempo = t ∧ s.te.ramp = none) :=
    Decidable.not_and_iff_not_or_not.symm
  rw [← hnotice, ← ite_not]
  simp only [State.setTempo, hchange]
  rfl

theorem State.rampTempo_of_free {s : State} (h : s.te.follow = .free) (t b : Nat) : s.rampTempo t b =
    if s.ticking then State.broadcastQuiet
        { s with te := { s.te with ramp := some { t0 := s.te.tempo, t1 := t, len := b * 480, prog := 0 } } }
        Mask.tempo (.tempo s.te.tempo (some t) s.te.source .free)
    else State.broadcastQuiet { s with te := { s.te with tempo := t } }
        Mask.tempo (.tempo t (s.te.ramp.map Ramp.t1) s.te.source .free) := by
  rw [← h]
  rfl

theorem State.setMeter_eq (b : Nat) : s.setMeter b = { s with
    te := if s.ticking then { s.te with pendingMeter := some b } else { s.te with meter := b, pendingMeter := none } } := by
  unfold State.setMeter
  split <;> rfl

theorem ClickBus.ask_pattern (x : ClickBus) (p : Option Nat) : x.ask { ClickChange.none_ with pattern := p } =
    if p.isSome then x.ask ⟨p, none, none, none, none⟩ else x := by
  cases p with
  | none => exact x.ask_none
  | some n => rfl

theorem State.askPatterns_eq (band keys : Option Nat) : s.askPatterns band keys = { s with ck := { s.ck with buses :=
    ⟨if band.isSome then (s.bus .band).ask ⟨band, none, none, none, none⟩ else s.bus .band,
     if keys.isSome then (s.bus .keys).ask ⟨keys, none, none, none, none⟩ else s.bus .keys⟩ } } := by
  rw [← ClickBus.ask_pattern, ← ClickBus.ask_pattern]
  rfl

/-- Each entry is offered in its turn, and a dropped group is not forgotten (R69, R133). -/
theorem State.sendPrograms_cons (e : ProgEntry) (es : List ProgEntry) : s.sendPrograms (e :: es) =
    (((s.sendProgram e).1.sendPrograms es).1, (s.sendProgram e).2 || ((s.sendProgram e).1.sendPrograms es).2) := by
  have hfold : ∀ (es : List ProgEntry) (u : State) (b : Bool),
      es.foldl (fun a e => ((a.1.sendProgram e).1, a.2 || (a.1.sendProgram e).2)) (u, b) =
        ((u.sendPrograms es).1, b || (u.sendPrograms es).2) := by
    intro es
    induction es with
    | nil => intro u b; simp [State.sendPrograms]
    | cons e es ih =>
      intro u b
      have hes : u.sendPrograms (e :: es) = _ := ih (u.sendProgram e).1 (false || (u.sendProgram e).2)
      rw [List.foldl_cons, ih, hes, Bool.false_or, Bool.or_assoc]
  exact (hfold es (s.sendProgram e).1 (false || (s.sendProgram e).2)).trans (by rw [Bool.false_or])

/-! ## A song selected (R138) -/

/-- The current cue and what belongs to it are cleared. -/
def State.uncued (s : State) : State := { s with
  cs := { s.cs with current := none, chained := false, leadSent := false, latchedNext := none, goPending := false } }

theorem State.dropCurrent_scene {s : State} {c : Latched} {n : Nat} (hc : s.cs.current = some c)
    (ha : c.record.action = .scene n) : s.dropCurrent = (s.withdraw c.cue).uncued := by
  simp only [State.dropCurrent, hc, ha]
  rfl

theorem State.dropCurrent_no_scene {s : State} (h : ∀ c n, s.cs.current = some c → c.record.action ≠ .scene n) :
    s.dropCurrent = s.uncued := by
  unfold State.dropCurrent
  cases hc : s.cs.current with
  | none => rfl
  | some c =>
    simp only
    split
    · next n ha => exact absurd ha (h c n hc)
    · rfl

/-- The song's tempo, unless the follower holds the tempo (R15, R17). -/
def State.songTempo (s : State) (g : Song) : Nat := if s.te.follow = .free then g.tempo else s.te.tempo

/-- The tempo engine under a song selected while STOPPED (R15). -/
def State.songEngine (s : State) (g : Song) : TempoEngine :=
  { s.te with tempo := s.songTempo g, meter := g.meter, pendingMeter := none, countIn := g.countIn, pos := ⟨1, 1, 0⟩ }

/-- The click generator with a song's patterns asked for (R30). -/
def State.songClick (s : State) (g : Song) : ClickGen :=
  { s.ck with buses := ⟨(s.bus .band).ask ⟨some g.band, none, none, none, none⟩,
                        (s.bus .keys).ask ⟨some g.keys, none, none, none, none⟩⟩ }

theorem State.songTempo_eq (g : Song) : (if s.te.follow.holdsTempo then s.te.tempo else g.tempo) = s.songTempo g := by
  unfold State.songTempo
  cases s.te.follow <;> rfl

/-- The engine with a song's values, and its TEMPO notice where the tempo changed (R15, R16). -/
def State.songTimed (s : State) (g : Song) : State :=
  let a : State := { s with te := s.songEngine g }
  if s.songTempo g = s.te.tempo then a
  else a.broadcastQuiet Mask.tempo (.tempo (s.songTempo g) (s.te.ramp.map Ramp.t1) s.te.source s.te.follow)

theorem State.songTimed_linksOnly (g : Song) : LinksOnly { s with te := s.songEngine g } (s.songTimed g) := by
  unfold State.songTimed
  dsimp only
  split
  · exact LinksOnly.refl _
  · exact State.broadcastQuiet_linksOnly _ _ _

theorem State.engineSong_eq (g : Song) : s.engineSong g = (s.songTimed g).broadcast Mask.transport
    (.transport s.te.transport ⟨1, 1, 0⟩ g.meter (s.songTempo g)) := by
  have hall : s.engineSong g = (s.songTimed g).transportNotice := by
    simp only [State.engineSong, s.songTempo_eq g, ne_eq, ite_not, eq_comm (a := s.te.tempo)]
    rfl
  rw [hall, State.transportNotice, (s.songTimed_linksOnly g).te]
  rfl

theorem State.engineSong_linksOnly (g : Song) : LinksOnly { s with te := s.songEngine g } (s.engineSong g) := by
  rw [State.engineSong_eq]
  exact (s.songTimed_linksOnly g).trans (State.broadcast_linksOnly _ _ _)

/-- Dropping the current cue leaves the engine and the click generator. -/
theorem State.dropCurrent_te_ck : s.dropCurrent.te = s.te ∧ s.dropCurrent.ck = s.ck := by
  unfold State.dropCurrent
  split
  · split
    · exact ⟨(s.withdraw_routerOnly _).te, (s.withdraw_routerOnly _).ck⟩
    · exact ⟨rfl, rfl⟩
  · exact ⟨rfl, rfl⟩

/-- The current cue dropped, and a set-list position taken with its song (R138, steps 1 and 2). -/
def State.songPlaced (s : State) (p n : Nat) : State := { s.dropCurrent with
  te := s.te, cs := { s.dropCurrent.cs with setPos := some p, song := some n } }

theorem State.songPlaced_eq (p n : Nat) :
    s.songPlaced p n = s.dropCurrent.withCs { s.dropCurrent.cs with setPos := some p, song := some n } := by
  rw [State.songPlaced, ← s.dropCurrent_te_ck.1]
  rfl

/-- The song taken by engine and click generator, before its first cue becomes current (R138, steps 3 and 4). -/
def State.songTaken (s : State) (p n : Nat) (g : Song) : State :=
  ((s.songPlaced p n).engineSong g).askPatterns (some g.band) (some g.keys)

theorem State.songSelect_unstarted {g : Song} (h : g.firstCue = none) (p n : Nat) (pos : Option BarBeat) :
    s.songSelect p n g pos = (s.songTaken p n g).endSong := by
  simp only [State.songSelect, State.songTaken, State.songPlaced_eq, h]

theorem State.songSelect_started {g : Song} {c : Nat} (h : g.firstCue = some c) (p n : Nat) (pos : Option BarBeat) :
    s.songSelect p n g pos = (s.songTaken p n g).becomeCurrent c false pos := by
  simp only [State.songSelect, State.songTaken, State.songPlaced_eq, h]

theorem State.songTaken_eq_engineSong (p n : Nat) (g : Song) :
    s.songTaken p n g = { (s.songPlaced p n).engineSong g with ck := s.songClick g } := by
  have hck : ((s.songPlaced p n).engineSong g).ck = s.ck :=
    (State.engineSong_linksOnly _ g).ck.trans s.dropCurrent_te_ck.2
  rw [State.songTaken, State.askPatterns_eq, State.songClick]
  simp only [State.bus, hck, Option.isSome_some, if_true]

theorem State.songTaken_eq (p n : Nat) (g : Song) : s.songTaken p n g =
    { ((s.songPlaced p n).songTimed g).broadcast Mask.transport
        (.transport s.te.transport ⟨1, 1, 0⟩ g.meter (s.songTempo g)) with ck := s.songClick g } := by
  rw [State.songTaken_eq_engineSong, State.engineSong_eq]
  rfl

end

/-! ## What a select leaves but for notices -/

theorem NoticesOnly.with_ck {s t : State} (h : NoticesOnly s t) (ck : ClickGen) :
    NoticesOnly { s with ck := ck } { t with ck := ck } :=
  { h with link := h.link, ck := rfl }

theorem NoticesOnly.map_cs {s t : State} (h : NoticesOnly s t) (f : CueSeq → CueSeq) :
    NoticesOnly (s.withCs (f s.cs)) (t.withCs (f t.cs)) :=
  { h with link := h.link, cs := congrArg f h.cs }

theorem NoticesOnly.endSong {s t : State} (h : NoticesOnly s t) : NoticesOnly s.endSong t.endSong :=
  h.map_cs fun cs => { cs with state := .ended, current := none, chained := false, leadSent := false }

theorem State.songTaken_noticesOnly (s : State) (p n : Nat) (g : Song) :
    NoticesOnly { s.songPlaced p n with te := s.songEngine g, ck := s.songClick g } (s.songTaken p n g) := by
  rw [State.songTaken_eq_engineSong]
  exact (State.engineSong_linksOnly (s.songPlaced p n) g).noticesOnly.with_ck (s.songClick g)

/-- The sequencer once a song is selected: ENDED, or its first cue WAITING where that is WRITTEN (R138). -/
def CueSeq.songSelected (q : CueSeq) (p n : Nat) (g : Song) : CueSeq :=
  let cs : CueSeq := { q with
    setPos := some p, song := some n, state := .ended, current := none, chained := false, leadSent := false,
    latchedNext := none, goPending := false }
  match g.firstCue.bind (fun c => (Table.look q.cues c).map (fun x => (c, x))) with
  | none => cs
  | some (c, x) => { cs with
      state := .waiting
      current := some ⟨c, x.record⟩
      cues := Table.put q.cues c { x with done := false, result := .none } }

/-- Where no SCENE cue is dropped, and none nor one with a lead is first, a select gives notices and EMPTY_CUE alone besides
what it sets. -/
theorem State.songSelect_noticesOnly {s : State} {g : Song}
    (hcurrent : ∀ c, s.cs.current = some c → c.record.action.sceneNumber = none)
    (hfirst : ∀ c x, g.firstCue = some c → Table.look s.cs.cues c = some x →
      x.record.action.sceneNumber = none ∧ x.record.lead = 0)
    (p n : Nat) (pos : Option BarBeat) :
    NoticesOnly { s with te := s.songEngine g, ck := s.songClick g, cs := s.cs.songSelected p n g } (s.songSelect p n g pos) := by
  have hdrop : s.dropCurrent = s.uncued := State.dropCurrent_no_scene fun c n hc ha => by
    have hnone := hcurrent c hc
    rw [ha] at hnone
    exact nomatch hnone
  have htaken := s.songTaken_noticesOnly p n g
  simp only [State.songPlaced, hdrop] at htaken
  have hcues : (s.songTaken p n g).cs.cues = s.cs.cues := by rw [htaken.cs]; rfl
  cases hc : g.firstCue with
  | none =>
    simp only [CueSeq.songSelected, hc, Option.bind_none, State.songSelect_unstarted s hc]
    exact htaken.endSong
  | some c =>
    rw [State.songSelect_started s hc]
    cases hx : Table.look s.cs.cues c with
    | none =>
      simp only [CueSeq.songSelected, hc, hx, Option.bind_some, Option.map_none, State.becomeCurrent_empty (hcues ▸ hx)]
      exact htaken.endSong.trans (State.reportCue_linksOnly _ _ _).noticesOnly
    | some x =>
      obtain ⟨hscene, hlead⟩ := hfirst c x hc hx
      simp only [CueSeq.songSelected, hc, hx, Option.bind_some, Option.map_some,
        State.becomeCurrent_plain (hcues ▸ hx) hscene hlead]
      exact htaken.map_cs fun cs => { cs with
        state := .waiting, current := some ⟨c, x.record⟩, chained := false, leadSent := false,
        cues := Table.put cs.cues c { x with done := false, result := .none } }

/-! ## NEXT_SONG (R136) -/

section
variable {s : State} {closing : Bool} {pos : Option BarBeat}

theorem State.nextSong_endOfSet (h : ∀ p, s.cs.setPos = some p → s.cs.setlist[p + 1]? = none) :
    s.nextSong closing pos = (s.endSong, .endOfSet) := by
  unfold State.nextSong
  cases hp : s.cs.setPos with
  | none => rfl
  | some p => simp only [Option.bind_some, h p hp, Option.map_none]

theorem State.nextSong_emptySong {p n : Nat} (hp : s.cs.setPos = some p) (hn : s.cs.setlist[p + 1]? = some n)
    (hg : Table.look s.cs.songs n = none) : s.nextSong closing pos = ((s.reportCue .emptySong pos).endSong, .fault) := by
  unfold State.nextSong
  simp only [hp, hn, Option.bind_some, Option.map_some, hg]

/-- A segue armed in engine and sequencer (R15, R136). -/
def State.segueArmed (s : State) (p n : Nat) (g : Song) : State := { s with
  te := { s.te with segue := some ⟨if s.te.follow = .free then some g.tempo else none, g.meter, g.countIn⟩ }
  cs := { s.cs with segue := some ⟨p, n, g.firstCue, g.band, g.keys⟩ } }

theorem State.engineSegue_eq (s : State) (g : Song) : s.engineSegue g = { s with
    te := { s.te with segue := some ⟨if s.te.follow = .free then some g.tempo else none, g.meter, g.countIn⟩ } } := by
  have htempo : (if s.te.follow.holdsTempo then none else some g.tempo) = if s.te.follow = .free then some g.tempo else none := by
    cases s.te.follow <;> rfl
  rw [State.engineSegue, htempo]
  rfl

theorem State.nextSong_song {p n : Nat} {g : Song} (hp : s.cs.setPos = some p) (hn : s.cs.setlist[p + 1]? = some n)
    (hg : Table.look s.cs.songs n = some g) : s.nextSong closing pos =
      if s.te.transport = .stopped then (s.songSelect (p + 1) n g pos, .ok)
      else if closing then (State.endSong { s with cs := { s.cs with deferred := some (p + 1) } }, .ok)
      else ((s.segueArmed (p + 1) n g).endSong, .ok) := by
  have htarget : s.cs.setPos.bind (fun p => (s.cs.setlist[p + 1]?).map (fun n => (p + 1, n))) = some (p + 1, n) := by
    rw [hp, Option.bind_some, hn, Option.map_some]
  simp only [State.nextSong, htarget, hg, State.engineSegue_eq]
  rfl

/-! ## The actions that ask the engine's follower (R132) -/

theorem State.doAction_tempo {c : Latched} {t : Nat} (h : c.record.action = .tempo t) : s.doAction c closing pos =
    if s.te.follow ≠ .free then (s, .following)
    else if s.te.tempo = t ∧ s.te.ramp = none then (s.tempoSet t, .ok)
    else ((s.tempoSet t).broadcastQuiet Mask.tempo (.tempo t none s.te.source .free), .ok) := by
  simp only [State.doAction, h, FollowState.holdsTempo_iff]
  split
  · rfl
  · next hf =>
    rw [State.setTempo_of_free (not_not.1 hf)]
    split <;> rfl

theorem State.doAction_ramp {c : Latched} {t b : Nat} (h : c.record.action = .ramp t b) : s.doAction c closing pos =
    if s.te.follow ≠ .free then (s, .following)
    else if s.ticking then (State.broadcastQuiet
        { s with te := { s.te with ramp := some { t0 := s.te.tempo, t1 := t, len := b * 480, prog := 0 } } }
        Mask.tempo (.tempo s.te.tempo (some t) s.te.source .free), .ok)
    else (State.broadcastQuiet { s with te := { s.te with tempo := t } }
        Mask.tempo (.tempo t (s.te.ramp.map Ramp.t1) s.te.source .free), .ok) := by
  simp only [State.doAction, h, FollowState.holdsTempo_iff]
  split
  · rfl
  · next hf =>
    rw [State.rampTempo_of_free (not_not.1 hf)]
    split <;> rfl

end

/-! ## SELECT_SONG and GO (R129, R138) -/

section
variable {s : State} {l : Link}

theorem State.reqSelectSong_loading (h : s.st.op = .loading) (p : List Byte) :
    (s.heard l).reqSelectSong l p = s.answered l .selectSong .busy [] := by
  simp only [State.reqSelectSong, State.heard_loading, s.loading_iff.2 h, if_true, State.heard_reply]

theorem State.reqSelectSong_range (h : s.st.op ≠ .loading) {p : Nat} (hp : p ≤ 255) (hn : s.cs.setlist[p]? = none) :
    (s.heard l).reqSelectSong l [byte p] = s.answered l .selectSong .range [0, 0, 255] := by
  simp only [State.reqSelectSong, State.heard_loading, mt s.loading_iff.1 h, byteAt_byte_cons (Nat.lt_succ_of_le hp),
    State.heard_cs, hn, State.heard_replyRange]
  rfl

theorem State.reqSelectSong_state (h : s.st.op ≠ .loading) {p n : Nat} (hp : p ≤ 255) (hn : s.cs.setlist[p]? = some n)
    (hr : s.te.transport ≠ .stopped ∨ Table.look s.cs.songs n = none) :
    (s.heard l).reqSelectSong l [byte p] = s.answered l .selectSong .state [] := by
  simp only [State.reqSelectSong, State.heard_loading, mt s.loading_iff.1 h, byteAt_byte_cons (Nat.lt_succ_of_le hp),
    State.heard_cs, hn, State.heard_te, State.heard_reply]
  by_cases ht : s.te.transport = .stopped
  · simp only [hr.resolve_left (not_not.2 ht), ite_self]
    rfl
  · simp only [ht, ne_eq, not_false_eq_true, if_true]
    rfl

theorem State.reqSelectSong_selects (h : s.st.op ≠ .loading) {p n : Nat} {g : Song} (hp : p ≤ 255)
    (hn : s.cs.setlist[p]? = some n) (ht : s.te.transport = .stopped) (hg : Table.look s.cs.songs n = some g) :
    (s.heard l).reqSelectSong l [byte p] = (s.answered l .selectSong .done []).songSelect p n g none := by
  simp only [State.reqSelectSong, State.heard_loading, mt s.loading_iff.1 h, byteAt_byte_cons (Nat.lt_succ_of_le hp),
    State.heard_cs, hn, State.heard_te, ht, hg, State.heard_reply]
  rfl

/-- A pending GO (R129). -/
def State.goPends (s : State) : State := { s with cs := { s.cs with goPending := true } }

theorem State.reqGo_ticking {c : Latched} (hw : s.cs.state = .waiting) (hc : s.cs.current = some c) (hk : s.ticking = true) :
    (s.heard l).reqGo l = if s.cs.goPending then s.answered l .go .already []
      else (s.answered l .go .done []).goPends := by
  simp only [State.reqGo, State.heard_cs, hw, hc, State.heard_ticking, hk, if_true, State.heard_reply]
  rfl

theorem State.reqGo_stopped {c : Latched} (hw : s.cs.state = .waiting) (hc : s.cs.current = some c) (hk : s.ticking = false) :
    (s.heard l).reqGo l = (s.answered l .go .done []).goStopped c := by
  simp only [State.reqGo, State.heard_cs, hw, hc, State.heard_ticking, hk, State.heard_reply]
  rfl

theorem State.reqGo_held {c : Latched} (hh : s.cs.state = .held) (hc : s.cs.latchedNext = some c) :
    (s.heard l).reqGo l = (s.answered l .go .done []).goHeld c.cue := by
  simp only [State.reqGo, State.heard_cs, hh, hc, State.heard_reply]

theorem State.reqGo_refused (h : s.cs.state = .idle ∨ s.cs.state = .ended) :
    (s.heard l).reqGo l = s.answered l .go .state [] := by
  rcases h with h | h <;> simp only [State.reqGo, State.heard_cs, h, State.heard_reply]

end

/-- A last cue without an action fires on time: its status, one completion more, and ENDED, but for a CUE_DONE notice. -/
theorem State.fire_last_nop {s : State} {c : Latched} {x : CueSlot} (ha : c.record.action = .nop) (he : c.record.isEnd = true)
    (hx : Table.look s.cs.cues c.cue = some x) (closing : Bool) (pos : Option BarBeat) :
    NoticesOnly { s with cs := { s.cs with
        state := .ended, current := none, chained := false, leadSent := false, goPending := false,
        boundary := s.cs.boundary + 1, cues := Table.put s.cs.cues c.cue { x with done := true, result := .ok } } }
      (s.fire c false closing pos) := by
  let u : State := s.withCs { s.cs with goPending := false }
  have hact : u.doAction c closing pos = (u, .ok) := by simp only [State.doAction, ha]
  have hdone : NoticesOnly (u.writeStatus c.cue .ok) (u.completed c false closing pos) := by
    simp only [State.completed, hact]
    cases c.record.isNotify
    · exact NoticesOnly.refl _
    · exact (State.cueNotice_linksOnly _ _).noticesOnly
  rw [State.writeStatus_written (s := u) hx] at hdone
  have hfire : s.fire c false closing pos = (u.completed c false closing pos).counted.endSong := by
    rw [State.fire, State.completeCue_movesOn (by rw [ha]; exact nofun), State.moveOn_end he]
    exact State.chain_over rfl 9
  rw [hfire]
  exact (hdone.map_cs fun cs => { cs with boundary := cs.boundary + 1 }).endSong

/-- Settles O41: the two requests by the state they find, and then the sequencer's own steps, each by its lemma. -/
theorem selectSongAndGo : Obligations.SelectSongAndGo := by
  refine ⟨fun s l p hp ht => ?select, fun s l ht => ?go,
    fun s l => ⟨fun p n g hp ht hl hn hs hg => ?selected, fun ht => ?fired⟩,
    fun s pos => ⟨?drop, fun p n g => ?song, fun n chained => ?current, fun n r => ?status, fun c late closing => ?completion,
      fun closing => ?chains, fun c closing => ?action, ⟨rfl, s.sendPrograms_cons⟩, fun closing => ?next⟩⟩
  case select =>
    have hx := exec_of_takes (i := .selectSong l [byte p]) rfl ht
    rw [hx]
    refine ⟨fun hl => congrArg _ (State.reqSelectSong_loading hl _), fun hl =>
      ⟨fun hn => congrArg _ (State.reqSelectSong_range hl hp hn), fun n hn =>
        ⟨fun hr => congrArg _ (State.reqSelectSong_state hl hp hn hr), fun g hs hg hcurrent hfirst => ?_⟩⟩⟩
    exact ⟨_, congrArg _ (State.reqSelectSong_selects hl hp hn hs hg),
      State.songSelect_noticesOnly (s := s.answered l .selectSong .done []) hcurrent hfirst p n none⟩
  case go =>
    have hx := exec_of_takes (i := .go l []) rfl ht
    rw [hx]
    refine ⟨fun h => congrArg _ (State.reqGo_refused h), fun c hw hc hk => congrArg _ (State.reqGo_ticking hw hc hk),
      fun c x hw hc hk ha he hx => ⟨_, congrArg _ (State.reqGo_stopped hw hc hk), ?_⟩,
      fun c x hh hc hx hscene hlead => congrArg _ ((State.reqGo_held hh hc).trans ?_)⟩
    · exact State.fire_last_nop (s := State.withCs (s.answered l .go .done []) { s.cs with boundary := 0 }) ha he hx false none
    · exact State.becomeCurrent_plain (s := State.withCs (s.answered l .go .done []) { s.cs with latchedNext := none }) hx hscene
        hlead false s.barBeat
  case selected =>
    rw [exec_of_takes (i := .selectSong l [byte p]) rfl ht]
    exact congrArg _ (State.reqSelectSong_selects hl hp hn hs hg)
  case fired =>
    rw [exec_of_takes (i := .go l []) rfl ht]
    exact ⟨fun c hw hc hk => congrArg _ (State.reqGo_stopped hw hc hk), fun c hh hc => congrArg _ (State.reqGo_held hh hc)⟩
  case drop =>
    exact ⟨fun c n hc ha => State.dropCurrent_scene hc ha, State.dropCurrent_no_scene⟩
  case song =>
    cases h : g.firstCue with
    | none => exact (State.songSelect_unstarted s h p n pos).trans (congrArg State.endSong (s.songTaken_eq p n g))
    | some c =>
      exact (State.songSelect_started s h p n pos).trans (congrArg (State.becomeCurrent · c false pos) (s.songTaken_eq p n g))
  case current =>
    refine ⟨fun h => State.becomeCurrent_empty h chained pos, fun x hx => ?_⟩
    cases ha : x.record.action with
    | scene m => exact State.becomeCurrent_scene hx ha chained pos
    | nop | tempo | ramp | meter | click | program | marker | stop | nextSong =>
      exact State.becomeCurrent_no_scene hx (by rw [ha]; rfl) chained pos
  case status =>
    exact ⟨fun h => State.writeStatus_empty h r, fun x hx => State.writeStatus_written hx r⟩
  case completion =>
    refine ⟨State.completeCue_nextSong, fun ha => ⟨fun he => ?_,
      fun he hh => ⟨fun hx => ?_, fun x hx => ?_⟩, fun he hh => ?_⟩⟩
    · exact (State.completeCue_movesOn ha).trans (State.moveOn_end he)
    · exact (State.completeCue_movesOn ha).trans (State.moveOn_hold_empty he hh hx)
    · exact (State.completeCue_movesOn ha).trans (State.moveOn_hold he hh hx)
    · exact (State.completeCue_movesOn ha).trans (State.moveOn_next he hh)
  case chains =>
    refine ⟨fun c late => rfl, fun c k hw hc ht hch => State.chain_due (CueSeq.chainDue_eq_some hw hc ht hch) k,
      fun h k => State.chain_over (CueSeq.chainDue_eq_none h) k, fun c x h0 hx hxc hc => ?_⟩
    have hlatched : (⟨c.cue, x.record⟩ : Latched) = c := by rw [hxc]
    refine (State.fire_of_loops h0 hx hxc hc).trans ?_
    rw [State.looped, State.latched, hlatched]
    rfl
  case action =>
    obtain ⟨n, trigger, action, isEnd, isHold, isNotify, lead, next⟩ := c
    cases action with
    | nop | scene | program | marker | nextSong => rfl
    | stop m => cases m <;> rfl
    | tempo t => exact State.doAction_tempo rfl
    | ramp t b => exact State.doAction_ramp rfl
    | meter b => exact congrArg (·, CueResult.ok) (s.setMeter_eq b)
    | click band keys => exact congrArg (·, CueResult.ok) (s.askPatterns_eq band keys)
  case next =>
    refine ⟨fun hp => State.nextSong_endOfSet fun p h => (nomatch hp.symm.trans h), fun p hp => ⟨fun hn => ?_, fun n hn =>
      ⟨fun hg => State.nextSong_emptySong hp hn hg, fun g hg => State.nextSong_song hp hn hg⟩⟩⟩
    exact State.nextSong_endOfSet fun q hq => Option.some.inj (hp.symm.trans hq) ▸ hn

end Sys2Proof.Machine
end

section
/-! PROOFS. The receiver's rescan (R146, R147): every byte it takes from the rescan list brings its end nearer, so no step
leaves a byte to be examined again. -/

namespace Sys2Proof.Machine

/-! ## What no operation but a receiver's own touches -/

/-- Every link is connected as it was, and its receiver stands as it stood: its state, what it has collected and its rescan
list. -/
def ScanKept (s t : State) : Prop :=
  ∀ l, (t.link l).high = (s.link l).high ∧ (t.link l).collecting = (s.link l).collecting ∧ (t.link l).collected = (s.link l).collected
    ∧ (t.link l).rescan = (s.link l).rescan

theorem ScanKept.refl (s : State) : ScanKept s s := fun _ => ⟨rfl, rfl, rfl, rfl⟩

theorem ScanKept.trans {s t u : State} (h : ScanKept s t) (k : ScanKept t u) : ScanKept s u := fun l =>
by
  obtain ⟨hhigh, hcollecting, hcollected, hrescan⟩ := h l
  obtain ⟨khigh, kcollecting, kcollected, krescan⟩ := k l
  exact ⟨khigh.trans hhigh, kcollecting.trans hcollecting, kcollected.trans hcollected, krescan.trans hrescan⟩

theorem Calm.scanKept {s t : State} (h : Calm s t) : ScanKept s t := fun l =>
  ⟨(h.link l).high, (h.link l).collecting, (h.link l).collected, (h.link l).rescan⟩

theorem Handled.scanKept {l : Link} {n : Nat} {s t : State} (h : Handled l n s t) : ScanKept s t := fun j => by
  obtain ⟨hhigh, hcollecting, hcollected, hrescan, -⟩ := h.receiver j
  exact ⟨hhigh, hcollecting, hcollected, hrescan⟩

theorem State.setLink_scanKept {s : State} {l : Link} {x : LinkState} (hhigh : x.high = (s.link l).high)
    (hcollecting : x.collecting = (s.link l).collecting) (hcollected : x.collected = (s.link l).collected) (hrescan : x.rescan = (s.link l).rescan) :
    ScanKept s (s.setLink l x) := fun j => by
  by_cases e : j = l
  · subst e
    rw [State.link_setLink_same]
    exact ⟨hhigh, hcollecting, hcollected, hrescan⟩
  · rw [State.link_setLink_of_ne s x e]
    exact ⟨rfl, rfl, rfl, rfl⟩

/-- A transmitter that starts leaves the receiver alone. -/
theorem State.setLink_startTx_scanKept {s : State} {l : Link} {x : LinkState} (now : Stamp)
    (hhigh : x.high = (s.link l).high) (hcollecting : x.collecting = (s.link l).collecting) (hcollected : x.collected = (s.link l).collected)
    (hrescan : x.rescan = (s.link l).rescan) : ScanKept s (s.setLink l (x.startTx now)) :=
  have hx := x.startTx_noticed now
  State.setLink_scanKept (hx.high.trans hhigh) (hx.collecting.trans hcollecting) (hx.collected.trans hcollected) (hx.rescan.trans hrescan)

theorem State.resumeLink_scanKept (s : State) (l : Link) : ScanKept s (s.resumeLink l) :=
  State.setLink_startTx_scanKept s.now rfl rfl rfl rfl

theorem State.holdExpiry_scanKept (s : State) (l : Link) : ScanKept s (s.holdExpiry l) := by
  unfold State.holdExpiry
  split
  · exact ScanKept.refl s
  · exact s.resumeLink_scanKept l

theorem State.telegramSent_scanKept (s : State) (l : Link) : ScanKept s (s.telegramSent l) := by
  unfold State.telegramSent
  split
  · exact ScanKept.refl s
  · exact State.setLink_startTx_scanKept s.now rfl rfl rfl rfl

theorem State.takeRequest_scanKept (s : State) (l : Link) (n : Nat) (p : List Byte) : ScanKept s (s.takeRequest l n p) := by
  unfold State.takeRequest
  split
  · exact (s.report_linksOnly _ _).toCalm.scanKept
  · split
    · exact (Handled.answer s l n _ _).scanKept
    · exact (s.checkRequest_handled l _ p).scanKept

theorem State.performReport_scanKept (s : State) (l : Link) (k : RepKind) (p : List Byte) :
    ScanKept s (s.performReport l k p) := by
  unfold State.performReport
  split
  · exact (s.markFrom_whole _).toCalm.scanKept
  · split
    · exact (s.echoed_whole _ _).toCalm.scanKept
    · exact ScanKept.refl s
  · unfold State.holdLink
    split
    · exact s.resumeLink_scanKept l
    · exact State.setLink_scanKept rfl rfl rfl rfl
  · exact s.resumeLink_scanKept l

theorem State.takeReport_scanKept (s : State) (l : Link) (n : Nat) (p : List Byte) : ScanKept s (s.takeReport l n p) := by
  unfold State.takeReport
  split
  · exact (s.report_linksOnly _ _).toCalm.scanKept
  · split
    · exact (s.report_linksOnly _ _).toCalm.scanKept
    · split
      · exact (s.report_linksOnly _ _).toCalm.scanKept
      · exact s.performReport_scanKept l _ p

theorem State.takeTelegram_scanKept (s : State) (l : Link) (k : Byte) (p : List Byte) : ScanKept s (s.takeTelegram l k p) := by
  unfold State.takeTelegram
  split
  · exact s.takeRequest_scanKept l _ p
  · split
    · exact s.takeReport_scanKept l _ p
    · exact (s.report_linksOnly _ _).toCalm.scanKept

/-! ## The Show Store and the passing of time -/

theorem State.withStore_scanKept (s : State) (x : ShowStore) : ScanKept s (s.withStore x) := ScanKept.refl s
theorem State.loadTables_scanKept (s : State) (g : ShowImage) : ScanKept s (s.loadTables g) := ScanKept.refl s
theorem State.setModes_scanKept (s : State) (m : FaultModes) : ScanKept s (s.setModes m) := ScanKept.refl s

theorem State.storeNotice_scanKept (s : State) (o : StoreOccasion) (ok : Bool) : ScanKept s (s.storeNotice o ok) :=
  (s.storeNotice_linksOnly o ok).toCalm.scanKept

theorem State.loadSettings_scanKept (s : State) (g : ShowImage) : ScanKept s (s.loadSettings g) := by
  have hin : Whole s (allIns.foldl (fun s i => s.applyInput i (g.inputs.get i)) s) :=
    foldl_rel Whole Whole.refl Whole.trans (fun s i => (s.applyInput_portsOnly i _).whole) _ s
  have hout : ∀ u : State, Whole u (allOuts.foldl (fun s o => s.setOut o ((s.midiOut o).applySettings (g.outputs.get o))) u) :=
    fun u => foldl_rel Whole Whole.refl Whole.trans (fun s o => (s.setOut_routerOnly o _).whole) _ u
  exact ((hin.trans (hout _)).trans (State.setLimit_whole _ _)).toCalm.scanKept

theorem State.reportStore_scanKept (s : State) (k : Option FaultKind) : ScanKept s (s.reportStore k) := by
  unfold State.reportStore
  split
  · exact (s.report_linksOnly _ _).toCalm.scanKept
  · exact ScanKept.refl s

theorem State.saveEnds_scanKept (s : State) (e : SaveEnd) : ScanKept s (s.saveEnds e) := by
  unfold State.saveEnds
  split
  · exact ((s.withStore_scanKept _).trans (State.storeNotice_scanKept _ _ _)).trans (State.reportStore_scanKept _ _)
  · exact ScanKept.refl s
  · exact ScanKept.refl s

theorem State.loadEnds_scanKept (s : State) : ScanKept s s.loadEnds := by
  unfold State.loadEnds
  split
  · simp only
    split
    · exact ((((s.withStore_scanKept _).trans (State.loadTables_scanKept _ _)).trans (State.loadSettings_scanKept _ _)).trans
        (State.setModes_scanKept _ _)).trans (State.storeNotice_scanKept _ _ _)
    · exact ((s.withStore_scanKept _).trans (State.storeNotice_scanKept _ _ _)).trans (State.reportStore_scanKept _ _)
  · exact ScanKept.refl s
  · exact ScanKept.refl s

theorem State.startupLoad_scanKept (s : State) (g : Option ShowImage) : ScanKept s (s.startupLoad g) := by
  unfold State.startupLoad
  split
  · exact ((s.setModes_scanKept _).trans (State.loadTables_scanKept _ _)).trans (State.loadSettings_scanKept _ _)
  · exact ScanKept.refl s

theorem State.startupEnds_scanKept (s : State) : ScanKept s s.startupEnds := by
  unfold State.startupEnds
  split
  · exact ScanKept.refl s
  · refine ScanKept.trans ?_ (State.storeNotice_scanKept _ .startup _)
    exact (((s.withStore_scanKept _).trans (State.startupLoad_scanKept _ _)).trans
      (State.report_linksOnly _ _ _).toCalm.scanKept).trans (State.reportStore_scanKept _ _)

theorem State.outputDrained_scanKept (s : State) (o : OutPort) : ScanKept s (s.outputDrained o) := by
  unfold State.outputDrained
  split
  · exact ScanKept.refl s
  · exact ScanKept.refl s

theorem State.shiftByte_scanKept (s : State) (l : Link) : ScanKept s (s.setLink l ((s.link l).shiftByte s.now)) := by
  unfold LinkState.shiftByte
  split
  · exact State.setLink_scanKept rfl rfl rfl rfl
  · split
    · split
      · exact State.setLink_scanKept rfl rfl rfl rfl
      · exact State.setLink_scanKept rfl rfl rfl rfl
    · exact State.setLink_scanKept rfl rfl rfl rfl
    · exact State.setLink_scanKept rfl rfl rfl rfl

theorem State.advance_scanKept (s : State) : ScanKept s s.advance := by
  have hsample : ScanKept s (if sampleBoundary s.micros then s.sampleBuses else s) := by
    split
    · exact s.sampleBuses_whole.toCalm.scanKept
    · exact ScanKept.refl s
  have hshift : ∀ u : State, ScanKept u u.shiftBytes := fun u =>
    foldl_rel ScanKept ScanKept.refl ScanKept.trans
      (fun v l => v.shiftByte_scanKept l) allLinks u
  exact hsample.trans (hshift _)

/-! ## The receiver and the other links -/

/-- The rescan lists of all links but one are as they were. -/
def OthersKept (l : Link) (s t : State) : Prop := ∀ j, j ≠ l → (t.link j).rescan = (s.link j).rescan

theorem OthersKept.refl (l : Link) (s : State) : OthersKept l s s := fun _ _ => rfl

theorem OthersKept.trans {l : Link} {s t u : State} (h : OthersKept l s t) (k : OthersKept l t u) : OthersKept l s u :=
  fun j hj => (k j hj).trans (h j hj)

theorem ScanKept.others {s t : State} (h : ScanKept s t) (l : Link) : OthersKept l s t := fun j _ => by
  obtain ⟨-, -, -, hrescan⟩ := h j
  exact hrescan

theorem State.setLink_others (s : State) (l : Link) (x : LinkState) : OthersKept l s (s.setLink l x) := fun _ hj =>
  congrArg LinkState.rescan (State.link_setLink_of_ne s x hj)

theorem State.discard_others (s : State) (l : Link) (k : FaultKind) : OthersKept l s (s.discard l k) :=
  ((s.report_linksOnly _ _).toCalm.scanKept.others l).trans (State.setLink_others _ l _)

theorem State.complete_others (s : State) (l : Link) : OthersKept l s (s.complete l) := by
  unfold State.complete
  simp only
  split
  · exact (s.setLink_others l _).trans ((State.takeTelegram_scanKept _ l _ _).others l)
  · exact s.discard_others l _

theorem State.takeByte_others (s : State) (l : Link) (b : Byte) : OthersKept l s (s.takeByte l b) := by
  unfold State.takeByte
  simp only
  split
  · split
    · exact (s.setLink_others l _).trans (State.discard_others _ l _)
    · split
      · exact (s.setLink_others l _).trans (State.complete_others _ l)
      · exact s.setLink_others l _
  · split
    · exact s.setLink_others l _
    · exact OthersKept.refl l s

theorem State.rescan_others (l : Link) : ∀ (n : Nat) (s : State), OthersKept l s (State.rescan n s l)
  | 0, s => OthersKept.refl l s
  | n + 1, s => by
    unfold State.rescan
    split
    · exact OthersKept.refl l s
    · exact ((s.setLink_others l _).trans (State.takeByte_others _ l _)).trans (State.rescan_others l n _)

/-! ## The end of a rescan -/

/-- How far a receiver is from having nothing left to examine: the square of the bytes it may still hand back, and, while it
is collecting, the length of its rescan list. -/
def LinkState.toScan (x : LinkState) : Nat :=
  if x.collecting then (x.collected.length + x.rescan.length) ^ 2 + x.rescan.length else x.rescan.length ^ 2

theorem LinkState.toScan_le_bound (x : LinkState) : x.toScan ≤ x.rescanBound := by
  unfold LinkState.toScan LinkState.rescanBound
  split <;> nlinarith

theorem LinkState.rescan_of_toScan {x : LinkState} (h : x.toScan = 0) : x.rescan = [] := by
  unfold LinkState.toScan at h
  split at h
  · exact List.eq_nil_of_length_eq_zero (by omega)
  · exact List.eq_nil_of_length_eq_zero (by simpa using h)

theorem State.discard_toScan (s : State) (l : Link) (k : FaultKind) :
    ((s.discard l k).link l).toScan = ((s.link l).collected.length + (s.link l).rescan.length) ^ 2 := by
  obtain ⟨-, -, hcollected, hrescan⟩ := (s.report_linksOnly k (some (.link l))).toCalm.scanKept l
  simp [State.discard, LinkState.toScan, LinkState.hunt, hcollected, hrescan]

theorem State.received_toScan (s : State) (l : Link) (k : Byte) (p : List Byte) :
    ((State.takeTelegram (s.setLink l (s.link l).hunt) l k p).link l).toScan = (s.link l).rescan.length ^ 2 := by
  obtain ⟨-, hcollecting, -, hrescan⟩ := State.takeTelegram_scanKept (s.setLink l (s.link l).hunt) l k p l
  rw [State.link_setLink_same] at hcollecting hrescan
  rw [LinkState.toScan, hcollecting, hrescan]
  rfl

/-- A telegram that is complete leaves at most its own bytes to examine again. -/
theorem State.complete_toScan (s : State) (l : Link) :
    ((s.complete l).link l).toScan ≤ ((s.link l).collected.length + (s.link l).rescan.length) ^ 2 := by
  unfold State.complete
  simp only
  split
  · rw [State.received_toScan]
    exact Nat.pow_le_pow_left (Nat.le_add_left _ _) 2
  · rw [State.discard_toScan]

/-- A byte taken off the rescan list brings the end of the rescan nearer. -/
theorem State.takeByte_toScan {s : State} {l : Link} {b : Byte} {r : List Byte} (h : (s.link l).rescan = b :: r) :
    ((State.takeByte (s.setLink l { s.link l with rescan := r }) l b).link l).toScan < (s.link l).toScan := by
  unfold State.takeByte
  simp only [State.link_setLink_same, State.setLink_setLink, State.now_setLink]
  split
  · next hcollecting =>
    have hbefore : (s.link l).toScan = ((s.link l).collected.length + (r.length + 1)) ^ 2 + (r.length + 1) := by
      rw [LinkState.toScan, if_pos hcollecting, h, List.length_cons]
    have hlen : (s.link l).collected.length + 1 + r.length = (s.link l).collected.length + (r.length + 1) := by omega
    split
    · rw [State.discard_toScan, State.link_setLink_same, List.length_append, List.length_singleton, hlen, hbefore]
      omega
    · split
      · refine Nat.lt_of_le_of_lt (State.complete_toScan _ l) ?_
        rw [State.link_setLink_same, List.length_append, List.length_singleton, hlen, hbefore]
        exact Nat.lt_add_of_pos_right (Nat.succ_pos _)
      · rw [State.link_setLink_same, LinkState.toScan, if_pos hcollecting, List.length_append, List.length_singleton, hlen,
          hbefore]
        exact Nat.add_lt_add_left (Nat.lt_succ_self r.length) _
  · next hhunting =>
    have hbefore : (s.link l).toScan = (r.length + 1) ^ 2 := by rw [LinkState.toScan, if_neg hhunting, h, List.length_cons]
    split
    · rw [State.link_setLink_same, LinkState.toScan, hbefore]
      simp only [if_true, List.length_nil]
      nlinarith
    · rw [State.link_setLink_same, LinkState.toScan, if_neg hhunting, hbefore]
      exact Nat.pow_lt_pow_left (Nat.lt_succ_self _) (by decide)

theorem State.rescan_ends (l : Link) : ∀ (n : Nat) (s : State), (s.link l).toScan ≤ n → ((State.rescan n s l).link l).rescan = []
  | 0, _, h => LinkState.rescan_of_toScan (Nat.le_zero.mp h)
  | n + 1, s, h => by
    unfold State.rescan
    split
    · assumption
    · next b r hr => exact State.rescan_ends l n _ (Nat.le_of_lt_succ (Nat.lt_of_lt_of_le (State.takeByte_toScan hr) h))

theorem State.rescanAll_ends (s : State) (l : Link) : ((s.rescanAll l).link l).rescan = [] :=
  State.rescan_ends l _ s (LinkState.toScan_le_bound _)

/-! ## Every deed -/

/-- No link has a byte left to examine again. -/
def State.rescanned (s : State) : Prop := ∀ l, (s.link l).rescan = []

theorem ScanKept.rescanned {s t : State} (h : ScanKept s t) (k : s.rescanned) : t.rescanned := fun l => by
  obtain ⟨-, -, -, hrescan⟩ := h l
  exact hrescan.trans (k l)

theorem OthersKept.rescanned {l : Link} {s t : State} (h : OthersKept l s t) (hl : (t.link l).rescan = []) (k : s.rescanned) :
    t.rescanned := fun j => by
  by_cases e : j = l
  · exact e ▸ hl
  · exact (h j e).trans (k j)

theorem State.rescanAll_rescanned {s t : State} {l : Link} (h : OthersKept l s t) (k : s.rescanned) :
    (t.rescanAll l).rescanned :=
  (h.trans (State.rescan_others l _ t)).rescanned (t.rescanAll_ends l) k

theorem State.lineByte_rescanned {s : State} (k : s.rescanned) (l : Link) (b : Byte) : (s.lineByte l b).rescanned := by
  unfold State.lineByte
  split
  · exact State.rescanAll_rescanned (s.takeByte_others l b) k
  · exact k

theorem State.badStop_rescanned {s : State} (k : s.rescanned) (l : Link) : (s.badStop l).rescanned := by
  unfold State.badStop
  split
  · exact State.rescanAll_rescanned (s.discard_others l _) k
  · exact k

theorem State.gapDeadline_rescanned {s : State} (k : s.rescanned) (l : Link) : (s.gapDeadline l).rescanned := by
  unfold State.gapDeadline
  split
  · exact State.rescanAll_rescanned (s.discard_others l _) k
  · exact k

theorem State.telegram_rescanned {s : State} (k : s.rescanned) (l : Link) (c : Byte) (p : List Byte) :
    (s.telegram l c p).rescanned := by
  unfold State.telegram
  split
  · exact (State.takeTelegram_scanKept _ l c p).rescanned
      ((s.setLink_others l _).rescanned (by rw [State.link_setLink_same]; exact k l) k)
  · exact k

theorem State.detectFalls_rescanned {s : State} (k : s.rescanned) (l : Link) : (s.detectFalls l).rescanned := by
  have hset : (s.setLink l LinkState.fallen).rescanned := (s.setLink_others l _).rescanned (by rw [State.link_setLink_same]; rfl) k
  unfold State.detectFalls
  split
  · simp only
    split
    · exact (State.stationFall_whole _ _).toCalm.scanKept.rescanned hset
    · exact (State.stationFall_whole _ _).toCalm.scanKept.rescanned hset
    · exact hset
    · split
      · exact (State.releaseLock_watchOnly _).toCalm.scanKept.rescanned hset
      · exact hset
  · exact k

theorem State.detectRises_rescanned {s : State} (k : s.rescanned) (l : Link) : (s.detectRises l).rescanned := by
  have hset : (s.setLink l { s.link l with high := true }).rescanned :=
    (s.setLink_others l _).rescanned (by rw [State.link_setLink_same]; exact k l) k
  unfold State.detectRises
  split
  · exact k
  · simp only
    split
    · exact (State.stationRise_whole _ _).toCalm.scanKept.rescanned hset
    · exact hset

theorem State.resets_rescanned (s : State) (c : ResetCause) (d : PerLink Bool) : (s.resets c d).rescanned := by
  have hfold := foldl_rel (fun s t : State => s.rescanned → t.rescanned) (fun _ k => k) (fun h h' k => h' (h k))
    (f := fun s l => if d.get l then s.detectRises l else s) (fun s l k => by
      split
      · exact State.detectRises_rescanned k l
      · exact k) allLinks
  exact hfold _ (fun l => by cases l <;> rfl)

/-- A byte, a bad stop bit, a gap deadline, a telegram and a change of DETECT each leave nothing to examine
again; a reset clears the lists; and every other deed leaves the receivers alone. -/
theorem Deed.rescanned {s t : State} (d : Deed s t) (k : s.rescanned) : t.rescanned := by
  cases d with
  | resets c d => exact s.resets_rescanned c d
  | telegram l c p => exact State.telegram_rescanned k l c p
  | lineByte l b => exact State.lineByte_rescanned k l b
  | badStop l => exact State.badStop_rescanned k l
  | gapDeadline l => exact State.gapDeadline_rescanned k l
  | detectFalls l => exact State.detectFalls_rescanned k l
  | startupEnds => exact s.startupEnds_scanKept.rescanned k
  | tick => exact s.tick_whole.toCalm.scanKept.rescanned k
  | sampleBuses => exact s.sampleBuses_whole.toCalm.scanKept.rescanned k
  | beatEdge => exact (s.markFrom_whole .line).toCalm.scanKept.rescanned k
  | lastMarkExpiry => exact s.lastMarkExpiry_whole.toCalm.scanKept.rescanned k
  | lostDeadline => exact s.lostDeadline_whole.toCalm.scanKept.rescanned k
  | saveEnds e => exact (s.saveEnds_scanKept e).rescanned k
  | loadEnds => exact s.loadEnds_scanKept.rescanned k
  | holdExpiry l => exact (s.holdExpiry_scanKept l).rescanned k
  | telegramSent l => exact (s.telegramSent_scanKept l).rescanned k
  | detectRises l => exact State.detectRises_rescanned k l
  | pulse => exact s.pulse_whole.toCalm.scanKept.rescanned k
  | resyncAllOff x => exact (s.resyncAllOff_whole x).toCalm.scanKept.rescanned k
  | resyncReplay x => exact (s.resyncReplay_whole x).toCalm.scanKept.rescanned k
  | resyncJoined x => exact (s.resyncJoined_whole x).toCalm.scanKept.rescanned k
  | message i c m => exact (s.messageArrives_portsOnly i c m).toCalm.scanKept.rescanned k
  | midiByte i b => exact (s.midiByte_portsOnly i b).toCalm.scanKept.rescanned k
  | midiBytes i bs => exact (s.midiBytes_portsOnly i bs).toCalm.scanKept.rescanned k
  | sensingLoss i => exact (s.sensingLoss_portsOnly i).toCalm.scanKept.rescanned k
  | framingError i => exact (s.framingError_portsOnly i).toCalm.scanKept.rescanned k
  | slotExpiry q => exact (s.slotExpiry_routerOnly q).toCalm.scanKept.rescanned k
  | forwardTimeExpiry q => exact (s.forwardTimeExpiry_routerOnly q).toCalm.scanKept.rescanned k
  | outputByteSent o => exact k
  | outputDrained o => exact (s.outputDrained_scanKept o).rescanned k

/-- Settles O18: a step is a deed or the passing of a microsecond, and the fuel of a rescan outlasts its distance to the
end. -/
theorem rescanAlwaysEnds : Obligations.RescanAlwaysEnds := by
  refine ⟨fun s t hs h => step_keeps (P := State.rescanned) (fun _ _ k => k) (fun _ k => k)
    (fun u => u.advance_scanKept.rescanned) (fun _ _ d => d.rescanned) hs h, fun s l hhigh hr => ?_⟩
  have hbyte : ∀ b, ((s.lineByte l b).link l).rescan = [] := fun b => by
    rw [State.lineByte, if_pos hhigh]
    exact State.rescanAll_ends _ l
  refine ⟨fun b => ⟨_, rfl, hbyte b⟩, fun e => ?_, _, rfl, ?_⟩
  · cases e with
    | byte b => exact ⟨_, rfl, hbyte b⟩
    | badStop =>
      refine ⟨_, rfl, ?_⟩
      show ((s.badStop l).link l).rescan = []
      unfold State.badStop
      split
      · exact State.rescanAll_ends _ l
      · exact hr
  · unfold State.gapDeadline
    split
    · exact State.rescanAll_ends _ l
    · exact hr

end Sys2Proof.Machine
end

section
/-! PROOFS. What becomes of a telegram before it is taken: class, rights, and the checks of a request (R145, R148 to R153). -/

namespace Sys2Proof.Machine

/-! ## The class of a telegram -/

theorem State.telegram_heard {s : State} {l : Link} (h : (s.link l).high = true) (k : Byte) (p : List Byte) :
    s.telegram l k p = (s.heard l).takeTelegram l k p := if_pos h

theorem State.telegram_low {s : State} {l : Link} (h : (s.link l).high = false) (k : Byte) (p : List Byte) :
    s.telegram l k p = s := if_neg (by rw [h]; decide)

theorem State.takeTelegram_request (s : State) (l : Link) {code : Nat} (h : code < 64) (p : List Byte) :
    s.takeTelegram l (byte code) p = s.takeRequest l code p := by
  have hcode : (byte code).toNat = code := byte_toNat (by omega)
  rw [State.takeTelegram, hcode, if_pos h]

theorem State.takeTelegram_report (s : State) (l : Link) {code : Nat} (h : code < 64) (p : List Byte) :
    s.takeTelegram l (byte (64 + code)) p = s.takeReport l code p := by
  have hcode : (byte (64 + code)).toNat = 64 + code := byte_toNat (by omega)
  rw [State.takeTelegram, hcode, if_neg (by omega), if_pos (by omega), Nat.add_sub_cancel_left]

/-- Classes answer and notice are the part's own (R148). -/
theorem State.takeTelegram_badClass (s : State) (l : Link) {k : Byte} (h : 128 ≤ k.toNat) (p : List Byte) :
    s.takeTelegram l k p = s.report .badClass (some (.link l)) := by
  rw [State.takeTelegram, if_neg (by omega), if_neg (by omega)]

/-! ## Reports that are not taken (R150, R153) -/

theorem reportOfCode_code (k : RepKind) : reportOfCode k.code = some k := by cases k <;> rfl

theorem RepKind.code_lt (k : RepKind) : k.code < 64 := by cases k <;> decide

theorem State.takeReport_unknown (s : State) (l : Link) {c : Nat} (h : c = 0 ∨ 4 < c) (p : List Byte) :
    s.takeReport l c p = s.report .badReport (some (.link l)) := by
  have hcode : reportOfCode c = none := by
    refine List.find?_eq_none.2 fun k _ => ?_
    have hk : 1 ≤ k.code ∧ k.code ≤ 4 := by cases k <;> decide
    rw [decide_eq_true_iff]
    omega
  rw [State.takeReport, hcode]

theorem State.takeReport_denied (s : State) {l : Link} {k : RepKind} (h : k.allowed (Link.role l) = false) (p : List Byte) :
    s.takeReport l k.code p = s.report .reportDenied (some (.link l)) := by
  simp only [State.takeReport, reportOfCode_code, h, Bool.not_false, if_true]

theorem State.takeReport_unfit (s : State) {l : Link} {k : RepKind} {p : List Byte} (ha : k.allowed (Link.role l) = true)
    (hf : k.fits p = false) : s.takeReport l k.code p = s.report .badReport (some (.link l)) := by
  simp only [State.takeReport, reportOfCode_code, ha, hf, Bool.not_true, Bool.not_false, Bool.false_eq_true, if_false, if_true]

theorem State.telegram_report {s : State} {l : Link} (h : (s.link l).high = true) {code : Nat} (hc : code < 64) (p : List Byte) :
    s.telegram l (byte (64 + code)) p = (s.heard l).takeReport l code p := by
  rw [State.telegram_heard h, State.takeTelegram_report _ l hc]

theorem State.reportTelegram_denied {s : State} {l : Link} {k : RepKind} (h : (s.link l).high = true)
    (ha : k.allowed (Link.role l) = false) (p : List Byte) :
    s.reportTelegram l k p = (s.heard l).report .reportDenied (some (.link l)) := by
  rw [State.reportTelegram, State.telegram_report h k.code_lt, State.takeReport_denied _ ha]

/-! ## Requests (R148, R149) -/

/-- One answer, then notices, on the request's own link; notices on the others. -/
theorem Handled.of_heard {l : Link} {n : Nat} {s t : State} (h : Handled l n (s.heard l) t) :
    (∃ (r : ResultCode) (d : List Byte) (ns : List Notice),
      (t.link l).line = (s.link l).line ++ .answer n r d :: ns.map Telegram.notice) ∧
    ∀ j, j ≠ l → ∃ ns : List Notice, (t.link j).line = (s.link j).line ++ ns.map Telegram.notice := by
  refine ⟨?_, fun j hj => ?_⟩
  · have hown := h.own
    rwa [State.link_heard_same, LinkState.hunt_line] at hown
  · have hother := h.other j hj
    rwa [State.link_heard_of_ne s hj] at hother

theorem State.request_full {s : State} {l : Link} (h : (s.link l).high = true) (hf : (s.link l).free = 0) (k : ReqKind)
    (p : List Byte) : s.request l k p = (s.heard l).report .inboundDrop (some (.link l)) := by
  have hfree : ((s.heard l).link l).free = 0 := by rw [State.link_heard_same, LinkState.hunt_free, hf]
  rw [State.request, State.telegram_heard h, State.takeTelegram, if_pos (ReqKind.code_lt k), State.takeRequest, if_pos hfree]

theorem State.hearsRequest_iff (s : State) (l : Link) :
    s.hearsRequest l = true ↔ (s.link l).high = true ∧ 1 ≤ (s.link l).free := by
  rw [State.hearsRequest, Bool.and_eq_true, decide_eq_true_iff]

/-- A kind code that names no request is answered BAD with that code (R149, check 1). -/
theorem State.telegram_unknownRequest {s : State} {l : Link} (h : s.hearsRequest l = true) {code : Nat} (hc : code < 64)
    (hk : kindOfCode code = none) (p : List Byte) : s.telegram l (byte code) p =
      s.setLink l ((s.link l).hunt.admitTelegram s.now (.answer code .bad [])) := by
  obtain ⟨hhigh, hfree⟩ := (s.hearsRequest_iff l).1 h
  have hroom : ((s.heard l).link l).free ≠ 0 := by
    rw [State.link_heard_same, LinkState.hunt_free]
    omega
  rw [State.telegram_heard hhigh, State.takeTelegram_request _ l hc, State.takeRequest, if_neg hroom, hk]
  simp only [State.answer, State.post, State.link_heard_same, State.heard_setLink, State.heard_now]

/-- While STARTING every request but READ_STATUS and SUBSCRIBE is answered BUSY (R149, check 3). -/
theorem State.request_starting {s : State} {l : Link} {k : ReqKind} (h : s.hearsRequest l = true)
    (ha : k.allowed (Link.role l) = true) (hr : s.ready = false) (hstatus : k ≠ .readStatus) (hsub : k ≠ .subscribe)
    (p : List Byte) : s.request l k p = s.answered l k .busy [] := by
  rw [State.request_heard h]
  simp only [State.checkRequest, ha, State.heard_ready, hr, Bool.not_true, Bool.false_eq_true, Bool.not_false, Bool.true_and,
    hstatus, hsub, ne_eq, not_false_eq_true, and_self, decide_true, if_false, if_true, State.heard_reply]

/-- A request that its link may send and that the part's state does not hold back goes on to its payload (R149). -/
theorem State.request_ready {s : State} {l : Link} {k : ReqKind} (h : s.hearsRequest l = true)
    (ha : k.allowed (Link.role l) = true) (hr : s.ready = true ∨ k = .readStatus ∨ k = .subscribe) (p : List Byte) :
    s.request l k p = if k.fits p = false then s.answered l k .bad []
      else if k.fieldDenied l p = true then s.answered l k .denied [] else (s.heard l).perform l k p := by
  have hgoes : (!s.ready && decide (k ≠ .readStatus ∧ k ≠ .subscribe)) = false := by
    rcases hr with hr | rfl | rfl
    · rw [hr]; rfl
    · exact Bool.and_false _
    · exact Bool.and_false _
  rw [State.request_heard h, State.checkRequest, State.heard_ready, hgoes]
  simp only [ha, Bool.not_true, Bool.false_eq_true, if_false, Bool.not_eq_true', State.heard_reply]

/-- Settles O10: the request is checked by the state that heard it, and whatever it comes to is one answer and notices. -/
theorem everyRequestTakenGetsOneAnswer : Obligations.EveryRequestTakenGetsOneAnswer := fun _ s l k p hi hs =>
  ⟨_, (exec_of_asRequest hi s).trans (congrArg _ (State.request_heard hs k p)),
    ((s.heard l).checkRequest_handled l k p).of_heard⟩

/-- Settles O14: the fault is all that is left of the request, and brings notices alone. -/
theorem inboundDropLosesTheRequest : Obligations.InboundDropLosesTheRequest := fun _ s _ k p hi hh hf =>
  ⟨(exec_of_asRequest hi s).trans (congrArg _ (State.request_full hh hf k p)), (State.report_linksOnly _ _ _).noticesOnly⟩

/-- Settles O11: the two tables entry by entry, and the check that comes before every look at the payload. -/
theorem rightsTable : Obligations.RightsTable := by
  refine ⟨fun k l => ?_, fun k l => ?_, fun i s l k p hi hs ha => ?_, fun s l p hh => ?_⟩
  · cases l with
    | s0 | s1 | s2 | s3 => cases k <;> rfl
  · cases k with
    | mark | echo | hold | resume => cases l <;> rfl
  · rw [exec_of_asRequest hi, State.request_notAllowed hs ha]
  · refine ⟨fun ha => ?_, fun ha => ?_, fun ha => ?_, fun ha => ?_, fun k ha => ?_⟩
    · exact congrArg _ (State.reportTelegram_denied hh ha p)
    · exact congrArg _ (State.reportTelegram_denied hh ha p)
    · exact congrArg _ (State.reportTelegram_denied hh ha p)
    · exact congrArg _ (State.reportTelegram_denied hh ha p)
    · have hcode : (Fin.ofNat 64 k.code).val = k.code := Nat.mod_eq_of_lt k.code_lt
      have hexec : s.telegram l (byte (64 + (Fin.ofNat 64 k.code).val)) p = (s.heard l).report .reportDenied (some (.link l)) := by
        rw [hcode, State.telegram_report hh k.code_lt, State.takeReport_denied _ ha]
      exact congrArg _ hexec

/-! ## Fields that a sound station may not ask for (R151) -/

section
variable {s : State} {l : Link} (hl : l = .s0 ∨ l = .s1) (h : s.hearsRequest l = true) (hr : s.ready = true)
include hl h hr

theorem exec_muteClick_band (m : Bool) : exec (.muteClick l [0, flag m]) s = .next (s.answered l .muteClick .denied []) := by
  rw [exec_of_asRequest (i := .muteClick l [0, flag m]) rfl, State.request_fieldDenied h hr rfl (by cases m <;> rfl)
    (by rcases hl with rfl | rfl <;> rfl)]

theorem exec_unlock_force : exec (.unlock l [1]) s = .next (s.answered l .unlock .denied []) := by
  rw [exec_of_asRequest (i := .unlock l [1]) rfl, State.request_fieldDenied h hr (by rcases hl with rfl | rfl <;> rfl) rfl
    (by rcases hl with rfl | rfl <;> rfl)]

theorem exec_muteClick_neither {b : Byte} (hb : 2 ≤ b.toNat) (m : Bool) :
    exec (.muteClick l [b, flag m]) s = .next (s.answered l .muteClick .range [0, 0, 255]) := by
  have hbus : byteAt [b, flag m] 0 ≠ 0 := fun hz => absurd (hz ▸ hb : 2 ≤ 0) (by decide)
  rw [exec_of_takes (i := .muteClick l [b, flag m]) rfl (State.takes_of_ready h hr rfl (by cases m <;> rfl)
    (by rcases hl with rfl | rfl <;> exact decide_eq_false hbus))]
  exact congrArg _ (s.reqMuteClick_range l hb (flag m))

theorem exec_resync_neither {b : Byte} (hb : 2 ≤ b.toNat) :
    exec (.resync l [b]) s = .next (s.answered l .resync .range [0, 0, 255]) := by
  have hstation : byteAt [b] 0 ≠ 0 ∧ byteAt [b] 0 ≠ 1 :=
    ⟨fun hz => absurd (hz ▸ hb : 2 ≤ 0) (by decide), fun hz => absurd (hz ▸ hb : 2 ≤ 1) (by decide)⟩
  rw [exec_of_takes (i := .resync l [b]) rfl (State.takes_of_ready h hr (by rcases hl with rfl | rfl <;> rfl) rfl (by
    rcases hl with rfl | rfl
    · exact decide_eq_false hstation.2
    · exact decide_eq_false hstation.1))]
  exact congrArg _ (s.reqResync_range l hb)

end

/-- Settles O13: the denied fields by the check before the owner's, and the other codes by the owner's range. -/
theorem fieldsARoleMayNotAskFor : Obligations.FieldsARoleMayNotAskFor := by
  intro s l hl h hr
  refine ⟨exec_muteClick_band hl h hr, exec_unlock_force hl h hr, fun h0 => ?_, fun h1 => ?_,
    fun b m hb => exec_muteClick_neither hl h hr hb m, fun b hb => exec_resync_neither hl h hr hb⟩
  · subst h0
    rw [exec_of_asRequest (i := .resync .s0 [1]) rfl, State.request_fieldDenied h hr rfl rfl rfl]
  · subst h1
    rw [exec_of_asRequest (i := .resync .s1 [0]) rfl, State.request_fieldDenied h hr rfl rfl rfl]

end Sys2Proof.Machine
end

section
/-! PROOFS. RESET (R144, R161, R163, R180, R183): the state with every DETECT low, and each DETECT found high in its turn. -/

namespace Sys2Proof.Machine

/-- The state in which a session starts: every block at its reset values, the links connected whose DETECT is high, and the
sound stations on them DOWN. -/
def State.begun (s : State) (cause : ResetCause) (d : PerLink Bool) : State :=
  { State.reset with
    sl := ⟨{ LinkState.reset with high := d.s0 }, { LinkState.reset with high := d.s1 },
           { LinkState.reset with high := d.s2 }, { LinkState.reset with high := d.s3 }⟩
    sw := { Watch.reset with stations :=
      ⟨{ StationRec.reset with state := if d.s0 then .down else .absent },
       { StationRec.reset with state := if d.s1 then .down else .absent }⟩ }
    st := { State.reset.st with flash := s.flashAfterReset }
    cause := cause
    choices := s.choices + 1
    pending := s.pending }

theorem State.begun_detectRises (s : State) (cause : ResetCause) {d : PerLink Bool} {l : Link} (h : d.get l = false) :
    (s.begun cause d).detectRises l = s.begun cause (d.set l true) := by
  obtain ⟨d0, d1, d2, d3⟩ := d
  cases l with
  | s0 | s1 | s2 | s3 => obtain rfl := h; rfl

/-- One DETECT sampled at the end of a reset. -/
theorem State.begun_sampled (s : State) (cause : ResetCause) {d : PerLink Bool} {l : Link} (h : d.get l = false) (high : Bool) :
    (if high then (s.begun cause d).detectRises l else s.begun cause d) = s.begun cause (d.set l high) := by
  cases high with
  | false =>
    have hset : d.set l false = d := by rw [← h, PerLink.set_get]
    rw [hset]
    rfl
  | true => exact s.begun_detectRises cause h

theorem State.resets_eq (s : State) (cause : ResetCause) (d : PerLink Bool) : s.resets cause d = s.begun cause d := by
  have hfold : s.resets cause d = [Link.s0, .s1, .s2, .s3].foldl (fun u l => if d.get l then u.detectRises l else u)
    (s.begun cause ⟨false, false, false, false⟩) := rfl
  rw [hfold, List.foldl_cons, s.begun_sampled cause rfl, List.foldl_cons, s.begun_sampled cause rfl, List.foldl_cons,
    s.begun_sampled cause rfl, List.foldl_cons, s.begun_sampled cause rfl]
  rfl

theorem State.flashAfterReset_of_no_save {s : State} (h : ∀ copy, s.st.op ≠ .saving copy) : s.flashAfterReset = s.st.flash := by
  unfold State.flashAfterReset
  split
  · next copy hop => exact absurd hop (h copy)
  · rfl
  · rfl

theorem State.flashAfterReset_of_save {s : State} {copy : ShowImage} (h : s.st.op = .saving copy) :
    s.flashAfterReset = .blank ∨ s.flashAfterReset = .garbled := by
  rw [State.flashAfterReset, h]
  exact ite_eq_or_eq _ _ _

/-- Settles O4: the session that the sampling of the four DETECTs leaves, with the flash that an abandoned save leaves. -/
theorem resetCommandStartsTheSession : Obligations.ResetCommandStartsTheSession := fun s cause d =>
  ⟨s.flashAfterReset, congrArg _ (s.resets_eq cause d), State.flashAfterReset_of_no_save,
    fun _ h => State.flashAfterReset_of_save h⟩

end Sys2Proof.Machine
end

section
/-! PROOFS. HOLD, RESUME and the transmitter (R153, R156 to R158). -/

namespace Sys2Proof.Machine

theorem LinkState.startTx_nil {x : LinkState} (h : x.queue = []) (now : Stamp) : x.startTx now = x := by
  rw [LinkState.startTx, h]

/-- The oldest telegram starts on a connected link that is not held and sends nothing (R156). -/
theorem LinkState.startTx_cons {x : LinkState} {t : Telegram} {rest : List Telegram} (h : x.queue = t :: rest) (now : Stamp) :
    x.startTx now = if x.high = true ∧ x.hold = none ∧ x.tx = none then
      { x with queue := rest, tx := some { telegram := t, left := t.bytes, byteEnds := now + 10#32 } } else x := by
  simp only [LinkState.startTx, h, Bool.and_eq_true, Option.isNone_iff_eq_none, and_assoc]
  rfl

/-- RESUME, and a HOLD of 0, on a link that has heard them. -/
theorem State.heard_resumeLink (s : State) (l : Link) : (s.heard l).resumeLink l =
    s.setLink l (LinkState.startTx { (s.link l).hunt with hold := none } s.now) := by
  rw [State.resumeLink, State.heard_setLink, State.link_heard_same, State.heard_now, LinkState.resume]

theorem State.heard_holdLink (s : State) (l : Link) {ms : Nat} (h : 1 ≤ ms) : (s.heard l).holdLink l ms =
    s.setLink l { (s.link l).hunt with hold := some (stampAfter s.now (1000 * min 1000 ms)) } := by
  rw [State.holdLink, if_neg (by omega), State.heard_setLink, State.link_heard_same, State.heard_now]

theorem RepKind.allowed_hold (l : Link) : RepKind.allowed .hold (Link.role l) = true := rfl
theorem RepKind.allowed_resume (l : Link) : RepKind.allowed .resume (Link.role l) = true := rfl

theorem State.holdTelegram {s : State} {l : Link} (h : (s.link l).high = true) {ms : Nat} (hms : ms < 65536) :
    s.reportTelegram l .hold (be16 ms) = (s.heard l).holdLink l ms := by
  have hword : wordAt (be16 ms) 0 = ms := wordAt_of_reads ⟨rfl, rfl, trivial⟩ hms
  rw [State.reportTelegram_taken h (RepKind.allowed_hold l) rfl, State.performReport, hword]

/-- Settles O51: each report by the state that heard it, each timed event by its record, and every start by the queue. -/
theorem holdsPauseAndTelegramsFollow : Obligations.HoldsPauseAndTelegramsFollow := by
  intro s l start quiet
  have hstart : ∀ x, start x = x.startTx s.now := fun x => by
    cases hq : x.queue with
    | nil => simp only [start, hq, LinkState.startTx_nil hq]
    | cons t rest => simp only [start, hq, LinkState.startTx_cons hq]
  refine ⟨fun hh => ⟨fun ms hlow hhigh => ?_, ?_, ?_⟩, fun hs => ?_, fun hs => congrArg _ (if_pos hs), fun ht => ?_,
    fun ht => congrArg _ (if_pos ht)⟩
  · exact congrArg _ ((State.holdTelegram hh hhigh).trans (s.heard_holdLink l hlow))
  · rw [hstart]
    exact congrArg _ ((State.holdTelegram hh (ms := 0) (by omega)).trans ((if_pos rfl).trans (s.heard_resumeLink l)))
  · rw [hstart]
    exact congrArg _ ((State.reportTelegram_taken hh (RepKind.allowed_resume l) rfl).trans (s.heard_resumeLink l))
  · rw [hstart]
    exact congrArg _ (if_neg hs)
  · rw [hstart]
    exact congrArg _ (if_neg ht)

end Sys2Proof.Machine
end

section
/-! PROOFS. Notices and fault reports: the places that they take, link by link, and the record that a report leaves (R154, R155,
R184 to R186). -/

namespace Sys2Proof.Machine

/-! ## One link at a time -/

/-- What the offer of a notice of a group makes of a link (R154, R155). -/
def LinkState.offered (x : LinkState) (g : Mask → Bool) (now : Stamp) (n : Notice) : LinkState :=
  if g x.mask ∧ x.high = true ∧ 16 ≤ x.free then x.admitTelegram now (.notice n) else x

/-- One link's turn in a notice to every link: its own record takes the offer, and the others, the clock and the fault modes
stay. -/
structure Turn (g : Mask → Bool) (n : Notice) (l : Link) (s t : State) : Prop where
  own : t.link l = (s.link l).offered g s.now n
  other : ∀ j, j ≠ l → t.link j = s.link j
  now : t.now = s.now
  modes : t.fl.modes = s.fl.modes

/-- After every link has had its turn, each has taken the offer once. -/
theorem turns_link {P : State → Prop} {f : State → Link → State} {g : Mask → Bool} {n : Notice}
    (hmodes : ∀ s t, t.fl.modes = s.fl.modes → P s → P t) (hf : ∀ s l, P s → Turn g n l s (f s l)) {l : Link} :
    ∀ (ls : List Link) (s : State), P s → ls.Nodup →
      (ls.foldl f s).link l = if l ∈ ls then (s.link l).offered g s.now n else s.link l
  | [], s, _, _ => by rw [List.foldl_nil, if_neg List.not_mem_nil]
  | j :: ls, s, hs, hnodup => by
    obtain ⟨hj, hls⟩ := List.nodup_cons.1 hnodup
    have hturn := hf s j hs
    rw [List.foldl_cons, turns_link hmodes hf ls (f s j) (hmodes _ _ hturn.modes hs) hls, hturn.now]
    by_cases e : l = j
    · subst e
      rw [if_neg hj, hturn.own, if_pos List.mem_cons_self]
    · rw [hturn.other l e]
      simp only [List.mem_cons, e, false_or]

theorem allLinks_turns {P : State → Prop} {f : State → Link → State} {g : Mask → Bool} {n : Notice}
    (hmodes : ∀ s t, t.fl.modes = s.fl.modes → P s → P t) (hf : ∀ s l, P s → Turn g n l s (f s l)) {s : State} (hs : P s)
    (l : Link) : (allLinks.foldl f s).link l = (s.link l).offered g s.now n := by
  rw [turns_link hmodes hf allLinks s hs (by decide), if_pos (by cases l <;> decide)]

theorem Turn.of_refused {g : Mask → Bool} {n : Notice} {l : Link} {s t : State}
    (h : ¬(g (s.link l).mask ∧ (s.link l).high = true ∧ 16 ≤ (s.link l).free)) (hlink : ∀ j, t.link j = s.link j)
    (hnow : t.now = s.now) (hmodes : t.fl.modes = s.fl.modes) : Turn g n l s t :=
  ⟨(hlink l).trans (if_neg h).symm, fun j _ => hlink j, hnow, hmodes⟩

theorem State.post_turn {g : Mask → Bool} {n : Notice} {l : Link} {s : State}
    (h : g (s.link l).mask ∧ (s.link l).high = true ∧ 16 ≤ (s.link l).free) : Turn g n l s (s.post l (.notice n)) :=
  ⟨(s.link_setLink_same l _).trans (if_pos h).symm, fun _ hj => s.link_setLink_of_ne _ hj, rfl, rfl⟩

theorem State.offerQuiet_eq (s : State) (l : Link) (n : Notice) : s.offerQuiet l n =
    if (s.link l).high = true ∧ 16 ≤ (s.link l).free then s.post l (.notice n) else s := by
  simp only [State.offerQuiet, Bool.and_eq_true, decide_eq_true_eq]
  rfl

theorem State.offerQuiet_turn (s : State) (g : Mask → Bool) (n : Notice) (l : Link) :
    Turn g n l s (if g (s.link l).mask then s.offerQuiet l n else s) := by
  rw [State.offerQuiet_eq]
  split
  · next hmask =>
    split
    · next hroom => exact State.post_turn ⟨hmask, hroom⟩
    · next hroom => exact Turn.of_refused (fun h => hroom h.2) (fun _ => rfl) rfl rfl
  · next hmask => exact Turn.of_refused (fun h => hmask h.1) (fun _ => rfl) rfl rfl

/-- A fault outside the classes in ALERT mode is told to no link (R185). -/
theorem State.report_link {s : State} {k : FaultKind} (h : s.fl.modes.get k.cls ≠ .alert) (p : Option FaultPort) (l : Link) :
    (s.report k p).link l = s.link l := by
  unfold State.report State.reportAt
  split
  · rfl
  · rfl
  · next hmode => exact absurd hmode h

theorem State.offerNotice_turn {s : State} (h : s.fl.modes.frame ≠ .alert) (g : Mask → Bool) (n : Notice) (l : Link) :
    Turn g n l s (if g (s.link l).mask then s.offerNotice l n else s) := by
  rw [State.offerNotice_eq]
  split
  · next hmask =>
    split
    · next hlow => exact Turn.of_refused (fun k => by rw [k.2.1] at hlow; cases hlow) (fun _ => rfl) rfl rfl
    · next hhigh =>
      split
      · next hroom => exact State.post_turn ⟨hmask, by simpa using hhigh, hroom⟩
      · next hroom =>
        have hreport := s.report_linksOnly .noticeDrop (some (.link l))
        exact Turn.of_refused (fun k => hroom k.2.2) (State.report_link (k := .noticeDrop) h _) hreport.now hreport.modes
  · next hmask => exact Turn.of_refused (fun k => hmask k.1) (fun _ => rfl) rfl rfl

theorem State.broadcastQuiet_link (s : State) (g : Mask → Bool) (n : Notice) (l : Link) :
    (s.broadcastQuiet g n).link l = (s.link l).offered g s.now n :=
  allLinks_turns (P := fun _ => True) (fun _ _ _ _ => trivial) (fun s l _ => s.offerQuiet_turn g n l) trivial l

theorem State.broadcast_link {s : State} (h : s.fl.modes.frame ≠ .alert) (g : Mask → Bool) (n : Notice) (l : Link) :
    (s.broadcast g n).link l = (s.link l).offered g s.now n :=
  allLinks_turns (P := fun s => s.fl.modes.frame ≠ .alert) (fun _ _ hmodes hs => by rwa [hmodes])
    (fun _ l hs => State.offerNotice_turn hs g n l) h l

/-! ## The record that a report leaves -/

/-- The record of a report that is the first of its kind in a row (R185). -/
def FaultLog.fresh (f : FaultLog) (k : FaultKind) (p : Option FaultPort) (pos : Option BarBeat) (time : Nat) : FaultRecord :=
  { number := f.counter, kind := k, port := p, pos := pos, time := time, repeats := 1, acked := false }

/-- The records after a report that merges with the newest one, where it does (R185). -/
def FaultLog.merged (f : FaultLog) (k : FaultKind) (p : Option FaultPort) (pos : Option BarBeat) (time : Nat) :
    Option (List FaultRecord) :=
  f.records.getLast?.bind (fun r =>
    if r.kind = k ∧ r.port = p then
      some (f.records.dropLast ++ [{ r with repeats := min 255 (r.repeats + 1), time := time, pos := pos, acked := false }])
    else none)

theorem FaultLog.append_review {f : FaultLog} (h : f.records.length ≤ 32) (k : FaultKind) (p : Option FaultPort)
    (pos : Option BarBeat) (time : Nat) : (f.append k p pos time).review =
      { f with
        records := f.records.drop (f.records.length - 31) ++ [f.fresh k p pos time]
        counter := (f.counter + 1) % 65536
        alert := (f.records.drop (f.records.length - 31) ++ [f.fresh k p pos time]).any
          (fun r => !r.acked && decide (f.modes.get r.kind.cls = .alert)) } := by
  have hdrop : (if Config.faultRoom ≤ f.records.length then f.records.tail else f.records) =
      f.records.drop (f.records.length - 31) := by
    split
    · next hfull =>
      have hlen : f.records.length - 31 = 1 := by
        have hroom : 32 ≤ f.records.length := hfull
        omega
      rw [hlen, List.drop_one]
    · next hfull =>
      have hlen : f.records.length - 31 = 0 := by
        have hroom : ¬32 ≤ f.records.length := hfull
        omega
      rw [hlen, List.drop_zero]
  simp only [FaultLog.append, hdrop]
  rfl

theorem FaultLog.record_eq {f : FaultLog} (h : f.records.length ≤ 32) (k : FaultKind) (p : Option FaultPort)
    (pos : Option BarBeat) (time : Nat) : f.record k p pos time =
      let records := (f.merged k p pos time).getD (f.records.drop (f.records.length - 31) ++ [f.fresh k p pos time])
      { f with
        records := records
        counter := if (f.merged k p pos time).isSome then f.counter else (f.counter + 1) % 65536
        alert := records.any (fun r => !r.acked && decide (f.modes.get r.kind.cls = .alert)) } := by
  unfold FaultLog.record FaultLog.merged
  cases hlast : f.records.getLast? with
  | none => exact f.append_review h k p pos time
  | some r =>
    by_cases hsame : r.kind = k ∧ r.port = p
    · simp only [if_pos hsame, Option.bind_some]
      rfl
    · simp only [if_neg hsame, Option.bind_some]
      exact f.append_review h k p pos time

theorem State.report_ignored {s : State} {k : FaultKind} (h : s.fl.modes.get k.cls = .ignore) (p : Option FaultPort) :
    s.report k p = s := by rw [State.report, State.reportAt, h]

theorem State.report_logged {s : State} {k : FaultKind} (h : s.fl.modes.get k.cls = .log) (p : Option FaultPort) :
    s.report k p = { s with fl := s.fl.record k p s.barBeat s.millis } := by rw [State.report, State.reportAt, h]

theorem State.report_alerted {s : State} {k : FaultKind} (h : s.fl.modes.get k.cls = .alert) (p : Option FaultPort)
    {r : FaultRecord} (hr : (s.fl.record k p s.barBeat s.millis).records.getLast? = some r) : s.report k p =
      State.broadcastQuiet { s with fl := s.fl.record k p s.barBeat s.millis } Mask.fault (.fault r) := by
  rw [State.report, State.reportAt, h]
  simp only [State.offerFaultNotice, hr]

/-- Settles O50: a notice by the turn of each link, and a report by its class's mode and the record it leaves. -/
theorem noticesAndReportsReachTheirPlaces : Obligations.NoticesAndReportsReachTheirPlaces := by
  refine ⟨fun s g n l => ⟨s.broadcastQuiet_link g n l, fun h => State.broadcast_link h g n l⟩, fun s g n => ⟨?_, ?_⟩,
    fun s k p => ?_⟩
  · refine congrArg (fun f => List.foldl f s allLinks) (funext fun v => funext fun l => ?_)
    simp only [State.offerNotice_eq, ite_and, decide_eq_true_eq, State.post]
    cases (v.link l).high <;> simp
  · refine congrArg (fun f => List.foldl f s allLinks) (funext fun v => funext fun l => ?_)
    simp only [State.offerQuiet_eq, ite_and, decide_eq_true_eq, State.post]
  · intro pos time fresh merged records fl hlen
    have hpos : s.barBeat = pos := s.barBeat_eq
    have hfl : s.fl.record k p s.barBeat s.millis = fl := by
      rw [hpos]
      exact FaultLog.record_eq hlen k p pos time
    refine ⟨fun h => State.report_ignored h p, fun h => ?_, fun h r hr => ?_⟩
    · rw [State.report_logged h, hfl]
    · rw [State.report_alerted h p (r := r) (by rw [hfl]; exact hr), hfl]

end Sys2Proof.Machine
end

section
/-! PROOFS. The receiver byte by byte (R145, R146): what each byte makes of it, and the bytes of a whole telegram. -/

namespace Sys2Proof.Machine

/-! ## One byte -/

theorem State.rescanAll_of_nothing {s : State} {l : Link} (h : (s.link l).rescan = []) : s.rescanAll l = s := by
  unfold State.rescanAll
  cases (s.link l).rescanBound with
  | zero => rfl
  | succ n => rw [State.rescan, h]

/-- The receiver has collected the bytes `c` of a telegram, the last of them just now (R146). -/
def State.collects (s : State) (l : Link) (c : List Byte) : State :=
  s.setLink l { s.link l with collecting := true, collected := c, gap := some (stampAfter s.now 2000) }

theorem State.link_collects (s : State) (l : Link) (c : List Byte) : (s.collects l c).link l =
    { s.link l with collecting := true, collected := c, gap := some (stampAfter s.now 2000) } := s.link_setLink_same l _

@[simp] theorem State.link_collects_high (s : State) (l : Link) (c : List Byte) :
    ((s.collects l c).link l).high = (s.link l).high := by rw [State.link_collects]
@[simp] theorem State.link_collects_collecting (s : State) (l : Link) (c : List Byte) :
    ((s.collects l c).link l).collecting = true := by rw [State.link_collects]
@[simp] theorem State.link_collects_collected (s : State) (l : Link) (c : List Byte) :
    ((s.collects l c).link l).collected = c := by rw [State.link_collects]
@[simp] theorem State.link_collects_rescan (s : State) (l : Link) (c : List Byte) :
    ((s.collects l c).link l).rescan = (s.link l).rescan := by rw [State.link_collects]

theorem State.heard_collects (s : State) (l : Link) (c : List Byte) : (s.collects l c).heard l = s.heard l := by
  rw [State.heard, State.link_collects, State.collects, State.setLink_setLink]
  rfl

theorem State.collects_collects (s : State) (l : Link) (c d : List Byte) : (s.collects l c).collects l d = s.collects l d := by
  rw [State.collects, State.link_collects, State.collects, State.setLink_setLink]
  rfl

section
variable {s : State} {l : Link} (hhigh : (s.link l).high = true) (hscan : (s.link l).rescan = [])
include hhigh

/-- A byte that sends nothing back to be examined again is the receiver's own affair. -/
theorem State.lineByte_of_takeByte {b : Byte} (h : ((s.takeByte l b).link l).rescan = []) : s.lineByte l b = s.takeByte l b := by
  rw [State.lineByte, if_pos hhigh, State.rescanAll_of_nothing h]

include hscan

theorem State.lineByte_opens (hhunt : (s.link l).collecting = false) : s.lineByte l 0x9C#8 = s.collects l [] := by
  have htake : s.takeByte l 0x9C#8 = s.collects l [] := by
    simp only [State.takeByte, hhunt, Bool.false_eq_true, if_false, if_true]
    rfl
  rw [State.lineByte_of_takeByte hhigh (by rw [htake, State.link_collects_rescan, hscan]), htake]

theorem State.lineByte_ignored (hhunt : (s.link l).collecting = false) {b : Byte} (hb : b ≠ 0x9C#8) : s.lineByte l b = s := by
  have htake : s.takeByte l b = s := by
    simp only [State.takeByte, hhunt, Bool.false_eq_true, if_false, hb]
  rw [State.lineByte_of_takeByte hhigh (by rw [htake]; exact hscan), htake]

theorem State.lineByte_collects (hcollecting : (s.link l).collecting = true) {b : Byte}
    (hlen : lenOf ((s.link l).collected ++ [b]) ≤ 240)
    (hmore : ((s.link l).collected ++ [b]).length ≠ lenOf ((s.link l).collected ++ [b]) + 3) :
    s.lineByte l b = s.collects l ((s.link l).collected ++ [b]) := by
  have htake : s.takeByte l b = s.collects l ((s.link l).collected ++ [b]) := by
    simp only [State.takeByte, hcollecting, if_true, Nat.not_lt.2 hlen, hmore, if_false]
    rw [State.collects, ← hcollecting]
  rw [State.lineByte_of_takeByte hhigh (by rw [htake, State.link_collects_rescan, hscan]), htake]

/-- The last byte of a telegram agrees with the CRC-8 of those before it. -/
theorem State.lineByte_received (hcollecting : (s.link l).collecting = true) {b : Byte}
    (hlen : lenOf ((s.link l).collected ++ [b]) ≤ 240)
    (hlast : ((s.link l).collected ++ [b]).length = lenOf ((s.link l).collected ++ [b]) + 3)
    (hcheck : crc8 (s.link l).collected = b) : s.lineByte l b =
      (s.heard l).takeTelegram l (((s.link l).collected ++ [b]).getD 1 0) ((s.link l).collected.drop 2) := by
  have htake : s.takeByte l b =
      (s.heard l).takeTelegram l (((s.link l).collected ++ [b]).getD 1 0) ((s.link l).collected.drop 2) := by
    simp only [State.takeByte, hcollecting, if_true, Nat.not_lt.2 hlen, if_false, hlast, State.complete, State.link_setLink_same,
      List.dropLast_concat, List.getLastD_concat, hcheck, State.setLink_setLink]
    rfl
  refine (State.lineByte_of_takeByte hhigh ?_).trans htake
  obtain ⟨-, -, -, hkept⟩ := State.takeTelegram_scanKept (s.heard l) l (((s.link l).collected ++ [b]).getD 1 0)
    ((s.link l).collected.drop 2) l
  rw [htake, hkept, State.link_heard_same]
  exact hscan

end

/-! ## A telegram's bytes -/

theorem runs_append {as bs : List Instr} {s u t : State} (h : runs as s u) (k : runs bs u t) : runs (as ++ bs) s t := by
  induction as generalizing s with
  | nil => exact (h : u = s) ▸ k
  | cons a as ih =>
    obtain ⟨v, hv, hrest⟩ := h
    exact ⟨v, hv, ih hrest⟩

theorem lenOf_append {c : List Byte} (h : c ≠ []) (bs : List Byte) : lenOf (c ++ bs) = lenOf c := by
  cases c with
  | nil => exact absurd rfl h
  | cons b c => rfl

section
variable {s : State} {l : Link} (hhigh : (s.link l).high = true) (hscan : (s.link l).rescan = [])
include hhigh hscan

/-- One more byte of a telegram that it does not complete. -/
theorem State.collects_lineByte {c : List Byte} {b : Byte} (hlen : lenOf (c ++ [b]) ≤ 240) (hmore : c.length < lenOf (c ++ [b]) + 2) :
    (s.collects l c).lineByte l b = s.collects l (c ++ [b]) := by
  rw [State.lineByte_collects (s := s.collects l c) (by rwa [State.link_collects_high]) (by rwa [State.link_collects_rescan])
    (s.link_collects_collecting l c) (by rwa [State.link_collects_collected]), State.link_collects_collected,
    State.collects_collects]
  rw [State.link_collects_collected, List.length_append, List.length_singleton]
  omega

/-- Bytes that do not complete a telegram are collected one after the other. -/
theorem runs_collects {c : List Byte} (hc : c ≠ []) (hlen : lenOf c ≤ 240) (bs : List Byte)
    (hmore : c.length + bs.length < lenOf c + 3) :
    runs (bs.map (Instr.linkByte l)) (s.collects l c) (s.collects l (c ++ bs)) := by
  induction bs generalizing c with
  | nil => rw [List.append_nil]; rfl
  | cons b bs ih =>
    rw [List.length_cons] at hmore
    have hlenOf : lenOf (c ++ [b]) = lenOf c := lenOf_append hc [b]
    have hbyte : (s.collects l c).lineByte l b = s.collects l (c ++ [b]) :=
      State.collects_lineByte hhigh hscan (by rwa [hlenOf]) (by omega)
    refine ⟨_, congrArg Host.Outcome.next hbyte, ?_⟩
    rw [List.append_cons c b bs]
    exact ih (c := c ++ [b]) (by simp) (by rwa [hlenOf]) (by rw [hlenOf, List.length_append, List.length_singleton]; omega)

/-- LEN, KIND and payload are collected behind the 9Ch that opens the telegram. -/
theorem runs_frame_head (hhunt : (s.link l).collecting = false) {len kind : Byte} {pay : List Byte} (hlen : len.toNat ≤ 240)
    (hpay : len.toNat = pay.length) :
    runs ((0x9C#8 :: len :: kind :: pay).map (Instr.linkByte l)) s (s.collects l (len :: kind :: pay)) := by
  have hlenOf : lenOf [len] = pay.length := hpay
  have hlenByte : (s.collects l []).lineByte l len = s.collects l [len] :=
    State.collects_lineByte hhigh hscan hlen (Nat.succ_pos _)
  refine ⟨_, congrArg Host.Outcome.next (State.lineByte_opens hhigh hscan hhunt), _, congrArg Host.Outcome.next hlenByte, ?_⟩
  refine runs_collects hhigh hscan (c := [len]) (by simp) hlen (kind :: pay) ?_
  rw [hlenOf, List.length_singleton, List.length_cons]
  omega

end

/-- Settles O16: the head of the telegram is collected, and its CHECK agrees. -/
theorem telegramBytesAreTakenAsTheTelegram : Obligations.TelegramBytesAreTakenAsTheTelegram := by
  intro s l kind pay hpay hhigh hhunt hscan
  let head : List Byte := byte pay.length :: kind :: pay
  have hlen : (byte pay.length).toNat = pay.length := byte_toNat (by omega)
  have hlenOf : lenOf (head ++ [crc8 head]) = pay.length := hlen
  have hcheck : (s.collects l head).lineByte l (crc8 head) = s.telegram l kind pay := by
    rw [State.lineByte_received (s := s.collects l head) (by rwa [State.link_collects_high])
      (by rwa [State.link_collects_rescan]) (s.link_collects_collecting l head)
      (by rwa [State.link_collects_collected, hlenOf]) (by rw [State.link_collects_collected, hlenOf]; simp [head])
      (by rw [State.link_collects_collected]), State.link_collects_collected, State.heard_collects, State.telegram_heard hhigh]
    rfl
  have hlast : runs ([crc8 head].map (Instr.linkByte l)) (s.collects l head) (s.telegram l kind pay) :=
    ⟨_, congrArg Host.Outcome.next hcheck, rfl⟩
  have hruns := runs_append (runs_frame_head hhigh hscan hhunt (kind := kind) (hlen.trans_le hpay) hlen) hlast
  rwa [← List.map_append] at hruns

end Sys2Proof.Machine
end

section
/-! PROOFS. SUBSCRIBE and READ_STATUS (R159, R162, R188, R190): the mask that a byte names, and the snapshot of 11.5 block by
block. -/

namespace Sys2Proof.Machine

/-! ## SUBSCRIBE -/

/-- The mask's byte has the mask's groups for its bits (R159). -/
theorem maskByte_parseMask {b : Byte} (h : b.toNat < 128) : maskByte (parseMask [b]) = b := by
  refine BitVec.eq_of_getLsbD_eq fun i hi => ?_
  rw [maskByte, byte, BitVec.getLsbD_ofNat, bits_testBit, decide_eq_true hi, Bool.true_and]
  match i, hi with
  | 0, _ | 1, _ | 2, _ | 3, _ | 4, _ | 5, _ | 6, _ => rfl
  | 7, _ => exact (Nat.testBit_lt_two_pow (x := b.toNat) (i := 7) h).symm

theorem ReqKind.fits_subscribe (b : Byte) : ReqKind.fits .subscribe [b] = decide (b.toNat < 128) := rfl

theorem State.takes_fits {s : State} {l : Link} {k : ReqKind} {p : List Byte} (h : s.takes l k p = true) : k.fits p = true := by
  simp only [State.takes, Bool.and_eq_true] at h
  exact h.1.2

theorem State.reqSubscribe_eq (s : State) (l : Link) {b : Byte} (h : b.toNat < 128) : (s.heard l).reqSubscribe l [b] =
    (s.answered l .subscribe .done [b]).setLink l
      { (s.answered l .subscribe .done [b]).link l with mask := parseMask [b] } := by
  rw [State.reqSubscribe, maskByte_parseMask h, State.heard_answer]

/-! ## The snapshot, block by block (11.5) -/

/-- The snapshot is its blocks in order, with each port's share of a block written out. -/
theorem State.snapshot_eq (s : State) : s.snapshot =
    [flag s.ready] ++ be32 (s.micros / 1000 % 4294967296) ++ statusTempo s.te
      ++ (statusBus s.ck.buses.band ++ statusBus s.ck.buses.keys)
      ++ (statusIn s.ip.in0 ++ statusIn s.ip.in1 ++ statusIn s.ip.in2 ++ statusIn s.ip.in3 ++ statusIn s.ip.in4
        ++ statusIn s.ip.in5)
      ++ (statusOut s.op.out0 ++ statusOut s.op.out1 ++ statusOut s.op.out2 ++ statusOut s.op.out3)
      ++ statusRouter s.lr ++ statusSequencer s.cs
      ++ (statusLink s.sl.s0 s.now ++ statusLink s.sl.s1 s.now ++ statusLink s.sl.s2 s.now ++ statusLink s.sl.s3 s.now)
      ++ statusWatch s.sw ++ [byte s.st.status.code, byte s.st.op.code] ++ statusFaults s.fl := by
  have hins : allIns.flatMap (fun i => statusIn (s.midiIn i)) =
      statusIn s.ip.in0 ++ statusIn s.ip.in1 ++ statusIn s.ip.in2 ++ statusIn s.ip.in3 ++ statusIn s.ip.in4
        ++ statusIn s.ip.in5 := by
    simp only [List.append_assoc]
    rfl
  have houts : allOuts.flatMap (fun o => statusOut (s.midiOut o)) =
      statusOut s.op.out0 ++ statusOut s.op.out1 ++ statusOut s.op.out2 ++ statusOut s.op.out3 := by
    simp only [List.append_assoc]
    rfl
  have hlinks : allLinks.flatMap (fun l => statusLink (s.link l) s.now) =
      statusLink s.sl.s0 s.now ++ statusLink s.sl.s1 s.now ++ statusLink s.sl.s2 s.now ++ statusLink s.sl.s3 s.now := by
    simp only [List.append_assoc]
    rfl
  rw [State.snapshot, hins, houts, hlinks, ← List.append_assoc (_ ++ _) (statusBus _) (statusBus _)]
  rfl

theorem statusRouter_length (r : LayerRouter) : (statusRouter r).length = 17 := by
  unfold statusRouter originBytes
  split <;> rfl

theorem statusSequencer_length (c : CueSeq) : (statusSequencer c).length = 16 := by
  unfold statusSequencer triggerBytes
  split
  · split <;> rfl
  · rfl

/-- The blocks of 5, 18, 14, 48, 16, 17, 16, 24, 8, 2 and 3 bytes. -/
theorem State.snapshot_length (s : State) : s.snapshot.length = 171 := by
  have htempo : (statusTempo s.te).length = 18 := rfl
  have hbus : ∀ x, (statusBus x).length = 7 := fun _ => rfl
  have hin : ∀ x, (statusIn x).length = 8 := fun _ => rfl
  have hout : ∀ x, (statusOut x).length = 4 := fun _ => rfl
  have hlink : ∀ x, (statusLink x s.now).length = 6 := fun _ => rfl
  have hwatch : (statusWatch s.sw).length = 8 := rfl
  have hfaults : (statusFaults s.fl).length = 3 := rfl
  have hmillis : (be32 (s.micros / 1000 % 4294967296)).length = 4 := rfl
  simp only [State.snapshot_eq, List.length_append, htempo, hbus, hin, hout, hlink, hwatch, hfaults, hmillis,
    statusRouter_length, statusSequencer_length, List.length_cons, List.length_nil]

theorem bits_cons (b : Bool) (bs : List Bool) : bits (b :: bs) = b.toNat + 2 * bits bs := rfl

theorem bits_nil : bits [] = 0 := rfl

/-- A mask's byte weighs its groups (R159). -/
theorem maskByte_eq (m : Mask) : maskByte m = byte (m.beat.toNat + 2 * m.tempo.toNat + 4 * m.transport.toNat
    + 8 * m.scene.toNat + 16 * m.cue.toNat + 32 * m.fault.toNat + 64 * m.active.toNat) := by
  refine congrArg byte ?_
  simp only [bits_cons, bits_nil]
  omega

theorem statusOut_eq (x : MidiOut) : statusOut x =
    [byte (x.settings.enabled.toNat + 2 * x.settings.running.toNat + 4 * x.settings.clock.toNat), byte x.mode.code,
      byte x.queue.length, byte x.sounding] := by
  have hbits : bits [x.settings.enabled, x.settings.running, x.settings.clock] =
      x.settings.enabled.toNat + 2 * x.settings.running.toNat + 4 * x.settings.clock.toNat := by
    simp only [bits_cons, bits_nil]
    omega
  rw [statusOut, hbits]
  rfl

theorem msLeft_eq (now e : Stamp) : msLeft now e = if (now - e).toNat < 2147483648 then 0 else (e - now).toNat / 1000 := by
  simp only [msLeft, stampReached, decide_eq_true_eq]

theorem countP_held (held : List HeldEntry) :
    held.countP (fun e => !e.state.isSustained) = held.countP (fun e => decide (e.state = .held)) :=
  List.countP_congr fun e _ => by cases e.state <;> simp [HeldState.isSustained]

theorem countP_sustained (held : List HeldEntry) :
    held.countP (fun e => e.state.isSustained) = held.countP (fun e => decide (e.state ≠ .held)) :=
  List.countP_congr fun e _ => by cases e.state <;> simp [HeldState.isSustained]

theorem countP_deadline (slots : List Slot) :
    slots.countP (fun q => q.deadline.isSome) = slots.countP (fun q => decide (q.deadline ≠ none)) :=
  List.countP_congr fun q _ => by cases q.deadline <;> simp

theorem append_congr {a b c d : List Byte} (h : a = c) (k : b = d) : a ++ b = c ++ d := h ▸ k ▸ rfl

/-- Settles O44: the mask that the byte names, the snapshot that the answer carries, and the snapshot block by block. -/
theorem subscribeAndReadStatusAct : Obligations.SubscribeAndReadStatusAct := by
  intro s l
  refine ⟨fun b ht => ?_, fun b h hb => ?_, fun ht => ?_, s.snapshot_length, ?_, fun b => rfl, rfl, rfl, rfl, rfl, rfl, rfl,
    rfl, rfl, rfl, rfl⟩
  · intro m u
    have hfits : b.toNat < 128 := of_decide_eq_true (State.takes_fits ht)
    rw [exec_of_takes (i := .subscribe l [b]) rfl ht]
    exact congrArg _ (s.reqSubscribe_eq l hfits)
  · have hfits : ReqKind.fits .subscribe [b] = false := decide_eq_false (Nat.not_lt.2 hb)
    rw [exec_of_asRequest (i := .subscribe l [b]) rfl, State.request_ready h rfl (.inr (.inr rfl)), if_pos hfits]
  · rw [exec_of_takes (i := .readStatus l []) rfl ht]
    exact congrArg _ (s.heard_answer l .readStatus .done _)
  · intro te lr cs sw bus input output link origin trigger
    have hin : ∀ x, statusIn x = input x := fun x => by
      simp only [statusIn, input]
      cases x.settings.filter <;> rfl
    have hlink : ∀ x, statusLink x s.now = link x := fun x => by
      simp only [statusLink, link, maskByte_eq, ← msLeft_eq]
      cases x.hold <;> rfl
    rw [s.snapshot_eq]
    simp only [hin, statusOut_eq, hlink]
    refine append_congr (append_congr (append_congr (append_congr (append_congr (append_congr (append_congr (append_congr
      (append_congr (append_congr rfl ?tempo) rfl) rfl) rfl) ?router) ?sequencer) rfl) rfl) ?store) rfl
    case tempo =>
      simp only [statusTempo, te]
      cases s.te.ramp <;> rfl
    case router =>
      have horigin : originBytes (lr.staged.map Staging.origin) = origin := by
        simp only [origin]
        cases lr.staged.map Staging.origin with
        | none => rfl
        | some o => cases o <;> rfl
      simp only [← countP_held, ← countP_sustained, ← countP_deadline, ← horigin]
      rfl
    case sequencer =>
      have htrigger : (cs.current.elim [0, 0, 0, 0] (fun x => triggerBytes x.record.trigger)) = trigger := by
        simp only [trigger]
        cases cs.current with
        | none => rfl
        | some x => rw [Option.elim_some, Option.map_some]; cases x.record.trigger <;> rfl
      rw [← htrigger, statusSequencer]
      cases s.cs.current <;> rfl
    case store => cases s.st.op <;> rfl

end Sys2Proof.Machine
end

section
/-! PROOFS. Resyncs and mirroring (R154, R169 to R174): ALL_OFF, the walk over the pending entries, JOINED, and the offer of an
EVENT to the stations that hear it. -/

namespace Sys2Proof.Machine

/-! ## ALL_OFF (R171) -/

/-- A connected link has room for a notice. -/
def LinkState.roomy (x : LinkState) : Bool := x.high && decide (16 ≤ x.free)

theorem State.resyncAllOff_eq_ite (s : State) (x : Station) : s.resyncAllOff x =
    if (s.station x).state = .joining ∧ (s.station x).phase = .clearing ∧ (s.link x.link).roomy = true then
      (s.post x.link (.notice .allOff)).setStation x { s.station x with phase := .replaying }
    else s := by
  simp only [State.resyncAllOff, State.allOffReady, Bool.and_eq_true, decide_eq_true_eq, and_assoc, LinkState.roomy]
  rfl

/-! ## The walk (R172) -/

/-- What the entry at the cursor waits for: a connected link that is not held, with 15 places and one for each note. -/
def LinkState.takesNotes (x : LinkState) (notes : List Target) : Bool :=
  notes.isEmpty || (x.high && decide (x.hold = none) && decide (15 + notes.length ≤ x.free))

theorem State.resyncReplay_elsewhere {s : State} {x : Station}
    (h : (s.station x).state ≠ .joining ∨ (s.station x).phase ≠ .replaying) : s.resyncReplay x = s := by
  refine if_neg fun hready => ?_
  simp only [State.replayReady, Bool.and_eq_true, decide_eq_true_eq] at hready
  exact h.elim (fun hs => hs hready.1.1) (fun hp => hp hready.1.2)

theorem State.cursor_none {s : State} {x : Station} (h : ∀ e ∈ s.lr.held, e.pend.get x = false) : s.cursor x = none :=
  List.find?_eq_none.2 fun e he => by rw [h e he]; decide

theorem State.resyncReplay_done {s : State} {x : Station} (h : ∀ e ∈ s.lr.held, e.pend.get x = false) : s.resyncReplay x = s := by
  refine if_neg fun hready => ?_
  simp only [State.replayReady, State.cursor_none h, Bool.and_false] at hready
  cases hready

/-- Only the entry at the cursor leaves the set. -/
theorem unmarkFirst_hit {x : Station} {before after : List HeldEntry} {e : HeldEntry} (hb : ∀ d ∈ before, d.pend.get x = false)
    (he : e.pend.get x = true) :
    unmarkFirst x (before ++ e :: after) = before ++ { e with pend := e.pend.set x false } :: after := by
  induction before with
  | nil => rw [List.nil_append, unmarkFirst, he, if_pos rfl, List.nil_append]
  | cons d before ih =>
    rw [List.cons_append, unmarkFirst, hb d List.mem_cons_self, if_neg (by decide),
      ih fun f hf => hb f (List.mem_cons_of_mem d hf), List.cons_append]

/-- The replay note-ons of some targets, posted in order. -/
def State.replays (s : State) (x : Station) (notes : List Target) : State :=
  notes.foldl (fun s t => s.post x.link (.notice (.event t.replayOn))) s

theorem State.replays_linksOnly (s : State) (x : Station) (notes : List Target) : LinksOnly s (s.replays x notes) :=
  State.postEach_linksOnly x.link (fun t => .event t.replayOn) notes s

/-- Each note joins the line in its turn; the other links and the Fault Log stay. -/
theorem State.replays_lines (x : Station) : ∀ (notes : List Target) (s : State),
    ((s.replays x notes).link x.link).line = (s.link x.link).line ++ notes.map (fun t => .notice (.event t.replayOn)) ∧
    (∀ j, j ≠ x.link → (s.replays x notes).link j = s.link j) ∧ (s.replays x notes).fl = s.fl
  | [], s => ⟨by rw [List.map_nil, List.append_nil]; rfl, fun _ _ => rfl, rfl⟩
  | t :: notes, s => by
    obtain ⟨hown, hother, hlog⟩ := State.replays_lines x notes (s.post x.link (.notice (.event t.replayOn)))
    refine ⟨hown.trans ?_, fun j hj => (hother j hj).trans (s.link_setLink_of_ne _ hj), hlog⟩
    rw [State.post, State.link_setLink_same, LinkState.admitTelegram_line, List.append_assoc]
    rfl

section
variable {s : State} {x : Station} {before after : List HeldEntry} {e : HeldEntry}
  (hs : (s.station x).state = .joining) (hp : (s.station x).phase = .replaying) (hheld : s.lr.held = before ++ e :: after)
  (hb : ∀ d ∈ before, d.pend.get x = false) (he : e.pend.get x = true)
include hs hp hheld hb he

/-- The entry at the cursor is replayed when its notes can be taken, and the walk waits otherwise (R172). -/
theorem State.resyncReplay_at_cursor : s.resyncReplay x =
    if (s.link x.link).takesNotes e.soundTargets = true then
      { s.replays x e.soundTargets with
        lr := { s.lr with held := before ++ { e with pend := e.pend.set x false } :: after } }
    else s := by
  have hcursor : s.cursor x = some e := by
    rw [State.cursor, hheld]
    exact find_hit hb he
  have hready : s.replayReady x = (s.link x.link).takesNotes e.soundTargets := by
    simp only [State.replayReady, hs, hp, hcursor, decide_true, Bool.true_and, LinkState.takesNotes]
    cases e.soundTargets <;> rfl
  rw [State.resyncReplay, hready, hcursor]
  refine if_congr Iff.rfl ?_ rfl
  have hlr : (s.replays x e.soundTargets).lr = s.lr := (s.replays_linksOnly x _).lr
  show { s.replays x e.soundTargets with lr := { (s.replays x e.soundTargets).lr with
    held := unmarkFirst x (s.replays x e.soundTargets).lr.held } } = _
  rw [hlr, hheld, unmarkFirst_hit hb he]

end

/-! ## JOINED (R173) -/

theorem State.resyncJoined_elsewhere {s : State} {x : Station}
    (h : (s.station x).state ≠ .joining ∨ (s.station x).phase ≠ .replaying) : s.resyncJoined x = s := by
  refine if_neg fun hready => ?_
  simp only [State.joinedReady, Bool.and_eq_true, decide_eq_true_eq] at hready
  obtain ⟨⟨⟨⟨hstate, hphase⟩, -⟩, -⟩, -⟩ := hready
  exact h.elim (fun hs => hs hstate) (fun hp => hp hphase)

theorem State.resyncJoined_waits {s : State} {x : Station}
    (h : (∃ e ∈ s.lr.held, e.pend.get x = true) ∨ (s.link x.link).roomy = false) : s.resyncJoined x = s := by
  refine if_neg fun hready => ?_
  simp only [State.joinedReady, Bool.and_eq_true, decide_eq_true_eq] at hready
  obtain ⟨⟨⟨-, hcursor⟩, hhigh⟩, hroom⟩ := hready
  rcases h with ⟨e, hmem, hpend⟩ | hfull
  · rw [State.cursor, Option.isNone_iff_eq_none, List.find?_eq_none] at hcursor
    exact hcursor e hmem hpend
  · rw [LinkState.roomy, hhigh, Bool.true_and, decide_eq_false_iff_not] at hfull
    exact hfull hroom

/-- With nothing pending and room for JOINED the station is UP, and the active station is reviewed (R173, R174). -/
theorem State.resyncJoined_joins {s : State} {x : Station} (hs : (s.station x).state = .joining)
    (hp : (s.station x).phase = .replaying) (hdone : ∀ e ∈ s.lr.held, e.pend.get x = false)
    (hroom : (s.link x.link).roomy = true) : s.resyncJoined x =
      ((s.post x.link (.notice .joined)).setStation x { s.station x with state := .up, phase := .none }).joinsAir x := by
  have hready : s.joinedReady x = true := by
    rw [LinkState.roomy, Bool.and_eq_true, decide_eq_true_iff] at hroom
    simp only [State.joinedReady, hs, hp, State.cursor_none hdone, Option.isNone_none, hroom.1, decide_true, Bool.and_self,
      Bool.true_and]
    exact decide_eq_true hroom.2
  have hstation : (s.post x.link (.notice .joined)).station x = s.station x := s.station_setLink _ _ x
  rw [State.resyncJoined, if_pos hready, State.changeStation_eq]
  simp only [State.moved, hstation, hs, true_or, if_true]

/-! ## Mirroring (R169, R170) -/

theorem State.hears_eq (s : State) (y : Station) : s.hears y =
    decide ((s.station y).state = .up ∨ (s.station y).state = .suspect ∨ (s.station y).state = .joining) := by
  unfold State.hears
  cases (s.station y).state <;> rfl

/-- A refused EVENT sends a station on the air, or one whose walk has begun, to resync (R170). -/
theorem State.refused_resyncs (s : State) (y : Station) : s.refused y =
    if (s.station y).state = .up ∨ (s.station y).state = .suspect
        ∨ ((s.station y).state = .joining ∧ (s.station y).phase = .replaying) then
      (s.moved y .joining).report .overflow (some (.link y.link))
    else s := by
  have hchange : s.changeStation y .joining (some .overflow) = (s.moved y .joining).report .overflow (some (.link y.link)) :=
    s.changeStation_eq y .joining (some .overflow)
  rw [← hchange, State.refused]
  cases (s.station y).state with
  | up | suspect | down | absent => rfl
  | joining => cases (s.station y).phase <;> rfl

theorem State.refusesEvent_eq (s : State) (y : Station) : s.refusesEvent y =
    ((s.link y.link).high && (decide ((s.station y).phase = .clearing) || decide ((s.link y.link).free < 16))) := by
  rw [State.refusesEvent, Bool.or_comm]
  rfl

/-- An EVENT offered to one station, where it is wanted. -/
def State.offeredEvent (s : State) (y : Station) (e : Event) (want : Bool) : State × Bool :=
  if want then s.offerEvent y e else (s, false)

theorem State.offeredEvent_eq (s : State) (y : Station) (e : Event) (want : Bool) : s.offeredEvent y e want =
    if want = false then (s, false)
    else if s.refusesEvent y = true then (s.refused y, true)
    else (if want = true ∧ (s.link y.link).high = true then s.post y.link (.notice (.event e)) else s, false) := by
  cases want with
  | false => rfl
  | true =>
    simp only [State.offeredEvent, State.offerEvent, Bool.true_eq_false, if_false, if_true, true_and]
    split
    · rfl
    · split <;> rfl

theorem State.admitEvent_eq (s : State) (y : Station) (e : Event) (want : Bool) : s.admitEvent y e want =
    if want = true ∧ (s.link y.link).high = true then s.post y.link (.notice (.event e)) else s := by
  simp only [State.admitEvent, Bool.and_eq_true]

/-- Where no wanted station refuses, each takes the EVENT; the order shows nowhere (R169). -/
theorem State.mirror_taken {s : State} {want : PerStation Bool} (h : ∀ y, want.get y = true → s.refusesEvent y = false)
    (e : Event) : s.mirror want e = ((s.admitEvent .a e want.a).admitEvent .b e want.b, ⟨false, false⟩) := by
  have hnone : ∀ y, (want.get y && s.refusesEvent y) = false := fun y => by
    cases hy : want.get y with
    | false => rfl
    | true => rw [h y hy]; rfl
  have ha : (want.a && s.refusesEvent .a) = false := hnone .a
  have hb : (want.b && s.refusesEvent .b) = false := hnone .b
  rw [State.mirror, ha, hb]
  rfl

/-- Where a wanted station refuses, the offers follow one another in a free order (R169, notes/assumptions/4.md). -/
theorem State.mirror_refused {s : State} {want : PerStation Bool} {y : Station} (hy : want.get y = true)
    (hr : s.refusesEvent y = true) (e : Event) : s.mirror want e =
      if Config.aFirst s.choices then
        let a := s.choose.offeredEvent .a e want.a
        let b := a.1.offeredEvent .b e want.b
        (b.1, ⟨a.2, b.2⟩)
      else
        let b := s.choose.offeredEvent .b e want.b
        let a := b.1.offeredEvent .a e want.a
        (a.1, ⟨a.2, b.2⟩) := by
  have hsome : ((want.a && s.refusesEvent .a) || (want.b && s.refusesEvent .b)) = true := by
    cases y with
    | a =>
      have ha : want.a = true := hy
      rw [ha, hr]; rfl
    | b =>
      have hb : want.b = true := hy
      rw [hb, hr]; exact Bool.or_true _
  rw [State.mirror, if_pos hsome]
  rfl

/-- What the entry at the cursor comes to, with the notes that it gives back (R172). -/
theorem State.replayed_noticesOnly (s : State) (x : Station) (notes : List Target) (held : List HeldEntry) :
    NoticesOnly { s with lr := { s.lr with held := held } }
      { s.replays x notes with lr := { s.lr with held := held } } := by
  have h := s.replays_linksOnly x notes
  exact ⟨h.link, h.modes, h.te, h.ck, h.ip, h.op, rfl, h.cs, h.watch, h.st, h.ready, h.micros, h.cause, h.choices, h.pending⟩

/-- Settles O55: the three steps of a resync by the station's phase, and an EVENT by what each station's offer comes to. -/
theorem resyncGivesBackTheHeldNotes : Obligations.ResyncGivesBackTheHeldNotes := by
  intro s x r k room
  refine ⟨congrArg _ (s.resyncAllOff_eq_ite x), fun hs hp before e after hheld hb he => ?cursor, fun h =>
    ⟨congrArg _ (State.resyncReplay_elsewhere h), congrArg _ (State.resyncJoined_elsewhere h)⟩,
    fun h => congrArg _ (State.resyncReplay_done h), fun hs hp => ⟨fun h => congrArg _ (State.resyncJoined_waits h),
      fun y hdone hroom ha hy => ?served, fun hdone hroom ha => ?first, fun hdone hroom =>
        congrArg _ (State.resyncJoined_joins hs hp hdone hroom)⟩, fun want pend e => ?mirror⟩
  case cursor =>
    intro notes ready
    have hreplay := State.resyncReplay_at_cursor hs hp hheld hb he
    have hnot : ready = false → ¬k.takesNotes e.soundTargets = true := fun hwait hready => Bool.false_ne_true (hwait.symm.trans hready)
    exact ⟨fun hwait => congrArg Host.Outcome.next (hreplay.trans (if_neg (hnot hwait))), fun hready =>
      ⟨_, congrArg Host.Outcome.next (hreplay.trans (if_pos hready)), s.replayed_noticesOnly x notes _, State.replays_lines x notes s⟩⟩
  case served =>
    refine congrArg _ ((State.resyncJoined_joins hs hp hdone hroom).trans (State.joinsAir_of_served (y := y) ha ?_))
    by_cases hyx : y = x
    · exact .inl hyx
    · rw [State.station_setStation_of_ne _ _ hyx]
      exact .inr (hy.resolve_left hyx)
  case first =>
    intro u v
    have hactive : u.sw.active = none := ha
    refine congrArg _ ((State.resyncJoined_joins hs hp hdone hroom).trans ?_)
    show u.joinsAir x = _
    rw [State.joinsAir, hactive]
    rfl
  case mirror =>
    intro refuses taken offered hears
    have hrefuses : ∀ v y, refuses v y = v.refusesEvent y := fun v y => (v.refusesEvent_eq y).symm
    have htaken : ∀ v y, taken v y = v.admitEvent y e (want.get y) := fun v y => (v.admitEvent_eq y e (want.get y)).symm
    have hoffered : ∀ v y, offered v y = v.offeredEvent y e (want.get y) := fun v y => by
      rw [State.offeredEvent_eq, ← hrefuses, State.refused_resyncs]
    have hhears : ∀ y, hears y = s.hears y := fun y => (s.hears_eq y).symm
    refine ⟨fun h => ?_, fun y hy hr => ?_, ?_, ?_⟩
    · rw [htaken, htaken]
      exact State.mirror_taken (fun y hy => (hrefuses s y).symm.trans (h y hy)) e
    · simp only [hoffered]
      exact State.mirror_refused hy ((hrefuses s y).symm.trans hr) e
    · rw [hhears, hhears]
      rfl
    · rw [hhears, hhears]
      rfl

end Sys2Proof.Machine
end

section
/-! PROOFS. The first field out of range (R149, R189): each parse of a payload fails at the first of its checks that fails, with
that check's offset and place. -/

namespace Sys2Proof.Machine

/-! ## A parse and its checks -/

/-- The first field out of range among some checks. -/
def firstBad (cs : List FieldCheck) : Option BadField :=
  (cs.find? (fun c => !c.ok)).map (fun c => ⟨c.offset, c.place⟩)

/-- The field that a parse finds out of range. -/
def badOf {α : Type} : Parse α → Option BadField
  | .ok _ => none
  | .error e => some e

/-- A parse fails exactly where the first of its checks fails. -/
def CheckedBy {α : Type} (x : Parse α) (cs : List FieldCheck) : Prop := badOf x = firstBad cs

theorem firstBad_append (as bs : List FieldCheck) : firstBad (as ++ bs) = (firstBad as).or (firstBad bs) := by
  rw [firstBad, List.find?_append, firstBad, firstBad]
  cases as.find? (fun c => !c.ok) <;> rfl

theorem firstBad_cons (c : FieldCheck) (cs : List FieldCheck) :
    firstBad (c :: cs) = if c.ok then firstBad cs else some ⟨c.offset, c.place⟩ := by
  rw [firstBad, List.find?_cons]
  cases c.ok <;> rfl

section
variable {α β : Type}

theorem CheckedBy.pure (a : α) : CheckedBy (.ok a) [] := rfl

theorem CheckedBy.bind {x : Parse α} {f : α → Parse β} {cs ds : List FieldCheck} (hx : CheckedBy x cs)
    (hf : ∀ a, x = .ok a → CheckedBy (f a) ds) : CheckedBy (x >>= f) (cs ++ ds) := by
  rw [CheckedBy, firstBad_append, ← hx]
  cases x with
  | ok a => exact hf a rfl
  | error e => rfl

/-- One check, then the rest. -/
theorem CheckedBy.cons {x : Parse α} {f : α → Parse β} {c : FieldCheck} {ds : List FieldCheck} (hx : CheckedBy x [c])
    (hf : ∀ a, x = .ok a → CheckedBy (f a) ds) : CheckedBy (x >>= f) (c :: ds) := hx.bind hf

/-- A result worked out from what a parse has found fails where the parse does. -/
theorem CheckedBy.last {x : Parse α} {f : α → β} {cs : List FieldCheck} (hx : CheckedBy x cs) :
    CheckedBy (x >>= fun a => .ok (f a)) cs := by
  have h := hx.bind (f := fun a => .ok (f a)) (ds := []) fun a _ => rfl
  rwa [List.append_nil] at h

theorem CheckedBy.passed {x : Parse α} {c : FieldCheck} {cs : List FieldCheck} (hc : c.ok = true) (hx : CheckedBy x cs) :
    CheckedBy x (c :: cs) := by rwa [CheckedBy, firstBad_cons, if_pos hc]

theorem CheckedBy.failed {c : FieldCheck} (hc : c.ok = false) (cs : List FieldCheck) :
    CheckedBy (.error ⟨c.offset, c.place⟩ : Parse α) (c :: cs) := by
  rw [CheckedBy, firstBad_cons, hc]
  rfl

theorem field_checked (v : Option α) (o : Nat) (k : Option Nat) : CheckedBy (field v o k) [⟨o, k, v.isSome⟩] := by
  cases v <;> rfl

theorem field_checkedBy {v : Option α} {b : Bool} (h : v.isSome = b) (o : Nat) (k : Option Nat) :
    CheckedBy (field v o k) [⟨o, k, b⟩] := h ▸ field_checked v o k

end

theorem isSome_ite {α : Type} (p : Prop) [Decidable p] (a : α) : (if p then some a else none).isSome = decide p := by
  by_cases h : p <;> simp [h]

theorem within_checked (lo hi n o : Nat) (k : Option Nat) : CheckedBy (within lo hi n o k) [⟨o, k, decide (lo ≤ n ∧ n ≤ hi)⟩] :=
  field_checkedBy (isSome_ite _ _) o k

theorem byteIn_checked (p : List Byte) (lo hi o : Nat) (k : Option Nat) :
    CheckedBy (within lo hi (byteAt p o) o k) [byteIn p lo hi o k] := within_checked lo hi _ o k

theorem wordIn_checked (p : List Byte) (lo hi o : Nat) :
    CheckedBy (within lo hi (wordAt p o) o) [wordIn p lo hi o] := within_checked lo hi _ o none

theorem within_eq_value {lo hi n o m : Nat} {k : Option Nat} (h : within lo hi n o k = .ok m) : m = n := by
  have hv := field_eq_ok h
  split at hv
  · exact (Option.some.inj hv).symm
  · exact nomatch hv

/-! ## Lists of items -/

theorem parseMany_checked {α : Type} {f : Nat → Parse α} {cs : Nat → List FieldCheck} (h : ∀ i, CheckedBy (f i) (cs i)) :
    ∀ n k : Nat, CheckedBy (parseMany f n k) ((List.range n).flatMap (fun i => cs (k + i)))
  | 0, _ => rfl
  | n + 1, k => by
    have hrest := parseMany_checked h n (k + 1)
    simp only [Nat.add_assoc, Nat.add_comm 1] at hrest
    rw [List.range_succ_eq_map, List.flatMap_cons, List.flatMap_map, parseMany]
    exact (h k).bind fun a _ => hrest.last

theorem parseMany_length {α : Type} {f : Nat → Parse α} {n k : Nat} {xs : List α} (h : parseMany f n k = .ok xs) : xs.length = n :=
  (parseMany_ok (ok := fun _ => true) (fun _ _ _ => rfl) n k xs h).1

/-- Items at places from 0 on. -/
theorem items_checked {α : Type} {f : Nat → Parse α} {cs : Nat → List FieldCheck} (h : ∀ i, CheckedBy (f i) (cs i)) (n : Nat) :
    CheckedBy (parseMany f n 0) ((List.range n).flatMap cs) := by
  have hitems := parseMany_checked h n 0
  simpa only [Nat.zero_add] using hitems

/-- Items of one field each. -/
theorem fields_checked {α : Type} {f : Nat → Parse α} {c : Nat → FieldCheck} (h : ∀ i, CheckedBy (f i) [c i]) (n : Nat) :
    CheckedBy (parseMany f n 0) ((List.range n).map c) := by
  rw [List.map_eq_flatMap]
  exact items_checked h n

/-! ## Names (R59) -/

theorem chars_checked (p : List Byte) (o n : Nat) :
    CheckedBy (parseChars p o n) ((List.range n).map (fun k => byteIn p 0x20 0x7E (o + k))) :=
  fields_checked (fun k => field_checkedBy (isSome_ite _ _) (o + k) none) n

theorem name_checked (p : List Byte) (o : Nat) : CheckedBy (parseName p o) (nameChecks p o) :=
  (byteIn_checked p 0 16 o none).cons fun n hn => by
    obtain rfl := within_eq_value hn
    exact chars_checked p (o + 1) _

theorem parseName_length {p : List Byte} {o : Nat} {name : List Byte} (h : parseName p o = .ok name) : name.length = byteAt p o := by
  obtain ⟨n, hn, hchars⟩ := Parse.of_bind h
  rw [parseMany_length hchars, within_eq_value hn]

/-! ## Layers and program entries (R60, R61) -/

theorem isSome_inPortOf (n : Nat) : (inPortOf n).isSome = decide (0 ≤ n ∧ n ≤ 5) := by
  match n with
  | 0 | 1 | 2 | 3 | 4 | 5 => rfl
  | n + 6 => exact (decide_eq_false (by omega)).symm

theorem isSome_outPortOf (n : Nat) : (outPortOf n).isSome = decide (0 ≤ n ∧ n ≤ 3) := by
  match n with
  | 0 | 1 | 2 | 3 => rfl
  | n + 4 => exact (decide_eq_false (by omega)).symm

theorem isSome_destOf (n : Nat) : (destOf n).isSome = decide (0 ≤ n ∧ n ≤ 4) := by
  match n with
  | 0 | 1 | 2 | 3 | 4 => rfl
  | n + 5 => exact (decide_eq_false (by omega)).symm

theorem isSome_busOf (n : Nat) : (busOf n).isSome = decide (0 ≤ n ∧ n ≤ 1) := by
  match n with
  | 0 | 1 => rfl
  | n + 2 => exact (decide_eq_false (by omega)).symm

theorem isSome_chanOf1 (n : Nat) : (chanOf1 n).isSome = decide (1 ≤ n ∧ n ≤ 16) := by
  unfold chanOf1
  split
  · next h => exact (decide_eq_true h).symm
  · next h => exact (decide_eq_false h).symm

theorem isSome_chanOrAny (n : Nat) : (chanOrAny n).isSome = decide (0 ≤ n ∧ n ≤ 16) := by
  unfold chanOrAny
  split
  · next h => rw [h]; rfl
  · next h =>
    rw [Option.isSome_map, isSome_chanOf1]
    exact decide_eq_decide.2 (by omega)

theorem isSome_optUpTo (hi n : Nat) : (optUpTo hi n).isSome = decide (n ≤ hi ∨ n = 255) := by
  unfold optUpTo
  split
  · next h => exact (decide_eq_true (.inr h)).symm
  · next h =>
    rw [isSome_ite]
    exact decide_eq_decide.2 (by omega)

theorem isSome_optWord (n : Nat) :
    (if n = 65535 then some none else if n ≤ 255 then some (some n) else none).isSome = decide (n ≤ 255 ∨ n = 65535) := by
  split
  · next h => exact (decide_eq_true (.inr h)).symm
  · next h =>
    rw [isSome_ite]
    exact decide_eq_decide.2 (by omega)

theorem signedByte_within (p : List Byte) (o : Nat) :
    (-48 ≤ signedByte p o ∧ signedByte p o ≤ 48) ↔ (byteAt p o ≤ 48 ∨ 208 ≤ byteAt p o) := by
  have hbyte : byteAt p o < 256 := (p.getD o 0).isLt
  unfold signedByte
  split <;> omega

theorem curve_checked (p : List Byte) (b k : Nat) : CheckedBy (parseCurve p b k)
    [byteIn p 0 3 b k, ⟨b + 1, k, decide (byteAt p b = 3 → 1 ≤ byteAt p (b + 1) ∧ byteAt p (b + 1) ≤ 127)⟩] := by
  unfold parseCurve
  split
  · next h => exact .passed (by simp [byteIn, h]) (.passed (by simp [h]) (.pure _))
  · next h => exact .passed (by simp [byteIn, h]) (.passed (by simp [h]) (.pure _))
  · next h => exact .passed (by simp [byteIn, h]) (.passed (by simp [h]) (.pure _))
  · next h =>
    refine .passed (by simp [byteIn, h]) ?_
    simp only [h, true_imp_iff]
    exact (within_checked 1 127 _ (b + 1) (some k)).last
  · next h0 h1 h2 h3 => exact .failed (c := byteIn p 0 3 b k) (decide_eq_false (by simp at h0 h1 h2 h3; omega)) _

theorem prog_checked (p : List Byte) (b k : Nat) : CheckedBy (parseProg p b k) (progChecks p b k) :=
  (field_checkedBy (isSome_destOf _) b (some k)).cons fun _ _ =>
  (field_checkedBy (isSome_chanOf1 _) (b + 1) (some k)).cons fun _ _ =>
  (field_checkedBy (isSome_optUpTo 127 _) (b + 2) (some k)).cons fun _ _ =>
  (field_checkedBy (isSome_optUpTo 127 _) (b + 3) (some k)).cons fun _ _ =>
  (byteIn_checked p 0 127 (b + 4) (some k)).last

theorem layer_checked (p : List Byte) (b k : Nat) : CheckedBy (parseLayer p b k) (layerChecks p b k) :=
  (field_checkedBy (isSome_inPortOf _) b (some k)).cons fun _ _ =>
  (field_checkedBy (isSome_chanOrAny _) (b + 1) (some k)).cons fun _ _ =>
  (byteIn_checked p 0 127 (b + 2) (some k)).cons fun low hlow => by
  obtain rfl := within_eq_value hlow
  refine (byteIn_checked p _ 127 (b + 3) (some k)).cons fun _ _ =>
    (byteIn_checked p 1 127 (b + 4) (some k)).cons fun vmin hvmin => ?_
  obtain rfl := within_eq_value hvmin
  exact (byteIn_checked p _ 127 (b + 5) (some k)).cons fun _ _ =>
    (byteIn_checked p 0 32 (b + 6) (some k)).cons fun _ _ =>
    (curve_checked p (b + 7) k).bind fun _ _ =>
    (byteIn_checked p 0 12 (b + 9) (some k)).cons fun _ _ =>
    (field_checkedBy ((isSome_ite _ _).trans (decide_eq_decide.2 (signedByte_within p (b + 10)))) (b + 10) (some k)).cons fun _ _ =>
    (field_checkedBy (isSome_destOf _) (b + 11) (some k)).cons fun _ _ =>
    (field_checkedBy (isSome_chanOf1 _) (b + 12) (some k)).cons fun _ _ =>
    (byteIn_checked p 0 1 (b + 13) (some k)).cons fun _ _ =>
    (byteIn_checked p 0 127 (b + 15) (some k)).cons fun _ _ =>
    (byteIn_checked p 0 127 (b + 16) (some k)).last

/-! ## The eight writes (R27, R28, R49, R56, R62, R119 to R122) -/

/-- The bind of two checked parses whose checks stand one after the other in a longer list. -/
theorem CheckedBy.then {α β : Type} {x : Parse α} {f : α → Parse β} {cs ds es : List FieldCheck} (hes : es = cs ++ ds)
    (hx : CheckedBy x cs) (hf : ∀ a, x = .ok a → CheckedBy (f a) ds) : CheckedBy (x >>= f) es := hes ▸ hx.bind hf

theorem checks_writeScene (p : List Byte) {n c d : Nat} (hn : byteAt p 1 = n) (hc : byteAt p (2 + n) = c)
    (hd : byteAt p (3 + n + 17 * c) = d) :
    ReqKind.checks .writeScene p = byteIn p 0 127 0 :: (nameChecks p 1 ++ byteIn p 0 8 (2 + n)
      :: ((List.range c).flatMap (fun k => layerChecks p (3 + n + 17 * k) k) ++ byteIn p 0 8 (3 + n + 17 * c)
      :: (List.range d).flatMap (fun k => progChecks p (4 + n + 17 * c + 5 * k) k))) := by
  subst hn hc hd
  simp only [ReqKind.checks, List.append_assoc, List.cons_append]

theorem scene_checked (p : List Byte) : CheckedBy (within 0 127 (byteAt p 0) 0 >>= fun _ => parseScene p) (ReqKind.checks .writeScene p) := by
  rw [checks_writeScene p rfl rfl rfl]
  refine (byteIn_checked p 0 127 0 none).cons fun _ _ => (name_checked p 1).bind fun name hname => ?_
  simp only [parseName_length hname]
  refine (byteIn_checked p 0 8 _ none).cons fun lc hlc => ?_
  obtain rfl := within_eq_value hlc
  refine (items_checked (fun k => layer_checked p _ k) _).bind fun _ _ => (byteIn_checked p 0 8 _ none).cons fun pc hpc => ?_
  obtain rfl := within_eq_value hpc
  exact (items_checked (fun k => prog_checked p _ k) _).last

theorem song_checked (p : List Byte) : CheckedBy (within 0 63 (byteAt p 0) 0 >>= fun _ => parseSong p) (ReqKind.checks .writeSong p) := by
  refine (byteIn_checked p 0 63 0 none).cons fun _ _ => (name_checked p 1).bind fun name hname => ?_
  simp only [parseName_length hname]
  exact (field_checkedBy (isSome_optWord _) _ none).cons fun _ _ =>
    (wordIn_checked p 3000 30000 _).cons fun _ _ =>
    (byteIn_checked p 1 16 _ none).cons fun _ _ =>
    (byteIn_checked p 0 4 _ none).cons fun _ _ =>
    (byteIn_checked p 0 15 _ none).cons fun _ _ =>
    (byteIn_checked p 0 15 _ none).last

theorem trigger_checked (p : List Byte) :
    CheckedBy (parseTrigger p) (byteIn p 0 2 1 :: if byteAt p 1 = 0 then [wordIn p 1 9999 2, byteIn p 1 16 4] else []) := by
  unfold parseTrigger
  split
  · next h =>
    rw [if_pos h]
    exact .passed (by simp [byteIn, h]) ((wordIn_checked p 1 9999 2).cons fun _ _ => (byteIn_checked p 1 16 4 none).last)
  · next h => exact .passed (by simp [byteIn, h]) (by rw [h]; exact .pure _)
  · next h => exact .passed (by simp [byteIn, h]) (by rw [h]; exact .pure _)
  · next h0 h1 h2 => exact .failed (c := byteIn p 0 2 1) (decide_eq_false (by simp at h0 h1 h2; omega)) _

theorem action_checked (p : List Byte) : CheckedBy (parseAction p) (byteIn p 0 9 5 :: operandChecks p) := by
  unfold parseAction operandChecks
  split
  · next h => rw [h]; exact .passed (by simp [byteIn, h]) (.pure _)
  · next h => rw [h]; exact .passed (by simp [byteIn, h]) (byteIn_checked p 0 127 9 none).last
  · next h => rw [h]; exact .passed (by simp [byteIn, h]) (wordIn_checked p 3000 30000 9).last
  · next h =>
    rw [h]
    exact .passed (by simp [byteIn, h]) ((wordIn_checked p 3000 30000 9).cons fun _ _ => (byteIn_checked p 1 64 11 none).last)
  · next h => rw [h]; exact .passed (by simp [byteIn, h]) (byteIn_checked p 1 16 9 none).last
  · next h =>
    rw [h]
    exact .passed (by simp [byteIn, h]) ((field_checkedBy (isSome_optUpTo 15 _) 9 none).cons fun _ _ =>
      (field_checkedBy (isSome_optUpTo 15 _) 10 none).last)
  · next h =>
    rw [h]
    refine .passed (by simp [byteIn, h]) ((byteIn_checked p 0 4 9 none).cons fun n hn => ?_)
    obtain rfl := within_eq_value hn
    exact (items_checked (fun k => prog_checked p _ k) _).last
  · next h => rw [h]; exact .passed (by simp [byteIn, h]) (name_checked p 9).last
  · next h => rw [h]; exact .passed (by simp [byteIn, h]) (byteIn_checked p 0 1 9 none).last
  · next h => rw [h]; exact .passed (by simp [byteIn, h]) (.pure _)
  · next h0 h1 h2 h3 h4 h5 h6 h7 h8 h9 =>
    exact .failed (c := byteIn p 0 9 5) (decide_eq_false (by simp at h0 h1 h2 h3 h4 h5 h6 h7 h8 h9; omega)) _

theorem isSome_unlessBoth (a b : Bool) : (if a && b then none else some ()).isSome = !(a && b) := by
  cases a && b <;> rfl

theorem cue_checked (p : List Byte) : CheckedBy (parseCue p) (ReqKind.checks .writeCue p) :=
  .then (List.append_assoc _ _ _) (trigger_checked p) fun _ _ => (action_checked p).bind fun _ _ =>
    (field_checkedBy (isSome_unlessBoth _ _) 6 none).cons fun _ _ => (byteIn_checked p 0 16 7 none).last

theorem setlist_checked (p : List Byte) : CheckedBy (parseSetlist p) (ReqKind.checks .writeSetlist p) :=
  (byteIn_checked p 0 64 0 none).cons fun n hn => by
    obtain rfl := within_eq_value hn
    exact fields_checked (fun k => byteIn_checked p 0 63 (1 + k) (some k)) _

theorem isSome_patClass (n : Nat) :
    (match n with | 0 => some PatClass.accent | 1 => some PatClass.normal | 2 => some PatClass.silent | _ => none).isSome
      = decide (0 ≤ n ∧ n ≤ 2) := by
  match n with
  | 0 | 1 | 2 => rfl
  | n + 3 => exact (decide_eq_false (by omega)).symm

theorem pattern_checked (p : List Byte) : CheckedBy (parsePattern p) (ReqKind.checks .writePattern p) := by
  refine (byteIn_checked p 0 15 0 none).cons fun _ _ => CheckedBy.last (items_checked (fun k => ?_) 16)
  exact (field_checkedBy (isSome_patClass _) (1 + 2 * k) none).cons fun _ _ =>
    (field_checkedBy (isSome_ite _ _) (2 + 2 * k) none).last

/-- A value of SET_CLICK is checked only where its bit says that it is there (R28). -/
theorem clickValue_checked (p : List Byte) (k hi : Nat) :
    CheckedBy (parseClickValue p k hi) [⟨2 + k, none, !bitAt p 1 k || decide (byteAt p (2 + k) ≤ hi)⟩] := by
  unfold parseClickValue
  split
  · next h =>
    simp only [h, Bool.not_true, Bool.false_or]
    have hv := within_checked 0 hi (byteAt p (2 + k)) (2 + k) none
    simp only [Nat.zero_le, true_and] at hv
    exact hv.last
  · next h => exact .passed (by simp [h]) (.pure _)

theorem click_checked (p : List Byte) : CheckedBy (parseClick p) (ReqKind.checks .setClick p) :=
  (field_checkedBy (isSome_busOf _) 0 none).cons fun _ _ =>
  (clickValue_checked p 0 15).cons fun _ _ =>
  (clickValue_checked p 1 12).cons fun _ _ =>
  (clickValue_checked p 2 12).cons fun _ _ =>
  (clickValue_checked p 3 12).cons fun _ _ =>
  (clickValue_checked p 4 12).last

theorem input_checked (p : List Byte) : CheckedBy (parseInput p) (ReqKind.checks .setInput p) :=
  (field_checkedBy (isSome_inPortOf _) 0 none).cons fun _ _ =>
  (field_checkedBy (isSome_chanOrAny _) 2 none).cons fun _ _ =>
  (field_checkedBy (isSome_ite _ _) 3 none).cons fun _ _ =>
  (byteIn_checked p 0 7 4 none).cons fun _ _ =>
  (field_checkedBy (isSome_ite _ _) 5 none).last

theorem output_checked (p : List Byte) : CheckedBy (parseOutput p) (ReqKind.checks .setOutput p) :=
  (field_checkedBy (isSome_outPortOf _) 0 none).last

/-! ## The answer RANGE -/

theorem CheckedBy.error {α : Type} {x : Parse α} {cs : List FieldCheck} {c : FieldCheck} (hx : CheckedBy x cs)
    (hc : cs.find? (fun c => !c.ok) = some c) : x = .error ⟨c.offset, c.place⟩ := by
  have hbad : badOf x = some ⟨c.offset, c.place⟩ := by rw [hx, firstBad, hc, Option.map_some]
  cases x with
  | ok a => exact nomatch hbad
  | error e => rw [Option.some.inj hbad]

/-- The answer RANGE with a check's offset and place (R189). -/
def State.outOfRange (s : State) (l : Link) (k : ReqKind) (c : FieldCheck) : State :=
  s.answered l k .range (be16 c.offset ++ [byte (c.place.getD 255)])

/-- A parse that fails either fails at the first of its two parts or at the second. -/
theorem Parse.bind_error {α β : Type} {x : Parse α} {f : α → Parse β} {e : BadField} (h : x >>= f = .error e) :
    x = .error e ∨ ∃ a, x = .ok a ∧ f a = .error e := by
  cases x with
  | error e' => exact .inl (congrArg _ (Except.error.inj h))
  | ok a => exact .inr ⟨a, rfl, h⟩

section
variable {s : State} (hs : s.st.op = .none) (l : Link) {p : List Byte} {c : FieldCheck}
include hs

theorem State.reqWritePattern_range (hc : (ReqKind.checks .writePattern p).find? (fun c => !c.ok) = some c) :
    (s.heard l).reqWritePattern l p = s.outOfRange l .writePattern c := by
  simp only [State.reqWritePattern, State.heard_storeBusy, storeBusy_of_none hs, (pattern_checked p).error hc, State.heard_replyRange]
  rfl

theorem State.reqSetClick_range (hc : (ReqKind.checks .setClick p).find? (fun c => !c.ok) = some c) :
    (s.heard l).reqSetClick l p = s.outOfRange l .setClick c := by
  simp only [State.reqSetClick, State.heard_storeBusy, storeBusy_of_none hs, (click_checked p).error hc, State.heard_replyRange]
  rfl

theorem State.reqSetInput_range (hc : (ReqKind.checks .setInput p).find? (fun c => !c.ok) = some c) :
    (s.heard l).reqSetInput l p = s.outOfRange l .setInput c := by
  simp only [State.reqSetInput, State.heard_storeBusy, storeBusy_of_none hs, (input_checked p).error hc, State.heard_replyRange]
  rfl

theorem State.reqSetOutput_range (hc : (ReqKind.checks .setOutput p).find? (fun c => !c.ok) = some c) :
    (s.heard l).reqSetOutput l p = s.outOfRange l .setOutput c := by
  simp only [State.reqSetOutput, State.heard_storeBusy, storeBusy_of_none hs, (output_checked p).error hc, State.heard_replyRange]
  rfl

theorem State.reqWriteScene_range (hstaged : s.lr.staged.map Staging.scene ≠ some (byteAt p 0))
    (hc : (ReqKind.checks .writeScene p).find? (fun c => !c.ok) = some c) :
    (s.heard l).reqWriteScene l p = s.outOfRange l .writeScene c := by
  rcases Parse.bind_error ((scene_checked p).error hc) with hn | ⟨n, hn, hscene⟩
  · simp only [State.reqWriteScene, State.heard_storeBusy, storeBusy_of_none hs, hn, State.heard_replyRange]
    rfl
  · obtain rfl := within_eq_value hn
    simp only [State.reqWriteScene, State.heard_storeBusy, storeBusy_of_none hs, hn, State.heard_lr, hstaged, hscene,
      State.heard_replyRange]
    rfl

theorem State.reqWriteSong_range (hc : (ReqKind.checks .writeSong p).find? (fun c => !c.ok) = some c) :
    (s.heard l).reqWriteSong l p = s.outOfRange l .writeSong c := by
  rcases Parse.bind_error ((song_checked p).error hc) with hn | ⟨n, hn, hsong⟩
  · simp only [State.reqWriteSong, State.heard_storeBusy, storeBusy_of_none hs, hn, State.heard_replyRange]
    rfl
  · simp only [State.reqWriteSong, State.heard_storeBusy, storeBusy_of_none hs, hn, hsong, State.heard_replyRange]
    rfl

theorem State.reqWriteCue_range (hcurrent : s.cs.current.map Latched.cue ≠ some (byteAt p 0))
    (hnext : s.cs.latchedNext.map Latched.cue ≠ some (byteAt p 0))
    (hc : (ReqKind.checks .writeCue p).find? (fun c => !c.ok) = some c) :
    (s.heard l).reqWriteCue l p = s.outOfRange l .writeCue c := by
  have hfree : s.cs.latched (byteAt p 0) = false := by simp [CueSeq.latched, hcurrent, hnext]
  simp only [State.reqWriteCue, State.heard_storeBusy, storeBusy_of_none hs, State.heard_cs, hfree, (cue_checked p).error hc,
    State.heard_replyRange]
  rfl

theorem State.reqWriteSetlist_range (hsegue : s.cs.segue = none)
    (hc : (ReqKind.checks .writeSetlist p).find? (fun c => !c.ok) = some c) :
    (s.heard l).reqWriteSetlist l p = s.outOfRange l .writeSetlist c := by
  simp only [State.reqWriteSetlist, State.heard_storeBusy, storeBusy_of_none hs, State.heard_cs, hsegue, (setlist_checked p).error hc,
    State.heard_replyRange]
  rfl

/-- A write's block answers with the first of its fields out of range; the other kinds have no fields that are checked here. -/
theorem State.perform_range {k : ReqKind} (hstaged : k = .writeScene → s.lr.staged.map Staging.scene ≠ some (byteAt p 0))
    (hcue : k = .writeCue → s.cs.current.map Latched.cue ≠ some (byteAt p 0) ∧ s.cs.latchedNext.map Latched.cue ≠ some (byteAt p 0))
    (hsegue : k = .writeSetlist → s.cs.segue = none) (hc : (k.checks p).find? (fun c => !c.ok) = some c) :
    (s.heard l).perform l k p = s.outOfRange l k c := by
  cases k with
  | writePattern => exact State.reqWritePattern_range hs l hc
  | setClick => exact State.reqSetClick_range hs l hc
  | setInput => exact State.reqSetInput_range hs l hc
  | setOutput => exact State.reqSetOutput_range hs l hc
  | writeScene => exact State.reqWriteScene_range hs l (hstaged rfl) hc
  | writeSong => exact State.reqWriteSong_range hs l hc
  | writeCue => exact State.reqWriteCue_range hs l (hcue rfl).1 (hcue rfl).2 hc
  | writeSetlist => exact State.reqWriteSetlist_range hs l (hsegue rfl) hc
  | _ => exact nomatch hc

end

/-- Settles O12: the checks of a request in their order, and the owner's fields by the check its parse fails at. -/
theorem firstFailedCheckGivesTheAnswer : Obligations.FirstFailedCheckGivesTheAnswer := by
  refine ⟨fun s l code p hcode hs => ?_, fun i s l k p hi hs ha => ⟨fun hr hstatus hsub => ?_, fun hr => ⟨fun hfits => ?_, fun hfits hd => ?_⟩⟩,
    fun i s l k p c hi ht hs hstaged hcue hsegue hc => ?_⟩
  · exact congrArg Host.Outcome.next (State.telegram_unknownRequest hs code.isLt hcode p)
  · rw [exec_of_asRequest hi, State.request_starting hs ha hr hstatus hsub]
  · rw [exec_of_asRequest hi, State.request_ready hs ha hr, if_pos hfits]
  · rw [exec_of_asRequest hi, State.request_ready hs ha hr, if_neg (by simp [hfits]), if_pos hd]
  · rw [exec_of_takes hi ht, State.perform_range hs l hstaged hcue hsegue hc, State.outOfRange]

end Sys2Proof.Machine
end

section
/-! PROOFS. No request, report or fault looks into a link's receiver (R146, R149, R153): whatever is changed there, each does the
same, and leaves the change as it is. -/

namespace Sys2Proof.Machine

/-- What stands in a link's receiver (R146): its state, the bytes it has collected, its rescan list and its gap deadline. -/
structure Receiver where
  collecting : Bool
  collected : List Byte
  rescan : List Byte
  gap : Option Stamp

/-- The link with its receiver changed. -/
def LinkState.retune (x : LinkState) (f : Receiver → Receiver) : LinkState :=
  let r := f ⟨x.collecting, x.collected, x.rescan, x.gap⟩
  { x with collecting := r.collecting, collected := r.collected, rescan := r.rescan, gap := r.gap }

/-- The state with every link's receiver changed. -/
def State.retune (s : State) (q : Link → Receiver → Receiver) : State :=
  { s with sl := ⟨s.sl.s0.retune (q .s0), s.sl.s1.retune (q .s1), s.sl.s2.retune (q .s2), s.sl.s3.retune (q .s3)⟩ }

section
variable (x : LinkState) (f : Receiver → Receiver)

@[simp] theorem LinkState.retune_high : (x.retune f).high = x.high := rfl
@[simp] theorem LinkState.retune_queue : (x.retune f).queue = x.queue := rfl
@[simp] theorem LinkState.retune_tx : (x.retune f).tx = x.tx := rfl
@[simp] theorem LinkState.retune_hold : (x.retune f).hold = x.hold := rfl
@[simp] theorem LinkState.retune_mask : (x.retune f).mask = x.mask := rfl
@[simp] theorem LinkState.retune_free : (x.retune f).free = x.free := rfl

theorem LinkState.retune_startTx (now : Stamp) : (x.retune f).startTx now = (x.startTx now).retune f := by
  unfold LinkState.startTx
  simp only [LinkState.retune_queue]
  split
  · rfl
  · rw [apply_ite (fun y : LinkState => y.retune f)]
    rfl

@[simp] theorem LinkState.retune_admitTelegram (now : Stamp) (t : Telegram) :
    (x.retune f).admitTelegram now t = (x.admitTelegram now t).retune f :=
  LinkState.retune_startTx { x with queue := x.queue ++ [t] } f now

@[simp] theorem LinkState.retune_resume (now : Stamp) : (x.retune f).resume now = (x.resume now).retune f :=
  LinkState.retune_startTx { x with hold := none } f now

end

section
variable (s : State) (q : Link → Receiver → Receiver)

@[simp] theorem State.retune_te : (s.retune q).te = s.te := rfl
@[simp] theorem State.retune_ck : (s.retune q).ck = s.ck := rfl
@[simp] theorem State.retune_ip : (s.retune q).ip = s.ip := rfl
@[simp] theorem State.retune_op : (s.retune q).op = s.op := rfl
@[simp] theorem State.retune_lr : (s.retune q).lr = s.lr := rfl
@[simp] theorem State.retune_cs : (s.retune q).cs = s.cs := rfl
@[simp] theorem State.retune_sw : (s.retune q).sw = s.sw := rfl
@[simp] theorem State.retune_st : (s.retune q).st = s.st := rfl
@[simp] theorem State.retune_fl : (s.retune q).fl = s.fl := rfl
@[simp] theorem State.retune_ready : (s.retune q).ready = s.ready := rfl
@[simp] theorem State.retune_choices : (s.retune q).choices = s.choices := rfl
@[simp] theorem State.retune_micros : (s.retune q).micros = s.micros := rfl
@[simp] theorem State.retune_cause : (s.retune q).cause = s.cause := rfl
@[simp] theorem State.retune_pending : (s.retune q).pending = s.pending := rfl

@[simp] theorem State.link_retune (l : Link) : (s.retune q).link l = (s.link l).retune (q l) := by cases l <;> rfl

@[simp] theorem State.setLink_retune (l : Link) (x : LinkState) :
    (s.retune q).setLink l (x.retune (q l)) = (s.setLink l x).retune q := by
  cases l <;> rfl

/-- The receivers change whatever is written beside the links. -/
@[simp] theorem State.mk_retune (te : TempoEngine) (ck : ClickGen) (ip : PerIn MidiIn) (op : PerOut MidiOut) (lr : LayerRouter)
    (cs : CueSeq) (sw : Watch) (st : ShowStore) (fl : FaultLog) (ready : Bool) (micros : Nat) (cause : ResetCause) (choices : Nat)
    (pending : List Instr) :
    State.mk te ck ip op lr cs (s.retune q).sl sw st fl ready micros cause choices pending =
      (State.mk te ck ip op lr cs s.sl sw st fl ready micros cause choices pending).retune q := rfl

@[simp] theorem State.retune_ite (p : Prop) [Decidable p] (t : State) :
    (if p then s else t).retune q = if p then s.retune q else t.retune q := apply_ite (fun u : State => u.retune q) p s t

/-- What is done for each item of a list without a look into the receivers is done without one as a whole. -/
theorem State.foldl_retune {α : Type} {f : State → α → State} (h : ∀ s a, f (s.retune q) a = (f s a).retune q) (xs : List α) :
    xs.foldl f (s.retune q) = (xs.foldl f s).retune q := by
  induction xs generalizing s with
  | nil => rfl
  | cons a r ih => rw [List.foldl_cons, h, ih, List.foldl_cons]

/-! ### What stands beside the links -/

@[simp] theorem State.midiIn_retune (i : InPort) : (s.retune q).midiIn i = s.midiIn i := rfl
@[simp] theorem State.setIn_retune (i : InPort) (x : MidiIn) : (s.retune q).setIn i x = (s.setIn i x).retune q := rfl
@[simp] theorem State.midiOut_retune (o : OutPort) : (s.retune q).midiOut o = s.midiOut o := rfl
@[simp] theorem State.setOut_retune (o : OutPort) (x : MidiOut) : (s.retune q).setOut o x = (s.setOut o x).retune q := rfl
@[simp] theorem State.station_retune (x : Station) : (s.retune q).station x = s.station x := rfl
@[simp] theorem State.setStation_retune (x : Station) (r : StationRec) :
    (s.retune q).setStation x r = (s.setStation x r).retune q := rfl
@[simp] theorem State.bus_retune (b : Bus) : (s.retune q).bus b = s.bus b := rfl
@[simp] theorem State.setBus_retune (b : Bus) (x : ClickBus) : (s.retune q).setBus b x = (s.setBus b x).retune q := rfl
@[simp] theorem State.now_retune : (s.retune q).now = s.now := rfl
@[simp] theorem State.millis_retune : (s.retune q).millis = s.millis := rfl
@[simp] theorem State.ticking_retune : (s.retune q).ticking = s.ticking := rfl
@[simp] theorem State.barBeat_retune : (s.retune q).barBeat = s.barBeat := rfl
@[simp] theorem State.choose_retune : (s.retune q).choose = s.choose.retune q := rfl
@[simp] theorem State.sceneAt_retune (n : Nat) : (s.retune q).sceneAt n = s.sceneAt n := rfl

/-! ### Links and the Fault Log (R154 to R156, R184 to R186) -/

@[simp] theorem State.post_retune (l : Link) (t : Telegram) : (s.retune q).post l t = (s.post l t).retune q := by
  simp [State.post]

@[simp] theorem State.answer_retune (l : Link) (code : Nat) (r : ResultCode) (data : List Byte) :
    (s.retune q).answer l code r data = (s.answer l code r data).retune q := by
  simp [State.answer]

@[simp] theorem State.offerQuiet_retune (l : Link) (n : Notice) :
    (s.retune q).offerQuiet l n = (s.offerQuiet l n).retune q := by
  simp [State.offerQuiet]

@[simp] theorem State.broadcastQuiet_retune (group : Mask → Bool) (n : Notice) :
    (s.retune q).broadcastQuiet group n = (s.broadcastQuiet group n).retune q :=
  State.foldl_retune s q (fun u x => by simp) _

@[simp] theorem State.offerFaultNotice_retune : (s.retune q).offerFaultNotice = s.offerFaultNotice.retune q := by
  cases hnewest : s.fl.records.getLast? <;> simp [State.offerFaultNotice, hnewest]

@[simp] theorem State.reportAt_retune (k : FaultKind) (p : Option FaultPort) (pos : Option BarBeat) :
    (s.retune q).reportAt k p pos = (s.reportAt k p pos).retune q := by
  cases hmode : s.fl.modes.get k.cls <;> simp [State.reportAt, hmode]

@[simp] theorem State.report_retune (k : FaultKind) (p : Option FaultPort) :
    (s.retune q).report k p = (s.report k p).retune q := by
  simp [State.report]

@[simp] theorem State.offerNotice_retune (l : Link) (n : Notice) :
    (s.retune q).offerNotice l n = (s.offerNotice l n).retune q := by
  simp [State.offerNotice]

@[simp] theorem State.broadcast_retune (group : Mask → Bool) (n : Notice) :
    (s.retune q).broadcast group n = (s.broadcast group n).retune q :=
  State.foldl_retune s q (fun u x => by simp) _

@[simp] theorem State.tempoNotice_retune : (s.retune q).tempoNotice = s.tempoNotice.retune q := by
  simp [State.tempoNotice]

@[simp] theorem State.transportNotice_retune : (s.retune q).transportNotice = s.transportNotice.retune q := by
  simp [State.transportNotice]

@[simp] theorem State.beatNotice_retune (bar : Int) (beat meter : Nat) (tr : Transport) :
    (s.retune q).beatNotice bar beat meter tr = (s.beatNotice bar beat meter tr).retune q := by
  simp [State.beatNotice]

@[simp] theorem State.sceneNotice_retune (cause : SceneCause) (due : Option Nat) (origin : Option Origin) :
    (s.retune q).sceneNotice cause due origin = (s.sceneNotice cause due origin).retune q := by
  simp [State.sceneNotice]

@[simp] theorem State.releaseLock_retune : (s.retune q).releaseLock = s.releaseLock.retune q := by
  simp [State.releaseLock]

/-! ### Outputs (R51 to R58) -/

@[simp] theorem State.offerNoteOff_retune (o : OutPort) (c : Chan) (key vel : Nat) :
    (s.retune q).offerNoteOff o c key vel = (s.offerNoteOff o c key vel).retune q := by
  simp only [State.offerNoteOff, State.midiOut_retune, State.now_retune, State.setOut_retune, State.retune_ite]
  rfl

@[simp] theorem State.offerGroup_retune (o : OutPort) (ms : List OutMsg) :
    (s.retune q).offerGroup o ms = ((s.offerGroup o ms).1.retune q, (s.offerGroup o ms).2) := by
  by_cases hmode : (s.midiOut o).mode = .enabled
  · by_cases hroom : (s.midiOut o).waiting + ms.length ≤ Config.outTier <;> simp [State.offerGroup, hmode, hroom]
  · simp [State.offerGroup, hmode]

@[simp] theorem State.handRealTime_retune (b : Byte) : (s.retune q).handRealTime b = (s.handRealTime b).retune q := rfl

/-! ### The Sound Station Watch (R164 to R179) -/

@[simp] theorem State.clearPending_retune (x : Station) : (s.retune q).clearPending x = (s.clearPending x).retune q := rfl
@[simp] theorem State.markPending_retune (x : Station) : (s.retune q).markPending x = (s.markPending x).retune q := rfl

@[simp] theorem State.makeActive_retune (x : Station) (cause : ActiveCause) :
    (s.retune q).makeActive x cause = (s.makeActive x cause).retune q := by
  simp [State.makeActive]

@[simp] theorem State.reviewActive_retune (x : Station) (old new : StationState) :
    (s.retune q).reviewActive x old new = (s.reviewActive x old new).retune q := by
  cases hactive : s.sw.active <;> simp [State.reviewActive, hactive]

@[simp] theorem State.allOffReady_retune (x : Station) : (s.retune q).allOffReady x = s.allOffReady x := by
  simp only [State.allOffReady, State.station_retune, State.link_retune]
  rfl

@[simp] theorem State.resyncAllOff_retune (x : Station) : (s.retune q).resyncAllOff x = (s.resyncAllOff x).retune q := by
  simp [State.resyncAllOff]

@[simp] theorem State.enterState_retune (x : Station) (new : StationState) :
    (s.retune q).enterState x new = (s.enterState x new).retune q := by
  cases new <;> simp [State.enterState]

@[simp] theorem State.autoRelease_retune (x : Station) (new : StationState) :
    (s.retune q).autoRelease x new = (s.autoRelease x new).retune q := by
  simp [State.autoRelease]

@[simp] theorem State.changeStation_retune (x : Station) (new : StationState) (fault : Option FaultKind) :
    (s.retune q).changeStation x new fault = (s.changeStation x new fault).retune q := by
  cases fault <;> simp [State.changeStation]

@[simp] theorem State.refused_retune (x : Station) : (s.retune q).refused x = (s.refused x).retune q := by
  simp only [State.refused, State.station_retune]
  split <;> simp

@[simp] theorem State.hears_retune (x : Station) : (s.retune q).hears x = s.hears x := rfl

@[simp] theorem State.refusesEvent_retune (x : Station) : (s.retune q).refusesEvent x = s.refusesEvent x := by
  simp only [State.refusesEvent, State.station_retune, State.link_retune]
  rfl

@[simp] theorem State.offerEvent_retune (x : Station) (e : Event) :
    (s.retune q).offerEvent x e = ((s.offerEvent x e).1.retune q, (s.offerEvent x e).2) := by
  cases hrefuses : s.refusesEvent x with
  | true => simp [State.offerEvent, hrefuses]
  | false => cases hhigh : (s.link x.link).high <;> simp [State.offerEvent, hrefuses, hhigh]

@[simp] theorem State.admitEvent_retune (x : Station) (e : Event) (wanted : Bool) :
    (s.retune q).admitEvent x e wanted = (s.admitEvent x e wanted).retune q := by
  simp [State.admitEvent]

@[simp] theorem State.mirror_retune (want : PerStation Bool) (e : Event) :
    (s.retune q).mirror want e = ((s.mirror want e).1.retune q, (s.mirror want e).2) := by
  have hoffer : ∀ (u : State) (w : Bool) (x : Station), (if w then (u.retune q).offerEvent x e else (u.retune q, false)) =
      ((if w then u.offerEvent x e else (u, false)).1.retune q, (if w then u.offerEvent x e else (u, false)).2) := fun u w x => by
    cases w
    · rfl
    · exact u.offerEvent_retune q x e
  simp only [State.mirror, State.refusesEvent_retune, State.retune_choices, State.choose_retune, hoffer, State.admitEvent_retune]
  split
  · split <;> rfl
  · rfl

@[simp] theorem State.mirrorLive_retune (e : Event) :
    (s.retune q).mirrorLive e = ((s.mirrorLive e).1.retune q, (s.mirrorLive e).2) := by
  simp [State.mirrorLive]

@[simp] theorem State.mirrorOff_retune (pend : PerStation Bool) (e : Event) :
    (s.retune q).mirrorOff pend e = (s.mirrorOff pend e).retune q := by
  simp [State.mirrorOff]

@[simp] theorem State.panicStation_retune (x : Station) : (s.retune q).panicStation x = (s.panicStation x).retune q := by
  simp [State.panicStation]

@[simp] theorem State.panicStations_retune : (s.retune q).panicStations = s.panicStations.retune q := by
  simp [State.panicStations]

@[simp] theorem State.echoed_retune (x : Station) (n : Nat) : (s.retune q).echoed x n = (s.echoed x n).retune q := by
  cases hstate : (s.station x).state <;> simp [State.echoed, hstate]

@[simp] theorem State.limitStation_retune (x : Station) : (s.retune q).limitStation x = (s.limitStation x).retune q := by
  cases hstate : (s.station x).state <;> simp [State.limitStation, hstate]

@[simp] theorem State.setLimit_retune (n : Nat) : (s.retune q).setLimit n = (s.setLimit n).retune q := by
  simp only [State.setLimit, State.station_retune, State.retune_sw, State.mk_retune, State.choose_retune, State.limitStation_retune,
    State.retune_ite]
  rfl

/-! ### Scenes (R61 to R78) -/

@[simp] theorem State.sendProgram_retune (e : ProgEntry) :
    (s.retune q).sendProgram e = ((s.sendProgram e).1.retune q, (s.sendProgram e).2) := by
  cases hdest : e.dest <;> simp [State.sendProgram, hdest]

@[simp] theorem State.sendPrograms_retune (es : List ProgEntry) :
    (s.retune q).sendPrograms es = ((s.sendPrograms es).1.retune q, (s.sendPrograms es).2) := by
  have hfold : ∀ (a : State × Bool), es.foldl (fun a e => let r := a.1.sendProgram e; (r.1, a.2 || r.2)) (a.1.retune q, a.2) =
      ((es.foldl (fun a e => let r := a.1.sendProgram e; (r.1, a.2 || r.2)) a).1.retune q,
        (es.foldl (fun a e => let r := a.1.sendProgram e; (r.1, a.2 || r.2)) a).2) := by
    induction es with
    | nil => exact fun _ => rfl
    | cons e r ih => exact fun a => by simpa using ih ((a.1.sendProgram e).1, a.2 || (a.1.sendProgram e).2)
  exact hfold (s, false)

@[simp] theorem State.stage_retune (n : Nat) (point : SwapPoint) (origin : Origin) :
    (s.retune q).stage n point origin = (s.stage n point origin).retune q := rfl

@[simp] theorem State.settleClaim_retune : (s.retune q).settleClaim = s.settleClaim.retune q := by
  simp only [State.settleClaim, State.retune_lr]
  split <;> simp

@[simp] theorem State.unstage_retune : (s.retune q).unstage = s.unstage.retune q := by
  simp [State.unstage]

@[simp] theorem State.stageCommand_retune (cue n : Nat) :
    (s.retune q).stageCommand cue n = (s.stageCommand cue n).retune q := by
  simp only [State.stageCommand, State.retune_lr]
  split
  · split <;> rfl
  · rfl

@[simp] theorem State.withdraw_retune (cue : Nat) : (s.retune q).withdraw cue = (s.withdraw cue).retune q := by
  by_cases hclaim : s.lr.claim.map CueClaim.cue = some cue <;> simp [State.withdraw, hclaim]

@[simp] theorem State.makeLive_retune (g : Staging) : (s.retune q).makeLive g = (s.makeLive g).retune q := rfl

@[simp] theorem State.swap_retune (g : Staging) : (s.retune q).swap g = (s.swap g).retune q := by
  simp [State.swap]

@[simp] theorem State.skip_retune (g : Staging) : (s.retune q).skip g = (s.skip g).retune q := by
  simp [State.skip]

@[simp] theorem State.reachPoint_retune (g : Staging) : (s.retune q).reachPoint g = (s.reachPoint g).retune q := by
  simp [State.reachPoint]

@[simp] theorem State.routerBeat_retune (isBar : Bool) : (s.retune q).routerBeat isBar = (s.routerBeat isBar).retune q := by
  simp only [State.routerBeat, State.retune_lr]
  split
  · simp
  · split <;> simp

@[simp] theorem State.swapCommand_retune (cue n : Nat) :
    (s.retune q).swapCommand cue n = ((s.swapCommand cue n).1.retune q, (s.swapCommand cue n).2) := by
  cases hlock : s.lr.lock with
  | some l => simp [State.swapCommand, hlock]
  | none =>
    cases hstaged : s.lr.staged with
    | none => simp [State.swapCommand, hlock, hstaged]
    | some g => by_cases horigin : g.origin = .cue cue <;> simp [State.swapCommand, hlock, hstaged, horigin]

@[simp] theorem State.restartMap_retune : (s.retune q).restartMap = s.restartMap.retune q := by
  simp [State.restartMap]

/-! ### The held-note table (R91 to R103) -/

@[simp] theorem State.releaseTarget_retune (pend : PerStation Bool) (rel : Nat) (t : Target) :
    (s.retune q).releaseTarget pend rel t = (s.releaseTarget pend rel t).retune q := by
  cases hdest : t.dest <;> simp [State.releaseTarget, hdest]

@[simp] theorem State.releaseTargets_retune (pend : PerStation Bool) (rel : Nat) (ts : List Target) :
    (s.retune q).releaseTargets pend rel ts = (s.releaseTargets pend rel ts).retune q :=
  State.foldl_retune s q (fun u x => by simp) _

@[simp] theorem State.releaseEntry_retune (e : HeldEntry) (rel : Nat) :
    (s.retune q).releaseEntry e rel = (s.releaseEntry e rel).retune q := by
  simp [State.releaseEntry]

@[simp] theorem State.releaseWhere_retune (p : HeldEntry → Bool) (rel : HeldEntry → Nat) (n : Nat) :
    State.releaseWhere p rel n (s.retune q) = (State.releaseWhere p rel n s).retune q := by
  induction n generalizing s with
  | zero => rfl
  | succ n ih =>
    simp only [State.releaseWhere, State.retune_lr]
    split
    · rfl
    · rw [State.releaseEntry_retune, ih]

@[simp] theorem State.releaseAll_retune (p : HeldEntry → Bool) (rel : HeldEntry → Nat) :
    (s.retune q).releaseAll p rel = (s.releaseAll p rel).retune q := by
  simp [State.releaseAll]

@[simp] theorem State.allNotesOffEvent_retune (i : InPort) (c : Chan) :
    (s.retune q).allNotesOffEvent i c = (s.allNotesOffEvent i c).retune q := by
  simp [State.allNotesOffEvent]

@[simp] theorem State.inputLostEvent_retune (i : InPort) : (s.retune q).inputLostEvent i = (s.inputLostEvent i).retune q := by
  simp [State.inputLostEvent]

@[simp] theorem State.panic_retune : (s.retune q).panic = s.panic.retune q := by
  simp [State.panic]

@[simp] theorem State.restartNotes_retune : (s.retune q).restartNotes = s.restartNotes.retune q := by
  simp [State.restartNotes]

/-! ### Inputs and click buses (R28 to R38, R49) -/

@[simp] theorem State.dropChannel_retune (i : InPort) (c : Chan) :
    (s.retune q).dropChannel i c = (s.dropChannel i c).retune q := by
  simp [State.dropChannel]

@[simp] theorem State.applyInput_retune (i : InPort) (t : InSettings) :
    (s.retune q).applyInput i t = (s.applyInput i t).retune q := by
  cases hold : (s.midiIn i).settings.enabled with
  | false => cases hnew : t.enabled <;> simp [State.applyInput, hold, hnew]
  | true =>
    cases hnew : t.enabled with
    | false => simp [State.applyInput, hold, hnew]
    | true =>
      simp only [State.applyInput, State.midiIn_retune, State.setIn_retune, hold, hnew]
      exact State.foldl_retune _ q (fun u c => u.dropChannel_retune q i c) _

@[simp] theorem State.askClick_retune (b : Bus) (ch : ClickChange) :
    (s.retune q).askClick b ch = (s.askClick b ch).retune q := rfl
@[simp] theorem State.askPatterns_retune (band keys : Option Nat) :
    (s.retune q).askPatterns band keys = (s.askPatterns band keys).retune q := rfl
@[simp] theorem State.clickBeat_retune (ev : BeatEvent) : (s.retune q).clickBeat ev = (s.clickBeat ev).retune q := rfl
@[simp] theorem State.restartClick_retune : (s.retune q).restartClick = s.restartClick.retune q := rfl

/-! ### The Tempo Engine (R5 to R15, R24) -/

@[simp] theorem State.withTe_retune (te : TempoEngine) : (s.retune q).withTe te = (s.withTe te).retune q := rfl

@[simp] theorem State.setTempo_retune (t : Nat) : (s.retune q).setTempo t = (s.setTempo t).retune q := by
  simp [State.setTempo]

@[simp] theorem State.rampTempo_retune (t1 beats : Nat) :
    (s.retune q).rampTempo t1 beats = (s.rampTempo t1 beats).retune q := by
  simp [State.rampTempo]

@[simp] theorem State.setMeter_retune (b : Nat) : (s.retune q).setMeter b = (s.setMeter b).retune q := by
  cases hticking : s.ticking <;> simp [State.setMeter, hticking]

@[simp] theorem State.stopNotices_retune (rampEnded : Bool) :
    (s.retune q).stopNotices rampEnded = (s.stopNotices rampEnded).retune q := by
  cases rampEnded <;> simp [State.stopNotices]

@[simp] theorem State.stopNow_retune : (s.retune q).stopNow = s.stopNow.retune q := by
  unfold State.stopNow
  rw [State.ticking_retune, State.retune_te, State.retune_cs]
  split
  · simp
  · rfl

@[simp] theorem State.stopAtBar_retune : (s.retune q).stopAtBar = s.stopAtBar.retune q := by
  cases htransport : s.te.transport <;> simp [State.stopAtBar, htransport]

@[simp] theorem State.engineSong_retune (g : Song) : (s.retune q).engineSong g = (s.engineSong g).retune q := by
  simp only [State.engineSong, State.retune_te, State.withTe_retune, State.tempoNotice_retune, ← State.retune_ite,
    State.transportNotice_retune]
  rfl

@[simp] theorem State.engineSegue_retune (g : Song) : (s.retune q).engineSegue g = (s.engineSegue g).retune q := rfl

@[simp] theorem State.restartTempo_retune : (s.retune q).restartTempo = s.restartTempo.retune q := by
  unfold State.restartTempo
  rw [State.retune_te, State.ticking_retune]
  simp only [State.withTe_retune, State.handRealTime_retune, State.transportNotice_retune, State.tempoNotice_retune, ← State.retune_ite]

/-! ### The Cue Sequencer (R124 to R142) -/

@[simp] theorem State.withCs_retune (cs : CueSeq) : (s.retune q).withCs cs = (s.withCs cs).retune q := rfl

@[simp] theorem State.cueNotice_retune (n : Notice) : (s.retune q).cueNotice n = (s.cueNotice n).retune q := by
  simp [State.cueNotice]

@[simp] theorem State.reportCue_retune (k : FaultKind) (pos : Option BarBeat) :
    (s.retune q).reportCue k pos = (s.reportCue k pos).retune q := by
  cases hticking : s.ticking <;> simp [State.reportCue, hticking]

@[simp] theorem State.leadCheck_retune : (s.retune q).leadCheck = s.leadCheck.retune q := by
  simp only [State.leadCheck, State.retune_te, State.retune_cs]
  split
  · simp
  · split <;> simp

@[simp] theorem State.endSong_retune : (s.retune q).endSong = s.endSong.retune q := rfl

@[simp] theorem State.becomeCurrent_retune (n : Nat) (chained : Bool) (pos : Option BarBeat) :
    (s.retune q).becomeCurrent n chained pos = (s.becomeCurrent n chained pos).retune q := by
  simp only [State.becomeCurrent, State.retune_cs]
  split
  · simp
  · split <;> simp

@[simp] theorem State.dropCurrent_retune : (s.retune q).dropCurrent = s.dropCurrent.retune q := by
  simp only [State.dropCurrent, State.retune_cs]
  split
  · split <;> simp
  · rfl

@[simp] theorem State.songSelect_retune (p n : Nat) (g : Song) (pos : Option BarBeat) :
    (s.retune q).songSelect p n g pos = (s.songSelect p n g pos).retune q := by
  cases hfirst : g.firstCue <;> simp [State.songSelect, hfirst]

@[simp] theorem State.nextSong_retune (closing : Bool) (pos : Option BarBeat) :
    (s.retune q).nextSong closing pos = ((s.nextSong closing pos).1.retune q, (s.nextSong closing pos).2) := by
  simp only [State.nextSong, State.retune_cs, State.retune_te, State.endSong_retune, State.reportCue_retune]
  split
  · rfl
  · split
    · rfl
    · by_cases hstopped : s.te.transport = .stopped
      · simp [hstopped]
      · cases closing <;> simp [hstopped]

@[simp] theorem State.doAction_retune (c : Latched) (closing : Bool) (pos : Option BarBeat) :
    (s.retune q).doAction c closing pos = ((s.doAction c closing pos).1.retune q, (s.doAction c closing pos).2) := by
  cases hact : c.record.action with
  | tempo t => cases hfollow : s.te.follow.holdsTempo <;> simp [State.doAction, hact, hfollow]
  | ramp t b => cases hfollow : s.te.follow.holdsTempo <;> simp [State.doAction, hact, hfollow]
  | stop m => cases m <;> simp [State.doAction, hact]
  | _ => simp [State.doAction, hact]

@[simp] theorem State.writeStatus_retune (n : Nat) (r : CueResult) :
    (s.retune q).writeStatus n r = (s.writeStatus n r).retune q := by
  cases hlook : Table.look s.cs.cues n <;> simp [State.writeStatus, hlook]

@[simp] theorem State.moveOn_retune (c : Cue) (pos : Option BarBeat) :
    (s.retune q).moveOn c pos = (s.moveOn c pos).retune q := by
  cases hend : c.isEnd with
  | true => simp [State.moveOn, hend]
  | false =>
    cases hhold : c.isHold with
    | true => cases hnext : Table.look s.cs.cues c.next <;> simp [State.moveOn, State.withCs, hend, hhold, hnext]
    | false => simp [State.moveOn, hend, hhold]

@[simp] theorem State.completeCue_retune (c : Latched) (late closing : Bool) (pos : Option BarBeat) :
    (s.retune q).completeCue c late closing pos = (s.completeCue c late closing pos).retune q := by
  simp only [State.completeCue, State.doAction_retune, State.writeStatus_retune, State.reportCue_retune, State.cueNotice_retune,
    ← State.retune_ite]
  split
  · rfl
  · exact State.moveOn_retune _ q _ _

@[simp] theorem State.chain_retune (closing : Bool) (pos : Option BarBeat) (n : Nat) :
    State.chain closing pos n (s.retune q) = (State.chain closing pos n s).retune q := by
  induction n generalizing s with
  | zero => rfl
  | succ n ih => cases hdue : s.cs.chainDue <;> simp [State.chain, hdue, ih]

@[simp] theorem State.fire_retune (c : Latched) (late closing : Bool) (pos : Option BarBeat) :
    (s.retune q).fire c late closing pos = (s.fire c late closing pos).retune q := by
  simp [State.fire]

@[simp] theorem State.applySegueRecord_retune (pos : Option BarBeat) :
    (s.retune q).applySegueRecord pos = (s.applySegueRecord pos).retune q := by
  simp only [State.applySegueRecord, State.retune_cs]
  split
  · simp
  · split <;> simp

@[simp] theorem State.boundaryOpened_retune (ev : BeatEvent) :
    (s.retune q).boundaryOpened ev = (s.boundaryOpened ev).retune q := by
  simp [State.boundaryOpened]

@[simp] theorem State.currentFires_retune (ev : BeatEvent) : (s.retune q).currentFires ev = (s.currentFires ev).retune q := by
  unfold State.currentFires
  rw [State.retune_cs]
  split
  · split
    · rfl
    · split
      · exact s.fire_retune q _ _ _ _
      · rfl
  · rfl

@[simp] theorem State.sequencerBeat_retune (ev : BeatEvent) :
    (s.retune q).sequencerBeat ev = (s.sequencerBeat ev).retune q := by
  simp only [State.sequencerBeat_eq, State.boundaryOpened_retune, State.retune_cs, State.leadCheck_retune, ← State.retune_ite,
    State.currentFires_retune]

@[simp] theorem State.sequencerClosed_retune : (s.retune q).sequencerClosed = s.sequencerClosed.retune q := by
  simp only [State.sequencerClosed, State.retune_cs]
  split
  · simp
  · split
    · simp
    · split <;> simp

@[simp] theorem State.goStopped_retune (c : Latched) : (s.retune q).goStopped c = (s.goStopped c).retune q := by
  simp [State.goStopped]

@[simp] theorem State.chaseCue_retune (c : Latched) (later : Bool) :
    (s.retune q).chaseCue c later = (s.chaseCue c later).retune q := by
  cases hact : c.record.action with
  | scene n => cases later <;> simp [State.chaseCue, hact]
  | _ => simp [State.chaseCue, hact]

@[simp] theorem State.chaseCues_retune (cs : List Latched) : (s.retune q).chaseCues cs = (s.chaseCues cs).retune q := by
  induction cs generalizing s with
  | nil => rfl
  | cons c r ih => rw [State.chaseCues, State.chaseCue_retune, ih, State.chaseCues]

@[simp] theorem State.chase_retune (bar : Nat) : (s.retune q).chase bar = (s.chase bar).retune q := by
  unfold State.chase
  rw [State.retune_cs, State.dropCurrent_retune]
  split
  · rfl
  · simp only [State.retune_cs]
    split
    · exact State.endSong_retune _ q
    · split
      · split <;> simp
      · split <;> simp

@[simp] theorem State.restartSequencer_retune : (s.retune q).restartSequencer = s.restartSequencer.retune q := rfl

/-! ### Beat events and the follower (R3 to R23) -/

@[simp] theorem State.orderMatters_retune (ev : BeatEvent) : (s.retune q).orderMatters ev = s.orderMatters ev := rfl

@[simp] theorem State.takeBeat_retune (ev : BeatEvent) (t : Taker) :
    (s.retune q).takeBeat ev t = (s.takeBeat ev t).retune q := by
  cases t <;> simp [State.takeBeat]

@[simp] theorem State.takeBeatAll_retune (ev : BeatEvent) (order : List Taker) :
    (s.retune q).takeBeatAll ev order = (s.takeBeatAll ev order).retune q :=
  State.foldl_retune s q (fun u x => by simp) _

@[simp] theorem State.handOn_retune (ev : BeatEvent) : (s.retune q).handOn ev = (s.handOn ev).retune q := by
  simp [State.handOn]

@[simp] theorem State.beatBytes_retune (start : Bool) : (s.retune q).beatBytes start = (s.beatBytes start).retune q := by
  cases start <;> simp [State.beatBytes]

@[simp] theorem State.close_retune : (s.retune q).close = s.close.retune q := by
  simp [State.close]

@[simp] theorem State.beatOccurs_retune : (s.retune q).beatOccurs = s.beatOccurs.retune q := by
  unfold State.beatOccurs
  rw [State.retune_te]
  simp only [State.withTe_retune, State.transportNotice_retune, State.tempoNotice_retune, State.beatBytes_retune, State.handOn_retune,
    State.close_retune, ← State.retune_ite]

@[simp] theorem State.startTransport_retune : (s.retune q).startTransport = s.startTransport.retune q := by
  simp only [State.startTransport, State.retune_te, State.withTe_retune, State.transportNotice_retune, State.beatBytes_retune,
    State.handOn_retune]
  rfl

@[simp] theorem State.setFollow_retune (src : FollowSource) : (s.retune q).setFollow src = (s.setFollow src).retune q := by
  cases src <;> simp [State.setFollow]

@[simp] theorem State.phaseCorrect_retune : (s.retune q).phaseCorrect = s.phaseCorrect.retune q := by
  simp [State.phaseCorrect]

@[simp] theorem State.estimate_retune : (s.retune q).estimate = s.estimate.retune q := by
  simp only [State.estimate, State.retune_te, State.now_retune, State.withTe_retune, State.tempoNotice_retune, ← State.retune_ite,
    State.phaseCorrect_retune]

@[simp] theorem State.takeMark_retune : (s.retune q).takeMark = s.takeMark.retune q := by
  cases hlast : s.te.lastMark with
  | none => simp [State.takeMark, hlast]
  | some t =>
    simp only [State.takeMark, hlast, State.retune_te, State.now_retune, State.withTe_retune, State.estimate_retune, State.tempoNotice_retune,
      ← State.retune_ite]

@[simp] theorem State.markFrom_retune (src : FollowSource) : (s.retune q).markFrom src = (s.markFrom src).retune q := by
  simp [State.markFrom]

/-! ### Requests (R149) -/

@[simp] theorem State.image_retune : (s.retune q).image = s.image := rfl
@[simp] theorem State.setModes_retune (m : FaultModes) : (s.retune q).setModes m = (s.setModes m).retune q := rfl
@[simp] theorem State.withStore_retune (st : ShowStore) : (s.retune q).withStore st = (s.withStore st).retune q := rfl

@[simp] theorem State.reply_retune (l : Link) (k : ReqKind) (r : ResultCode) :
    (s.retune q).reply l k r = (s.reply l k r).retune q := by
  simp [State.reply]

@[simp] theorem State.replyRange_retune (l : Link) (k : ReqKind) (e : BadField) :
    (s.retune q).replyRange l k e = (s.replyRange l k e).retune q := by
  simp [State.replyRange]

@[simp] theorem State.storeBusy_retune : (s.retune q).storeBusy = s.storeBusy := rfl
@[simp] theorem State.loading_retune : (s.retune q).loading = s.loading := rfl

@[simp] theorem State.reqStart_retune (l : Link) : (s.retune q).reqStart l = (s.reqStart l).retune q := by
  simp [State.reqStart]

@[simp] theorem State.reqStopNow_retune (l : Link) : (s.retune q).reqStopNow l = (s.reqStopNow l).retune q := by
  simp [State.reqStopNow]

@[simp] theorem State.reqStopAtBar_retune (l : Link) : (s.retune q).reqStopAtBar l = (s.reqStopAtBar l).retune q := by
  cases htransport : s.te.transport <;> simp [State.reqStopAtBar, htransport]

@[simp] theorem State.reqStop_retune (l : Link) (p : List Byte) : (s.retune q).reqStop l p = (s.reqStop l p).retune q := by
  simp [State.reqStop]

@[simp] theorem State.locate_retune (bar : Nat) : (s.retune q).locate bar = (s.locate bar).retune q := by
  simp [State.locate]

@[simp] theorem State.reqLocate_retune (l : Link) (p : List Byte) :
    (s.retune q).reqLocate l p = (s.reqLocate l p).retune q := by
  cases hvalue : within 1 9999 (wordAt p 0) 0 <;> simp [State.reqLocate, hvalue]

@[simp] theorem State.reqSetTempo_retune (l : Link) (p : List Byte) :
    (s.retune q).reqSetTempo l p = (s.reqSetTempo l p).retune q := by
  simp [State.reqSetTempo]

@[simp] theorem State.reqRampTempo_retune (l : Link) (p : List Byte) :
    (s.retune q).reqRampTempo l p = (s.reqRampTempo l p).retune q := by
  cases hvalue : within 1 64 (byteAt p 2) 2 <;> simp [State.reqRampTempo, hvalue]

@[simp] theorem State.reqSetMeter_retune (l : Link) (p : List Byte) :
    (s.retune q).reqSetMeter l p = (s.reqSetMeter l p).retune q := by
  cases hvalue : within 1 16 (byteAt p 0) 0 <;> simp [State.reqSetMeter, hvalue]

@[simp] theorem State.reqSetFollow_retune (l : Link) (p : List Byte) :
    (s.retune q).reqSetFollow l p = (s.reqSetFollow l p).retune q := by
  cases hvalue : field (sourceOf (byteAt p 0)) 0 <;> simp [State.reqSetFollow, hvalue]

@[simp] theorem State.reqWritePattern_retune (l : Link) (p : List Byte) :
    (s.retune q).reqWritePattern l p = (s.reqWritePattern l p).retune q := by
  cases hp : parsePattern p <;> simp [State.reqWritePattern, hp]

@[simp] theorem State.reqSetClick_retune (l : Link) (p : List Byte) :
    (s.retune q).reqSetClick l p = (s.reqSetClick l p).retune q := by
  cases hp : parseClick p <;> simp [State.reqSetClick, hp]

@[simp] theorem State.reqMuteClick_retune (l : Link) (p : List Byte) :
    (s.retune q).reqMuteClick l p = (s.reqMuteClick l p).retune q := by
  cases hvalue : field (busOf (byteAt p 0)) 0 <;> simp [State.reqMuteClick, hvalue]

@[simp] theorem State.reqWriteScene_retune (l : Link) (p : List Byte) :
    (s.retune q).reqWriteScene l p = (s.reqWriteScene l p).retune q := by
  cases hn : within 0 127 (byteAt p 0) 0 with
  | error e => simp [State.reqWriteScene, hn]
  | ok n => cases hp : parseScene p <;> simp [State.reqWriteScene, hn, hp]

@[simp] theorem State.reqReadScene_retune (l : Link) (p : List Byte) :
    (s.retune q).reqReadScene l p = (s.reqReadScene l p).retune q := by
  cases hn : within 0 127 (byteAt p 0) 0 with
  | error e => simp [State.reqReadScene, hn]
  | ok n => cases hlook : Table.look s.cs.scenes n <;> simp [State.reqReadScene, hn, hlook]

@[simp] theorem State.loadScene_retune (l : Link) (n : Nat) (point : SwapPoint) :
    (s.retune q).loadScene l n point = (s.loadScene l n point).retune q := by
  cases point <;> simp [State.loadScene]

@[simp] theorem State.reqLoadScene_retune (l : Link) (p : List Byte) :
    (s.retune q).reqLoadScene l p = (s.reqLoadScene l p).retune q := by
  cases hp : parseLoadScene p <;> simp [State.reqLoadScene, hp]

@[simp] theorem State.takeLock_retune (l : Link) : (s.retune q).takeLock l = (s.takeLock l).retune q := by
  simp [State.takeLock]

@[simp] theorem State.mayLock_retune (l : Link) : (s.retune q).mayLock l = s.mayLock l := rfl

@[simp] theorem State.reqLock_retune (l : Link) : (s.retune q).reqLock l = (s.reqLock l).retune q := by
  cases hlock : s.lr.lock <;> simp [State.reqLock, hlock]

@[simp] theorem State.reqUnlock_retune (l : Link) (p : List Byte) :
    (s.retune q).reqUnlock l p = (s.reqUnlock l p).retune q := by
  simp [State.reqUnlock]

@[simp] theorem State.reqWriteCue_retune (l : Link) (p : List Byte) :
    (s.retune q).reqWriteCue l p = (s.reqWriteCue l p).retune q := by
  cases hp : parseCue p <;> simp [State.reqWriteCue, hp]

@[simp] theorem State.reqReadCue_retune (l : Link) (p : List Byte) :
    (s.retune q).reqReadCue l p = (s.reqReadCue l p).retune q := by
  cases hlook : Table.look s.cs.cues (byteAt p 0) <;> simp [State.reqReadCue, hlook]

@[simp] theorem State.reqWriteSong_retune (l : Link) (p : List Byte) :
    (s.retune q).reqWriteSong l p = (s.reqWriteSong l p).retune q := by
  cases hn : within 0 63 (byteAt p 0) 0 with
  | error e => simp [State.reqWriteSong, hn]
  | ok n => cases hp : parseSong p <;> simp [State.reqWriteSong, hn, hp]

@[simp] theorem State.reqReadSong_retune (l : Link) (p : List Byte) :
    (s.retune q).reqReadSong l p = (s.reqReadSong l p).retune q := by
  cases hn : within 0 63 (byteAt p 0) 0 with
  | error e => simp [State.reqReadSong, hn]
  | ok n => cases hlook : Table.look s.cs.songs n <;> simp [State.reqReadSong, hn, hlook]

@[simp] theorem State.reqWriteSetlist_retune (l : Link) (p : List Byte) :
    (s.retune q).reqWriteSetlist l p = (s.reqWriteSetlist l p).retune q := by
  cases hp : parseSetlist p <;> simp [State.reqWriteSetlist, hp]

@[simp] theorem State.reqReadSetlist_retune (l : Link) : (s.retune q).reqReadSetlist l = (s.reqReadSetlist l).retune q := by
  simp [State.reqReadSetlist]

@[simp] theorem State.reqSelectSong_retune (l : Link) (p : List Byte) :
    (s.retune q).reqSelectSong l p = (s.reqSelectSong l p).retune q := by
  cases hn : s.cs.setlist[byteAt p 0]? with
  | none => simp [State.reqSelectSong, hn]
  | some n => cases hlook : Table.look s.cs.songs n <;> simp [State.reqSelectSong, hn, hlook]

@[simp] theorem State.goHeld_retune (n : Nat) : (s.retune q).goHeld n = (s.goHeld n).retune q := by
  simp [State.goHeld]

@[simp] theorem State.reqGo_retune (l : Link) : (s.retune q).reqGo l = (s.reqGo l).retune q := by
  simp only [State.reqGo, State.retune_cs, State.ticking_retune]
  split <;> simp

@[simp] theorem State.reqSetInput_retune (l : Link) (p : List Byte) :
    (s.retune q).reqSetInput l p = (s.reqSetInput l p).retune q := by
  cases hp : parseInput p <;> simp [State.reqSetInput, hp]

@[simp] theorem State.reqSetOutput_retune (l : Link) (p : List Byte) :
    (s.retune q).reqSetOutput l p = (s.reqSetOutput l p).retune q := by
  cases hp : parseOutput p <;> simp [State.reqSetOutput, hp]

@[simp] theorem State.reqSetWatch_retune (l : Link) (p : List Byte) :
    (s.retune q).reqSetWatch l p = (s.reqSetWatch l p).retune q := by
  simp [State.reqSetWatch]

@[simp] theorem State.reqSetActive_retune (l : Link) (p : List Byte) :
    (s.retune q).reqSetActive l p = (s.reqSetActive l p).retune q := by
  cases hvalue : field (stationOf (byteAt p 0)) 0 <;> simp [State.reqSetActive, hvalue]

@[simp] theorem State.reqResync_retune (l : Link) (p : List Byte) :
    (s.retune q).reqResync l p = (s.reqResync l p).retune q := by
  cases hvalue : field (stationOf (byteAt p 0)) 0 <;> simp [State.reqResync, hvalue]

@[simp] theorem State.restart_retune : (s.retune q).restart = s.restart.retune q := by
  simp [State.restart]

@[simp] theorem State.reqRestart_retune (l : Link) : (s.retune q).reqRestart l = (s.reqRestart l).retune q := by
  simp [State.reqRestart]

@[simp] theorem State.reqPanic_retune (l : Link) : (s.retune q).reqPanic l = (s.reqPanic l).retune q := by
  simp [State.reqPanic]

@[simp] theorem State.reqSaveShow_retune (l : Link) : (s.retune q).reqSaveShow l = (s.reqSaveShow l).retune q := by
  simp [State.reqSaveShow]

@[simp] theorem State.reqLoadShow_retune (l : Link) : (s.retune q).reqLoadShow l = (s.reqLoadShow l).retune q := by
  simp [State.reqLoadShow]

@[simp] theorem State.reqSetFaultMode_retune (l : Link) (p : List Byte) :
    (s.retune q).reqSetFaultMode l p = (s.reqSetFaultMode l p).retune q := by
  cases hp : parseFaultMode p <;> simp [State.reqSetFaultMode, hp]

@[simp] theorem State.reqAckFaults_retune (l : Link) : (s.retune q).reqAckFaults l = (s.reqAckFaults l).retune q := by
  simp [State.reqAckFaults]

@[simp] theorem State.reqReadFaults_retune (l : Link) (p : List Byte) :
    (s.retune q).reqReadFaults l p = (s.reqReadFaults l p).retune q := by
  cases hvalue : within 0 31 (byteAt p 0) 0 <;> simp [State.reqReadFaults, hvalue]

@[simp] theorem State.reqSubscribe_retune (l : Link) (p : List Byte) :
    (s.retune q).reqSubscribe l p = (s.reqSubscribe l p).retune q := by
  simp only [State.reqSubscribe, State.answer_retune, State.link_retune]
  exact State.setLink_retune _ q l { (s.answer l _ .done [maskByte (parseMask p)]).link l with mask := parseMask p }

@[simp] theorem State.snapshot_retune : (s.retune q).snapshot = s.snapshot := rfl

@[simp] theorem State.reqReadStatus_retune (l : Link) : (s.retune q).reqReadStatus l = (s.reqReadStatus l).retune q := by
  simp [State.reqReadStatus]

@[simp] theorem State.perform_retune (l : Link) (k : ReqKind) (p : List Byte) :
    (s.retune q).perform l k p = (s.perform l k p).retune q := by
  cases k <;> simp [State.perform]

/-! ### Telegrams (R148, R153, R157, R158) -/

@[simp] theorem State.resumeLink_retune (l : Link) : (s.retune q).resumeLink l = (s.resumeLink l).retune q := by
  simp [State.resumeLink]

@[simp] theorem State.holdLink_retune (l : Link) (ms : Nat) : (s.retune q).holdLink l ms = (s.holdLink l ms).retune q := by
  unfold State.holdLink
  split
  · exact s.resumeLink_retune q l
  · rw [State.link_retune]
    exact s.setLink_retune q l { s.link l with hold := some (stampAfter s.now (1000 * min 1000 ms)) }

@[simp] theorem State.checkRequest_retune (l : Link) (k : ReqKind) (p : List Byte) :
    (s.retune q).checkRequest l k p = (s.checkRequest l k p).retune q := by
  simp [State.checkRequest]

@[simp] theorem State.takeRequest_retune (l : Link) (code : Nat) (p : List Byte) :
    (s.retune q).takeRequest l code p = (s.takeRequest l code p).retune q := by
  cases hkind : kindOfCode code <;> simp [State.takeRequest, hkind]

@[simp] theorem State.performReport_retune (l : Link) (k : RepKind) (p : List Byte) :
    (s.retune q).performReport l k p = (s.performReport l k p).retune q := by
  cases k with
  | echo => cases hx : l.station <;> simp [State.performReport, hx]
  | _ => simp [State.performReport]

@[simp] theorem State.takeReport_retune (l : Link) (code : Nat) (p : List Byte) :
    (s.retune q).takeReport l code p = (s.takeReport l code p).retune q := by
  cases hkind : reportOfCode code <;> simp [State.takeReport, hkind]

@[simp] theorem State.takeTelegram_retune (l : Link) (kind : Byte) (p : List Byte) :
    (s.retune q).takeTelegram l kind p = (s.takeTelegram l kind p).retune q := by
  simp [State.takeTelegram]

end

end Sys2Proof.Machine
end

section
/-! PROOFS. What a receiver discards is taken again byte by byte, as though it had just arrived (R146, R147). -/

namespace Sys2Proof.Machine

/-! ## A change of one receiver -/

/-- A change of one link's receiver. -/
def only (l : Link) (f : Receiver → Receiver) : Link → Receiver → Receiver := fun j => if j = l then f else id

theorem State.retune_only (s : State) (l : Link) (f : Receiver → Receiver) :
    s.retune (only l f) = s.setLink l ((s.link l).retune f) := by
  cases l <;> rfl

theorem State.link_retune_only (s : State) (l : Link) (f : Receiver → Receiver) :
    (s.retune (only l f)).link l = (s.link l).retune f := by
  rw [State.retune_only, State.link_setLink_same]

theorem State.setLink_retune_only (s : State) (l : Link) (x : LinkState) (f : Receiver → Receiver) :
    (s.retune (only l f)).setLink l (x.retune f) = (s.setLink l x).retune (only l f) := by
  rw [State.retune_only, State.retune_only, State.setLink_setLink, State.setLink_setLink, State.link_setLink_same]

/-- What a receiver has collected is gone once it hunts again. -/
theorem State.heard_retune_only (s : State) (l : Link) {f : Receiver → Receiver} (h : ∀ y, (f y).rescan = y.rescan) :
    (s.retune (only l f)).heard l = s.heard l := by
  rw [State.heard, State.link_retune_only, State.retune_only, State.setLink_setLink, State.heard]
  simp only [LinkState.hunt, LinkState.retune, h]

/-! ## Bytes at the end of a rescan list -/

/-- A receiver with more bytes at the end of its rescan list. -/
def Receiver.trailing (r : List Byte) (y : Receiver) : Receiver := { y with rescan := y.rescan ++ r }

/-- A link with more bytes at the end of its rescan list. -/
def State.trailing (s : State) (l : Link) (r : List Byte) : State := s.retune (only l (Receiver.trailing r))

theorem State.link_trailing (s : State) (l : Link) (r : List Byte) :
    (s.trailing l r).link l = { s.link l with rescan := (s.link l).rescan ++ r } := s.link_retune_only l _

theorem State.setLink_trailing (s : State) (l : Link) (x : LinkState) (r : List Byte) :
    (s.trailing l r).setLink l { x with rescan := x.rescan ++ r } = (s.setLink l x).trailing l r := s.setLink_retune_only l x _

theorem State.trailing_nil (s : State) (l : Link) : s.trailing l [] = s := by
  rw [State.trailing, State.retune_only]
  refine (congrArg (s.setLink l) ?_).trans (s.setLink_link l)
  simp only [LinkState.retune, Receiver.trailing, List.append_nil]

theorem State.discard_trailing (s : State) (l : Link) (k : FaultKind) (r : List Byte) :
    (s.trailing l r).discard l k = (s.discard l k).trailing l r := by
  unfold State.discard
  rw [State.trailing, State.report_retune, ← State.trailing]
  simp only [State.link_trailing, LinkState.hunt, ← List.append_assoc]
  exact State.setLink_trailing _ l { ((s.report k (some (.link l))).link l).hunt with
    rescan := ((s.report k (some (.link l))).link l).collected ++ ((s.report k (some (.link l))).link l).rescan } r

theorem State.takeTelegram_trailing (s : State) (l : Link) (k : Byte) (p : List Byte) (r : List Byte) :
    (s.trailing l r).takeTelegram l k p = (s.takeTelegram l k p).trailing l r := s.takeTelegram_retune _ l k p

theorem State.complete_trailing (s : State) (l : Link) (r : List Byte) : (s.trailing l r).complete l = (s.complete l).trailing l r := by
  unfold State.complete
  rw [State.link_trailing]
  simp only [LinkState.hunt]
  split
  · exact (congrArg (fun t : State => t.takeTelegram l _ _) (s.setLink_trailing l (s.link l).hunt r)).trans
      (State.takeTelegram_trailing _ l _ _ r)
  · exact s.discard_trailing l _ r

/-- The bytes at the end of the rescan list are left for later. -/
theorem State.takeByte_trailing (s : State) (l : Link) (b : Byte) (r : List Byte) :
    (s.trailing l r).takeByte l b = (s.takeByte l b).trailing l r := by
  have hgathers : ∀ (c : List Byte) (g : Option Stamp) (on : Bool), (s.trailing l r).setLink l { s.link l with
      collecting := on, collected := c, rescan := (s.link l).rescan ++ r, gap := g } =
        (s.setLink l { s.link l with collecting := on, collected := c, gap := g }).trailing l r := fun c g on =>
    s.setLink_trailing l { s.link l with collecting := on, collected := c, gap := g } r
  unfold State.takeByte
  rw [State.link_trailing]
  simp only [hgathers]
  split
  · split
    · exact State.discard_trailing _ l _ r
    · split
      · exact State.complete_trailing _ l r
      · rfl
  · split
    · rfl
    · rfl

/-! ## The fuel of a rescan (R147) -/

theorem State.rescan_of_nothing (n : Nat) {s : State} {l : Link} (h : (s.link l).rescan = []) : State.rescan n s l = s := by
  cases n with
  | zero => rfl
  | succ n => rw [State.rescan, h]

theorem State.rescan_succ {n : Nat} {s : State} {l : Link} {b : Byte} {r : List Byte} (h : (s.link l).rescan = b :: r) :
    State.rescan (n + 1) s l = State.rescan n (State.takeByte (s.setLink l { s.link l with rescan := r }) l b) l := by
  rw [State.rescan, h]

/-- Fuel beyond the distance to the end makes no difference. -/
theorem State.rescan_enough (l : Link) : ∀ (n m : Nat) (s : State), (s.link l).toScan ≤ n → (s.link l).toScan ≤ m →
    State.rescan n s l = State.rescan m s l
  | 0, m, s, hn, _ => (State.rescan_of_nothing m (LinkState.rescan_of_toScan (Nat.le_zero.mp hn))).symm
  | n, 0, s, _, hm => State.rescan_of_nothing n (LinkState.rescan_of_toScan (Nat.le_zero.mp hm))
  | n + 1, m + 1, s, hn, hm => by
    cases h : (s.link l).rescan with
    | nil => rw [State.rescan_of_nothing _ h, State.rescan_of_nothing _ h]
    | cons b r =>
      have hnearer := State.takeByte_toScan h
      rw [State.rescan_succ h, State.rescan_succ h]
      exact State.rescan_enough l n m _ (by omega) (by omega)

/-- A rescan takes the first byte of its list, then the rest. -/
theorem State.rescanAll_cons {s : State} {l : Link} {b : Byte} {r : List Byte} (h : (s.link l).rescan = b :: r) :
    s.rescanAll l = (State.takeByte (s.setLink l { s.link l with rescan := r }) l b).rescanAll l := by
  have hnearer := State.takeByte_toScan h
  have hbound := (s.link l).toScan_le_bound
  rw [State.rescanAll, State.rescan_enough l _ ((s.link l).rescanBound + 1) s hbound (by omega), State.rescan_succ h]
  exact State.rescan_enough l _ _ _ (by omega) (LinkState.toScan_le_bound _)

/-- A rescan comes to the bytes at the end of its list when it has done with those before them. -/
theorem State.rescanAll_trailing (l : Link) (r : List Byte) : ∀ (n : Nat) (s : State), (s.link l).toScan ≤ n →
    (s.trailing l r).rescanAll l = ((s.rescanAll l).trailing l r).rescanAll l := by
  intro n
  induction n with
  | zero => exact fun s h => by rw [State.rescanAll_of_nothing (s := s) (LinkState.rescan_of_toScan (Nat.le_zero.mp h))]
  | succ n ih =>
    intro s h
    cases hscan : (s.link l).rescan with
    | nil => rw [State.rescanAll_of_nothing hscan]
    | cons b t =>
      have hnearer := State.takeByte_toScan hscan
      have htrailing : ((s.trailing l r).link l).rescan = b :: (t ++ r) := by rw [State.link_trailing, hscan, List.cons_append]
      have htake := State.setLink_trailing s l { s.link l with rescan := t } r
      rw [State.rescanAll_cons htrailing, State.link_trailing, htake, State.takeByte_trailing, ih _ (by omega),
        ← State.rescanAll_cons hscan]

/-! ## A rescan as a run of bytes -/

/-- The receiver has taken some bytes again, one by one. -/
def State.examined (s : State) (l : Link) (bs : List Byte) : State := (s.trailing l bs).rescanAll l

theorem State.examined_nil {s : State} {l : Link} (h : (s.link l).rescan = []) : s.examined l [] = s := by
  rw [State.examined, State.trailing_nil, State.rescanAll_of_nothing h]

theorem State.discard_high (s : State) (l : Link) (k : FaultKind) : ((s.discard l k).link l).high = (s.link l).high := by
  obtain ⟨hhigh, -⟩ := (s.report_linksOnly k (some (.link l))).toCalm.scanKept l
  rw [State.discard, State.link_setLink_same]
  exact hhigh

theorem State.complete_high (s : State) (l : Link) : ((s.complete l).link l).high = (s.link l).high := by
  unfold State.complete
  simp only
  split
  · obtain ⟨hhigh, -⟩ := State.takeTelegram_scanKept (s.setLink l (s.link l).hunt) l ((s.link l).collected.getD 1 0)
      ((s.link l).collected.dropLast.drop 2) l
    rw [hhigh, State.link_setLink_same]
    rfl
  · exact s.discard_high l _

theorem State.takeByte_high (s : State) (l : Link) (b : Byte) : ((s.takeByte l b).link l).high = (s.link l).high := by
  unfold State.takeByte
  simp only
  split
  · split
    · rw [State.discard_high, State.link_setLink_same]
    · split
      · rw [State.complete_high, State.link_setLink_same]
      · rw [State.link_setLink_same]
  · split
    · rw [State.link_setLink_same]
    · rfl

theorem State.rescan_high (l : Link) : ∀ (n : Nat) (s : State), ((State.rescan n s l).link l).high = (s.link l).high
  | 0, _ => rfl
  | n + 1, s => by
    unfold State.rescan
    split
    · rfl
    · rw [State.rescan_high l n, State.takeByte_high, State.link_setLink_same]

theorem State.lineByte_high (s : State) (l : Link) (b : Byte) : ((s.lineByte l b).link l).high = (s.link l).high := by
  unfold State.lineByte
  split
  · exact (State.rescan_high l _ _).trans (s.takeByte_high l b)
  · rfl

/-- Bytes that stand alone on the rescan list are taken as though each had just arrived (R147, step 4). -/
theorem State.runs_examined (l : Link) (bs : List Byte) : ∀ s : State, (s.link l).high = true → (s.link l).rescan = [] →
    runs (bs.map (Instr.linkByte l)) s (s.examined l bs) := by
  induction bs with
  | nil =>
    intro s _ hscan
    exact State.examined_nil hscan
  | cons b bs ih =>
    intro s hhigh hscan
    have hlist : ((s.trailing l (b :: bs)).link l).rescan = b :: bs := by rw [State.link_trailing, hscan, List.nil_append]
    have hrest : (s.trailing l (b :: bs)).setLink l { (s.trailing l (b :: bs)).link l with rescan := bs } = s.trailing l bs := by
      rw [State.link_trailing, State.trailing, State.retune_only, State.setLink_setLink, State.trailing, State.retune_only]
      simp only [LinkState.retune, Receiver.trailing, hscan, List.nil_append]
    have hexamined : s.examined l (b :: bs) = (s.lineByte l b).examined l bs := by
      rw [State.examined, State.rescanAll_cons hlist, hrest, State.takeByte_trailing, State.rescanAll_trailing l bs _ _ le_rfl,
        State.lineByte, if_pos hhigh, State.examined]
    rw [hexamined]
    have hscan' : ((s.lineByte l b).link l).rescan = [] := by
      rw [State.lineByte, if_pos hhigh]
      exact State.rescanAll_ends _ l
    exact ⟨_, rfl, ih _ ((s.lineByte_high l b).trans hhigh) hscan'⟩

/-! ## Discards (R147) -/

/-- A telegram is discarded, with nothing yet taken again: the fault is in the log and the receiver HUNTING. -/
def State.discarded (s : State) (l : Link) (k : FaultKind) : State := (s.report k (some (.link l))).heard l

/-- A receiver that has collected the bytes `c`. -/
def Receiver.gathered (c : List Byte) (gap : Stamp) (y : Receiver) : Receiver := ⟨true, c, y.rescan, some gap⟩

theorem State.collects_eq (s : State) (l : Link) (c : List Byte) :
    s.collects l c = s.retune (only l (Receiver.gathered c (stampAfter s.now 2000))) := by
  rw [State.retune_only]
  rfl

/-- What the receiver has collected makes no difference to the fault. -/
theorem State.discarded_collects (s : State) (l : Link) (c : List Byte) (k : FaultKind) :
    (s.collects l c).discarded l k = s.discarded l k := by
  rw [State.discarded, State.collects_eq, State.report_retune,
    State.heard_retune_only _ l (f := Receiver.gathered c (stampAfter s.now 2000)) fun _ => rfl, State.discarded]

theorem State.link_discarded (s : State) (l : Link) (k : FaultKind) :
    (s.discarded l k).link l = ((s.report k (some (.link l))).link l).hunt := State.link_setLink_same _ l _

theorem State.discarded_high {s : State} {l : Link} (hhigh : (s.link l).high = true) (k : FaultKind) :
    ((s.discarded l k).link l).high = true := by
  obtain ⟨hhigh', -⟩ := (s.report_linksOnly k (some (.link l))).toCalm.scanKept l
  rw [State.link_discarded]
  exact hhigh'.trans hhigh

/-- A byte that comes while a telegram is collected (R146). -/
theorem State.takeByte_collecting {s : State} {l : Link} (hcollecting : (s.link l).collecting = true) (b : Byte) :
    s.takeByte l b =
      if 240 < lenOf ((s.link l).collected ++ [b]) then (s.collects l ((s.link l).collected ++ [b])).discard l .length
      else if ((s.link l).collected ++ [b]).length = lenOf ((s.link l).collected ++ [b]) + 3 then
        (s.collects l ((s.link l).collected ++ [b])).complete l
      else s.collects l ((s.link l).collected ++ [b]) := by
  have hcollects : s.setLink l { s.link l with collected := (s.link l).collected ++ [b], gap := some (stampAfter s.now 2000) } =
      s.collects l ((s.link l).collected ++ [b]) := by rw [State.collects, ← hcollecting]
  simp only [State.takeByte, hcollecting, if_true, ← hcollects]

section
variable {s : State} {l : Link} (hscan : (s.link l).rescan = [])
include hscan

theorem State.discarded_rescan (k : FaultKind) : ((s.discarded l k).link l).rescan = [] := by
  obtain ⟨-, -, -, hrescan⟩ := (s.report_linksOnly k (some (.link l))).toCalm.scanKept l
  rw [State.link_discarded]
  exact hrescan.trans hscan

/-- A discard puts the bytes collected on the rescan list. -/
theorem State.discard_eq (k : FaultKind) : s.discard l k = (s.discarded l k).trailing l (s.link l).collected := by
  obtain ⟨-, -, hcollected, hrescan⟩ := (s.report_linksOnly k (some (.link l))).toCalm.scanKept l
  rw [State.trailing, State.retune_only, State.link_discarded, State.discarded, State.heard, State.setLink_setLink, State.discard]
  simp only [LinkState.retune, LinkState.hunt, Receiver.trailing, hcollected, hrescan, hscan, List.nil_append, List.append_nil]

theorem State.discard_rescanAll (k : FaultKind) :
    (s.discard l k).rescanAll l = (s.discarded l k).examined l (s.link l).collected := by
  rw [State.discard_eq hscan, State.examined]

variable (hhigh : (s.link l).high = true)
include hhigh

/-- The bytes of a discarded telegram are taken as though each had just arrived. -/
theorem State.runs_discarded (k : FaultKind) (c : List Byte) :
    runs (c.map (Instr.linkByte l)) (s.discarded l k) ((s.discarded l k).examined l c) :=
  State.runs_examined l c _ (State.discarded_high hhigh k) (State.discarded_rescan hscan k)

/-- The last byte of a telegram is taken and the telegram discarded. -/
theorem State.lineByte_discarded {b : Byte} {k : FaultKind}
    (h : s.takeByte l b = (s.collects l ((s.link l).collected ++ [b])).discard l k) :
    s.lineByte l b = (s.discarded l k).examined l ((s.link l).collected ++ [b]) := by
  have hscan' : ((s.collects l ((s.link l).collected ++ [b])).link l).rescan = [] := by rw [State.link_collects_rescan, hscan]
  rw [State.lineByte, if_pos hhigh, h, State.discard_rescanAll hscan', State.discarded_collects, State.link_collects_collected]

variable (hcollecting : (s.link l).collecting = true)
include hcollecting

theorem State.lineByte_length {b : Byte} (hlen : 240 < lenOf ((s.link l).collected ++ [b])) :
    s.lineByte l b = (s.discarded l .length).examined l ((s.link l).collected ++ [b]) :=
  State.lineByte_discarded hscan hhigh (by rw [State.takeByte_collecting hcollecting, if_pos hlen])

theorem State.lineByte_badCheck {b : Byte} (hlen : lenOf ((s.link l).collected ++ [b]) ≤ 240)
    (hlast : ((s.link l).collected ++ [b]).length = lenOf ((s.link l).collected ++ [b]) + 3)
    (hcheck : crc8 (s.link l).collected ≠ b) :
    s.lineByte l b = (s.discarded l .badCheck).examined l ((s.link l).collected ++ [b]) := by
  refine State.lineByte_discarded hscan hhigh ?_
  rw [State.takeByte_collecting hcollecting, if_neg (Nat.not_lt.2 hlen), if_pos hlast, State.complete, State.link_collects_collected]
  simp only [List.dropLast_concat, List.getLastD_concat, hcheck, if_false]

theorem State.badStop_collecting : s.badStop l = (s.discarded l .line).examined l (s.link l).collected := by
  rw [State.badStop, hhigh, hcollecting, State.discard_rescanAll hscan]
  rfl

omit hhigh in
theorem State.gapDeadline_collecting (hgap : (s.link l).gap.isSome = true) :
    s.gapDeadline l = (s.discarded l .gap).examined l (s.link l).collected := by
  rw [State.gapDeadline, hcollecting, hgap, State.discard_rescanAll hscan]
  rfl

end

/-! ## The receiver and the classes of telegrams -/

section
variable {s : State} {l : Link} (hhigh : (s.link l).high = true) (hscan : (s.link l).rescan = [])
include hhigh hscan

/-- A byte of a LEN above 240, after nothing but the start byte, is no start byte itself: nothing is left of it. -/
theorem State.examined_length {b : Byte} (hb : 240 < b.toNat) : (s.discarded l .length).examined l [b] = s.discarded l .length := by
  have hstart : b ≠ 0x9C#8 := fun e => by
    rw [e] at hb
    exact absurd hb (by decide)
  obtain ⟨u, hu, hlast⟩ := State.runs_discarded hscan hhigh .length [b]
  have hbyte : (s.discarded l .length).lineByte l b = u := Host.Outcome.next.inj hu
  rw [(hlast : _ = u), ← hbyte]
  exact State.lineByte_ignored (State.discarded_high hhigh _) (State.discarded_rescan hscan _)
    (by rw [State.link_discarded]; rfl) hstart

end

/-- A LOW link takes neither bytes nor telegrams (R146). -/
theorem exec_low {s : State} {l : Link} (h : (s.link l).high = false) :
    (∀ b, exec (.linkByte l b) s = .next s) ∧ (∀ e, exec (.telegramDiscard l e) s = .next s) ∧
      (∀ k p, exec (.badClassTelegram l k p) s = .next s) ∧ (∀ c p, exec (.badReport l c p) s = .next s) ∧
      (∀ c p, exec (.reportDenied l c p) s = .next s) := by
  have hbyte : ∀ b, s.lineByte l b = s := fun b => if_neg (by rw [h]; decide)
  have hstop : s.badStop l = s := if_neg (by rw [h, Bool.false_and]; decide)
  refine ⟨fun b => congrArg Host.Outcome.next (hbyte b), fun e => ?_,
    fun k p => congrArg Host.Outcome.next (State.telegram_low h k p),
    fun c p => congrArg Host.Outcome.next (State.telegram_low h _ p), fun c p => congrArg Host.Outcome.next (State.telegram_low h _ p)⟩
  cases e with
  | byte b => exact congrArg Host.Outcome.next (hbyte b)
  | badStop => exact congrArg Host.Outcome.next hstop

/-- The fault of a report whose code is `c`, on a connected link. -/
theorem exec_badReport {s : State} {l : Link} (h : (s.link l).high = true) (c : Fin 64) (p : List Byte) :
    exec (.badReport l c p) s = .next ((s.heard l).takeReport l c.val p) :=
  congrArg Host.Outcome.next (State.telegram_report h c.isLt p)

theorem exec_reportDenied {s : State} {l : Link} (h : (s.link l).high = true) (c : Fin 64) (p : List Byte) :
    exec (.reportDenied l c p) s = .next ((s.heard l).takeReport l c.val p) :=
  congrArg Host.Outcome.next (State.telegram_report h c.isLt p)

theorem RepKind.code_ofNat (k : RepKind) : (Fin.ofNat 64 k.code).val = k.code := Nat.mod_eq_of_lt k.code_lt

/-- Settles O52: each byte by the receiver's state and what it has collected, a discard by the run of the bytes that come to be
taken again, and a telegram by its class. -/
theorem receiverTakesTelegramsAndDiscards : Obligations.ReceiverTakesTelegramsAndDiscards := by
  intro s l x hunt gap logged
  refine ⟨exec_low, fun hhigh hscan => ⟨fun hhunting => ⟨?_, fun b hb => ?_, ?_⟩, fun hcollecting b hlen hmore => ?_,
    fun hcollecting hnone => ⟨fun b hb => ?_, ?_, fun hgap => ?_⟩⟩,
    fun hhigh hscan hcollecting => ⟨fun b => ⟨rfl, fun hlen hlast hcheck => ?_, fun hlen => ?_, fun hlen hlast hcheck => ?_⟩, ?_, fun hgap => ?_⟩,
    fun hhunting => ?_, fun hhigh => ⟨fun k p hk => ?_, fun c p hc => ?_, fun k p ha hf => ?_, fun k p ha => ?_⟩⟩
  · exact congrArg Host.Outcome.next (State.lineByte_opens hhigh hscan hhunting)
  · exact congrArg Host.Outcome.next (State.lineByte_ignored hhigh hscan hhunting hb)
  · exact congrArg Host.Outcome.next (if_neg (by rw [hhunting, Bool.and_false]; decide))
  · have hbyte := State.lineByte_collects hhigh hscan hcollecting hlen (by
      rw [List.length_append, List.length_singleton]
      exact Nat.ne_of_lt hmore)
    rw [State.collects, ← hcollecting] at hbyte
    exact congrArg Host.Outcome.next hbyte
  · have hlen : 240 < lenOf ((s.link l).collected ++ [b]) := by rw [show (s.link l).collected = [] from hnone]; exact hb
    have hbyte := State.lineByte_length hscan hhigh hcollecting hlen
    rw [show (s.link l).collected = [] from hnone, List.nil_append, State.examined_length hhigh hscan hb] at hbyte
    refine ⟨_, congrArg Host.Outcome.next hbyte, ?_, ?_, ?_, State.discarded_rescan hscan _, rfl⟩
    · rw [State.link_discarded]; rfl
    · rw [State.link_discarded]; rfl
    · rw [State.link_discarded]; rfl
  · have hstop := State.badStop_collecting hscan hhigh hcollecting
    rw [show (s.link l).collected = [] from hnone, State.examined_nil (State.discarded_rescan hscan _)] at hstop
    exact congrArg Host.Outcome.next hstop
  · have hexpired := State.gapDeadline_collecting hscan hcollecting hgap
    rw [show (s.link l).collected = [] from hnone, State.examined_nil (State.discarded_rescan hscan _)] at hexpired
    exact congrArg Host.Outcome.next hexpired
  · exact ⟨_, congrArg Host.Outcome.next (State.lineByte_badCheck hscan hhigh hcollecting hlen hlast hcheck),
      State.runs_discarded hscan hhigh _ _⟩
  · exact ⟨_, congrArg Host.Outcome.next (State.lineByte_length hscan hhigh hcollecting hlen), State.runs_discarded hscan hhigh _ _⟩
  · exact congrArg Host.Outcome.next (State.lineByte_received hhigh hscan hcollecting hlen hlast hcheck)
  · exact ⟨_, congrArg Host.Outcome.next (State.badStop_collecting hscan hhigh hcollecting), State.runs_discarded hscan hhigh _ _⟩
  · exact ⟨_, congrArg Host.Outcome.next (State.gapDeadline_collecting hscan hcollecting hgap), State.runs_discarded hscan hhigh _ _⟩
  · exact congrArg Host.Outcome.next (if_neg (by rw [hhunting, Bool.false_and]; decide))
  · exact congrArg Host.Outcome.next ((State.telegram_heard hhigh k p).trans (State.takeTelegram_badClass _ l hk p))
  · rw [exec_badReport hhigh, State.takeReport_unknown _ l hc]
    rfl
  · rw [exec_badReport hhigh, RepKind.code_ofNat, State.takeReport_unfit _ ha hf]
    rfl
  · rw [exec_reportDenied hhigh, RepKind.code_ofNat, State.takeReport_denied _ ha]
    rfl

end Sys2Proof.Machine
end

section
/-! PROOFS. SET_FAULT_MODE, ACK_FAULTS and READ_FAULTS (R184, R186, R187). -/

namespace Sys2Proof.Machine

/-! ## Classes, modes and their codes -/

/-- One class alone takes a mode (R184). -/
theorem FaultModes.get_set (m : FaultModes) (c d : FaultClass) (x : FaultMode) :
    (m.set c x).get d = if d = c then x else m.get d := by
  cases c <;> cases d <;> rfl

theorem FaultClass.code_le (c : FaultClass) : c.code ≤ 9 := by cases c <;> decide

theorem FaultMode.code_le (m : FaultMode) : m.code ≤ 2 := by cases m <;> decide

theorem faultClassOf_code (c : FaultClass) : faultClassOf c.code = some c := by cases c <;> rfl

theorem faultModeOf_code (m : FaultMode) : faultModeOf m.code = some m := by cases m <;> rfl

/-- Every number from 0 to 9 is the code of a class. -/
theorem faultClassOf_isSome {n : Nat} (h : n ≤ 9) : (faultClassOf n).isSome = true := by
  interval_cases n <;> rfl

theorem faultClassOf_none {n : Nat} (h : 9 < n) : faultClassOf n = none := by
  obtain ⟨k, rfl⟩ := Nat.exists_eq_add_of_le' h
  rfl

theorem faultModeOf_none {n : Nat} (h : 2 < n) : faultModeOf n = none := by
  obtain ⟨k, rfl⟩ := Nat.exists_eq_add_of_le' h
  rfl

/-! ## The payload of SET_FAULT_MODE -/

theorem byteAt_pair {a b : Nat} (ha : a ≤ 255) (hb : b ≤ 255) :
    byteAt [byte a, byte b] 0 = a ∧ byteAt [byte a, byte b] 1 = b :=
  ⟨byte_toNat (Nat.lt_succ_of_le ha), byte_toNat (Nat.lt_succ_of_le hb)⟩

theorem parseFaultMode_code (c : FaultClass) (m : FaultMode) : parseFaultMode [byte c.code, byte m.code] = .ok (c, m) := by
  obtain ⟨hclass, hmode⟩ := byteAt_pair (c.code_le.trans (by decide)) (m.code_le.trans (by decide))
  rw [parseFaultMode, hclass, hmode, faultClassOf_code, faultModeOf_code]
  rfl

theorem parseFaultMode_badClass {c m : Nat} (hc : c ≤ 255) (hm : m ≤ 255) (h : 9 < c) :
    parseFaultMode [byte c, byte m] = .error ⟨0, none⟩ := by
  rw [parseFaultMode, (byteAt_pair hc hm).1, faultClassOf_none h]
  rfl

theorem parseFaultMode_badMode {c m : Nat} (hc : c ≤ 9) (hm : m ≤ 255) (h : 2 < m) :
    parseFaultMode [byte c, byte m] = .error ⟨1, none⟩ := by
  obtain ⟨hclass, hmode⟩ := byteAt_pair (hc.trans (by decide)) hm
  obtain ⟨x, hx⟩ := Option.isSome_iff_exists.1 (faultClassOf_isSome hc)
  rw [parseFaultMode, hclass, hmode, hx, faultModeOf_none h]
  rfl

/-! ## What each request does -/

theorem State.reqSetFaultMode_eq {s : State} {l : Link} {p : List Byte} {c : FaultClass} {m : FaultMode} (hs : s.st.op = .none)
    (hp : parseFaultMode p = .ok (c, m)) : (s.heard l).reqSetFaultMode l p =
      if s.fl.modes.get c = m then s.answered l .setFaultMode .already []
      else (s.answered l .setFaultMode .done []).setModes (s.fl.modes.set c m) := by
  simp only [State.reqSetFaultMode, State.heard_storeBusy, storeBusy_of_none hs, hp, State.heard_fl, State.heard_reply]
  rfl

theorem State.reqSetFaultMode_range {s : State} {l : Link} {p : List Byte} {e : BadField} (hs : s.st.op = .none)
    (hp : parseFaultMode p = .error e) : (s.heard l).reqSetFaultMode l p =
      s.answered l .setFaultMode .range (be16 e.offset ++ [optByte e.place]) := by
  simp only [State.reqSetFaultMode, State.heard_storeBusy, storeBusy_of_none hs, hp, State.heard_replyRange]
  rfl

/-- The line is asserted exactly while a record of a class in ALERT mode is unacknowledged (R186). -/
theorem State.setModes_eq (s : State) (m : FaultModes) : s.setModes m =
    { s with fl := { s.fl with
        modes := m
        alert := s.fl.records.any (fun r => !r.acked && decide (m.get r.kind.cls = .alert)) } } := rfl

/-- No record is unacknowledged once all are acknowledged, so the line is released (R186). -/
theorem FaultLog.ackAll_eq (f : FaultLog) :
    f.ackAll = { f with records := f.records.map (fun r => { r with acked := true }), alert := false } := by
  simp [FaultLog.ackAll, FaultLog.review, FaultLog.alerting]

theorem State.reqAckFaults_eq (s : State) (l : Link) : (s.heard l).reqAckFaults l =
    { s.answered l .ackFaults .done [] with
      fl := { s.fl with records := s.fl.records.map (fun r => { r with acked := true }), alert := false } } := by
  simp only [State.reqAckFaults, State.heard_reply, FaultLog.ackAll_eq, State.answered_fl]

theorem State.reqReadFaults_eq (s : State) (l : Link) {n : Nat} (hn : n ≤ 255) : (s.heard l).reqReadFaults l [byte n] =
    if 31 < n then s.answered l .readFaults .range [0, 0, 255]
    else s.answered l .readFaults .done
      (byte s.fl.records.length :: ((s.fl.records.drop n).take 16).flatMap faultBytes) := by
  simp only [State.reqReadFaults, byteAt_byte_cons (Nat.lt_succ_of_le hn)]
  by_cases h : 31 < n
  · rw [within_error (.inr h), if_pos h]
    exact State.heard_replyRange s l _ _
  · rw [within_ok (Nat.zero_le n) (Nat.le_of_not_lt h), if_neg h]
    exact State.heard_answer s l .readFaults .done _

/-- Settles O43: SET_FAULT_MODE by what its payload reads as, and the other two requests by their own lemmas. -/
theorem faultLogRequestsAct : Obligations.FaultLogRequestsAct := by
  intro s l
  refine ⟨fun c m hc hm hs ht => ⟨fun hclass => ?_, fun hclass hmode => ?_⟩, fun c m hs ht => ?_, fun ht => ?_,
    fun n hn ht => ?_⟩
  · rw [exec_of_takes (i := .setFaultMode l [byte c, byte m]) rfl ht]
    exact congrArg _ (State.reqSetFaultMode_range hs (parseFaultMode_badClass hc hm hclass))
  · rw [exec_of_takes (i := .setFaultMode l [byte c, byte m]) rfl ht]
    exact congrArg _ (State.reqSetFaultMode_range hs (parseFaultMode_badMode hclass hm hmode))
  · have hx := (exec_of_takes (i := .setFaultMode l [byte c.code, byte m.code]) rfl ht).trans
      (congrArg _ (State.reqSetFaultMode_eq hs (parseFaultMode_code c m)))
    refine ⟨fun hsame => ?_, fun hnew => ⟨s.fl.modes.set c m, ?_, fun d hd => ?_, ?_⟩⟩
    · rw [hx, if_pos hsame]
    · rw [FaultModes.get_set, if_pos rfl]
    · rw [FaultModes.get_set, if_neg hd]
    · rw [hx, if_neg hnew, State.setModes_eq, State.answered_fl]
  · rw [exec_of_takes (i := .ackFaults l []) rfl ht]
    exact congrArg _ (s.reqAckFaults_eq l)
  · rw [exec_of_takes (i := .readFaults l [byte n]) rfl ht]
    exact congrArg _ (s.reqReadFaults_eq l hn)

end Sys2Proof.Machine
end

section
/-! PROOFS. SAVE_SHOW, the requests that a save or a load refuses, and SAVE_DONE (R180 to R182). -/

namespace Sys2Proof.Machine

/-! ## The requests -/

theorem storeBusy_of_ne {s : State} (h : s.st.op ≠ .none) : s.storeBusy = true := decide_eq_true h

theorem State.reqSaveShow_eq {s : State} (hs : s.st.op = .none) (l : Link) : (s.heard l).reqSaveShow l =
    { s.answered l .saveShow .accepted [] with st := { s.st with op := .saving s.image } } := by
  simp only [State.reqSaveShow, State.heard_storeBusy, storeBusy_of_none hs, State.heard_reply]
  rfl

/-- The owner of each of these requests looks at the Show Store before anything else (R181, R182). -/
theorem State.perform_storeBusy {s : State} (hs : s.st.op ≠ .none) (l : Link) {k : ReqKind} (p : List Byte)
    (hk : k ∈ [ReqKind.writeScene, .writeCue, .writeSong, .writeSetlist, .writePattern, .setClick, .setInput, .setOutput,
      .setWatch, .setFaultMode, .loadShow, .saveShow]) :
    (s.heard l).perform l k p = s.answered l k .busy [] := by
  have hbusy : (s.heard l).storeBusy = true := (s.heard_storeBusy l).trans (storeBusy_of_ne hs)
  simp only [List.mem_cons, List.not_mem_nil, or_false] at hk
  rcases hk with rfl | rfl | rfl | rfl | rfl | rfl | rfl | rfl | rfl | rfl | rfl | rfl <;>
    exact (if_pos hbusy).trans (State.heard_reply s l _ .busy)

/-! ## The end of a save -/

theorem exec_saveDone (s : State) (e : SaveEnd) : exec (.saveDone e) s = .next (s.saveEnds e) := rfl

theorem State.saveEnds_of_saving {s : State} {g : ShowImage} (h : s.st.op = .saving g) (e : SaveEnd) : s.saveEnds e =
    ((s.withStore { status := (saveOutcome e g).1, op := .none, flash := (saveOutcome e g).2.2 }).storeNotice .save
      (decide ((saveOutcome e g).1 = .valid))).reportStore (saveOutcome e g).2.1 := by
  simp only [State.saveEnds, h]

theorem State.saveEnds_of_not_saving {s : State} (h : ∀ g, s.st.op ≠ .saving g) (e : SaveEnd) : s.saveEnds e = s := by
  unfold State.saveEnds
  split
  · next g hg => exact absurd hg (h g)
  · rfl
  · rfl

/-- Settles O46: the copy and the refusals by the owners' lemmas, and SAVE_DONE by the way in which the save ended. -/
theorem saveRunsFromACopy : Obligations.SaveRunsFromACopy := by
  intro s
  refine ⟨fun l hs ht => ?_, fun i l k p hi hs ht hk => ?_, fun e g h => ?_, fun e h => ?_⟩
  · rw [exec_of_takes (i := .saveShow l []) rfl ht]
    exact congrArg _ (State.reqSaveShow_eq hs l)
  · rw [exec_of_takes hi ht, State.perform_storeBusy hs l p hk]
  · have hx := (exec_saveDone s e).trans (congrArg _ (State.saveEnds_of_saving h e))
    cases e with
    | matched => exact hx
    | writeFailed onlyErased =>
      cases onlyErased with
      | true => exact hx
      | false => exact hx
    | differed => exact hx
  · rw [exec_saveDone, State.saveEnds_of_not_saving h]

end Sys2Proof.Machine
end

section
/-! PROOFS. What a step takes while the queue holds a command (00_scope.md). -/

namespace Sys2Proof.Machine

theorem step_of_pending {s : State} {c : Instr} {rest : List Instr} (h : s.pending = c :: rest) :
    step s = exec c { s with pending := rest } := by
  simp only [step, h]

/-- Settles O1: the queue's rest replaces a queue whose front is the command. -/
theorem stepTakesTheFrontOfTheQueue : Obligations.StepTakesTheFrontOfTheQueue :=
  fun _ _ _ => step_of_pending rfl

end Sys2Proof.Machine
end
